-- ==== Sys2Proof/Word.lean ====
section
/-! DEFINITION. The machine's words and their plainest arithmetic (R6, R24, R29). -/

namespace Sys2Proof

/-- A byte of storage (R6). -/
abbrev Byte := BitVec 8

/-- A code word of a fetch packet (R37). -/
abbrev Half := BitVec 16

/-- A slot op word (R48) and a coherence word of memory (R251). -/
abbrev Word := BitVec 32

/-- A scalar register's value (R94). -/
abbrev Dword := BitVec 64

/-- A bundle address or a virtual address (R94, R298). -/
abbrev Addr := BitVec 52

/-- A vector register's 1,024 bytes, byte 0 in bits [7:0] (R124, R130). -/
abbrev VReg := BitVec 8192

/-- Bits [hi:lo] of a 64-bit value as a number (R29). -/
def bitsOf (x : Dword) (hi lo : Nat) : Nat := (x.toNat / 2 ^ lo) % 2 ^ (hi + 1 - lo)

end Sys2Proof
end

