-- ==== Sys2Proof/Machine/Msg.lean ====
section
/-! DEFINITION. The names and the payloads that instructions and state share: guards, registers,
messages between the agents of the device, and the outside's requests. -/

namespace Sys2Proof

/-- The guard of a slot op: predicate number and inversion (R48). -/
structure Guard where
  p : BitVec 3
  neg : Bool
  deriving DecidableEq, Repr, Inhabited

namespace Machine

/-- A copy, tile, scatter or landing transfer, named by core, channel and identifier (R214). -/
structure XferId where
  core : Nat
  ch : Nat
  id : Word
  deriving DecidableEq, Repr, Inhabited

/-- Who made a request: a context of a core (R92). -/
structure Who where
  core : Nat
  ctx : Nat
  deriving DecidableEq, Repr, Inhabited

/-- Neighbour directions, coded 0 N, 1 E, 2 S, 3 W (R58, R176). -/
abbrev Dir := BitVec 2

/-- A link or a fabric port that can go down (R189, R364, R375). -/
inductive LinkId where
  | neighbour (core : Nat) (dir : Dir)
  | ngufer (port : Nat)
  | ethernet (port : Nat)
  deriving DecidableEq, Repr, Inhabited

/-- What a read message is for: an L1 fill (R255), or a read whose value goes back to one op and is
not installed (an LDA's fresh read, R280, is installed too and is also kept for the op). -/
inductive ReadWhy where
  | fill
  | lda (slot : Nat)
  deriving DecidableEq, Repr, Inhabited

/-- REG(word, full or sub-word, core) (R253). `word` is the word's physical byte address. -/
structure RegMsg where
  word : Nat
  full : Bool
  owner : Nat
  deriving DecidableEq, Repr, Inhabited

/-- GRANT(g), with the word's data for a sub-word registration of an unregistered word, and with
`fwd` set when FDATA will follow (R253). -/
structure GrantMsg where
  word : Nat
  owner : Nat
  grant : Word
  data : Option Word
  fwd : Bool
  deriving DecidableEq, Repr, Inhabited

/-- Where a revoked owner's data goes: to the new owner, or to the home (R253, R257). -/
inductive FwdTo where
  | core (n : Nat)
  | home
  deriving DecidableEq, Repr, Inhabited

/-- REVOKE(word, tag, requester, forward) to the word's owner (R253, R258). -/
structure RevokeMsg where
  word : Nat
  owner : Nat
  tag : BitVec 22
  dest : FwdTo
  forward : Bool
  deriving DecidableEq, Repr, Inhabited

/-- FDATA(word, data, tag) to the new owner or to the home (R253). -/
structure FdataMsg where
  word : Nat
  dest : FwdTo
  data : Word
  tag : BitVec 22
  /-- The data are not to be corrected (R354). -/
  bad : Bool
  deriving DecidableEq, Repr, Inhabited

/-- READ of one word by a core (R255). -/
structure ReadMsg where
  word : Nat
  who : Who
  why : ReadWhy
  /-- The virtual address at which the reader asks. -/
  va : Nat
  /-- The private page that the reader's translation names, its base plus level (R261). -/
  page : Option Nat
  /-- The contexts of the reader's core that may not use the word which the reply installs: it may be older than what
  they have read, or than what they have acquired (R273, R274; log entry 102). -/
  hidden : List Nat
  deriving DecidableEq, Repr, Inhabited

/-- FWD of a read to the word's owner (R255), from its home or from the pod's in-flight table (R272). -/
structure FwdMsg where
  owner : Nat
  read : ReadMsg
  pod : Bool
  deriving DecidableEq, Repr, Inhabited

/-- DATA(value, grant) to the reader (R255). -/
structure DataMsg where
  read : ReadMsg
  data : Word
  grant : Word
  deriving DecidableEq, Repr, Inhabited

/-- WB(word, data, grant) from an owner to the home (R256). -/
structure WbMsg where
  word : Nat
  owner : Nat
  data : Word
  grant : Word
  /-- The data are not to be corrected (R354). -/
  bad : Bool
  deriving DecidableEq, Repr, Inhabited

/-- GONE: the owner had already sent WB when the REVOKE arrived (R258, R259). -/
structure GoneMsg where
  word : Nat
  owner : Nat
  tag : BitVec 22
  dest : FwdTo
  deriving DecidableEq, Repr, Inhabited

/-- LOST, in place of DATA to a reader or of FDATA to a requester (R260). -/
inductive LostMsg where
  | read (r : ReadMsg)
  | fdata (word : Nat) (owner : Nat)
  deriving DecidableEq, Repr, Inhabited

/-- A write that bypasses the L1: the bytes of one word with `mask` set (R257); `who` and `acc` name
the access it belongs to, when it belongs to one. -/
structure BypassMsg where
  word : Nat
  data : Word
  mask : BitVec 4
  who : Who
  acc : Nat
  deriving DecidableEq, Repr, Inhabited

/-- The new value of an atomic (R266, R281). -/
inductive AtomOp where
  | add | and | or | xor | smin | smax | umin | umax
  | swap
  | cas
  | load
  deriving DecidableEq, Repr, Inhabited

/-- An atomic sent to its home (R266). -/
structure AtomicMsg where
  pa : Nat
  wide : Bool
  op : AtomOp
  b : Dword
  c : Dword
  who : Who
  slot : Nat
  deriving DecidableEq, Repr, Inhabited

/-- An ATOMSC op in flight with its order key (cycle, mask bit) (R277). -/
structure ScOp where
  pa : Nat
  wide : Bool
  op : AtomOp
  b : Dword
  who : Who
  slot : Nat
  key : Nat
  deriving DecidableEq, Repr, Inhabited

/-- What an access does, for translation and rights (R300, R305, R307). -/
inductive Access where
  | fetch | read | write | atomic
  deriving DecidableEq, Repr, Inhabited

/-- A page walk in progress (R303): for a context's miss, or for an engine's. -/
structure Walk where
  asid : Nat
  va : Nat
  access : Access
  who : Who
  deriving DecidableEq, Repr, Inhabited

/-- A packet-cache fill in progress (R61): the packet's virtual and physical byte address. -/
structure Fill where
  core : Nat
  va : Nat
  pa : Nat
  deriving DecidableEq, Repr, Inhabited

/-- A regrow request as it stands at the tile home (R289): the tile, its depth, who waits, and the engine
that reads for it, if one does. -/
structure RegrowReq where
  tile : Nat
  va : Nat
  asid : Nat
  depth : Nat
  who : Who
  engine : Option XferId
  deriving DecidableEq, Repr, Inhabited

/-- A landing reservation request (R237, R238): the sender, and the target core and zone. -/
structure LzReq where
  node : Nat
  who : Who
  slot : Nat
  asid : Nat
  core : Nat
  zone : Nat
  count : Nat
  tag : Nat
  deriving DecidableEq, Repr, Inhabited

/-- A reservation that waits at its target (R238): the path that its answer takes, and whether that has gone down. -/
structure LzQueued where
  req : LzReq
  since : Dword
  port : Option (Bool × Nat)
  cut : Bool
  deriving DecidableEq, Repr, Inhabited

/-- The answer to a reservation: a handle, or a refusal by the access table (R237, R239). -/
structure LzAns where
  who : Who
  slot : Nat
  handle : Dword
  refused : Bool
  tag : Nat
  deriving DecidableEq, Repr, Inhabited

/-- A landing packet: up to 256 bytes for one contiguous range of one slot (R236, R376). -/
structure LzPkt where
  node : Nat
  asid : Nat
  core : Nat
  zone : Nat
  slot : Nat
  rn : Half
  off : Nat
  seq : Nat
  bytes : List Byte
  send : XferId
  ethernet : Bool
  deriving DecidableEq, Repr, Inhabited

/-- LZACK: the count landed and the status, 0 landing, 1 dropped, 2 torn, 3 access refused (R376). -/
structure LzAck where
  send : XferId
  count : Nat
  status : Nat
  deriving DecidableEq, Repr, Inhabited

/-- LZABORT: the sender's device gives up a reservation (R235, R376). -/
structure LzAbort where
  core : Nat
  zone : Nat
  slot : Nat
  rn : Half
  deriving DecidableEq, Repr, Inhabited

/-- A native message between devices: the header's fields and the data units' bytes (R376). -/
structure NatMsg where
  kind : Byte
  src : Byte
  dst : Byte
  asid : Half
  tag : Half
  rsv : BitVec 3
  pa : Addr
  aux : BitVec 12
  data : List Byte
  deriving DecidableEq, Repr, Inhabited

/-- A host's CXL request on one 64-byte half of a line (R264, R369): the host's PBR identifier, the
half's physical address, for a write the 64 bytes, and whether the host would cache the line. -/
structure HostReq where
  host : BitVec 12
  half : Nat
  data : List Byte
  cache : Bool
  deriving DecidableEq, Repr, Inhabited

/-- A store through the agent apertures (R309, R383): the offset in the window and the bytes, the
storing master's node and ASID, and whether the host asked to cache the line. -/
structure ApStore where
  off : Nat
  bytes : List Byte
  node : Nat
  asid : Nat
  cached : Bool
  deriving DecidableEq, Repr, Inhabited

/-- One bind record of the management core (R315). -/
structure BindRec where
  who : Who
  launch : Nat
  strand : Nat
  chmask : Option Half
  depth : BitVec 3
  wheel : List Nat
  ageing : Half
  deriving DecidableEq, Repr, Inhabited

/-- An accepted mailbox command: its slot and the 256 bytes of the slot (R383). -/
structure Cmd where
  slot : Nat
  bytes : List Byte
  deriving DecidableEq, Repr, Inhabited

/-- What SNAPLD asks of a source core, and the conditions it answers (R352). -/
structure FitQuery where
  src : Who
  who : Who
  slot : Nat
  deriving DecidableEq, Repr, Inhabited

/-- A host port as it negotiates at bring-up (R367): the Ngufer Link port, whether its partner offers a mode that the
device supports, and its PBR identifier. -/
structure HostLink where
  port : Nat
  supported : Bool
  pbr : BitVec 12
  deriving DecidableEq, Repr, Inhabited

/-- What bring-up meets (R367, R377, R379, R382): the part form, the firmware image with its signature, the first step
that fails, 0 for none, and the host ports. -/
structure PowerUp where
  form : BitVec 2
  image : List Byte
  fail : BitVec 3
  hosts : List HostLink
  deriving DecidableEq, Repr, Inhabited

/-- One power sample: package power in watts and core-rail current in amperes (R380). -/
structure Sample where
  watts : Nat
  amps : Nat
  deriving DecidableEq, Repr, Inhabited

end Machine
end Sys2Proof
end

