-- ==== Sys2Proof/Syntax.lean ====
section
/-! DEFINITION. The instructions: one constructor per row of the opcode table (R59, R60). A slot op carries its guard and its operand fields as the word holds them (R48 to
R58). A step that no word encodes carries what it acts on. -/

namespace Sys2Proof

/-- One row of the opcode table each. Field names are the table's; `g` is the guard. -/
inductive Instr where
  -- C slot
  /-- BR (R113): Branches to a PC-relative target in code words. -/
  | br (g : Guard) (o : BitVec 21)
  /-- BRI (R114): Branches to the bundle address held in a scalar. -/
  | bri (g : Guard) (a : BitVec 6)
  /-- CALL (R113): Writes the link to s63 and branches to a PC-relative target. -/
  | call (g : Guard) (o : BitVec 21)
  /-- CALLI (R114): Writes the link to s63 and branches to the address in a scalar. -/
  | calli (g : Guard) (a : BitVec 6)
  /-- RET (R114): Branches to the address in s63. -/
  | ret (g : Guard)
  /-- LOOP (R116): Sets up a zero-overhead loop whose count comes from a scalar. -/
  | loop (g : Guard) (l : BitVec 2) (a : BitVec 6) (o : BitVec 13)
  /-- LOOPI (R116): Sets up a zero-overhead loop with an immediate count. -/
  | loopi (g : Guard) (l : BitVec 2) (c : BitVec 10) (o : BitVec 9)
  /-- END (R122): Ends the strand once the other slots of its bundle commit. -/
  | endStrand (g : Guard)
  /-- YIELD (R123): Makes a switch point that gives every other ready context a turn first. -/
  | yield (g : Guard)
  /-- WAITID (R229): Blocks until a channel transfer identifier has completed. -/
  | waitid (g : Guard) (h : BitVec 4) (a : BitVec 6)
  /-- WAITT (R207): Blocks until a tile's busy bit is clear. -/
  | waitt (g : Guard) (t : BitVec 5)
  /-- BAR (R319): Releases, waits for every member of the level group, then acquires. -/
  | bar (g : Guard) (l : BitVec 3)
  /-- RDV (R360): Closes one segment and opens the next, rewindable or not. -/
  | rdv (g : Guard) (r : BitVec 1)
  /-- FENCE (R282): Orders later accesses of chosen classes after earlier ones at a scope. -/
  | fence (g : Guard) (a : BitVec 6) (s : BitVec 2)
  /-- LZWAIT (R245): Waits on an arrival barrier and returns or traps on its word. -/
  | lzwait (g : Guard) (b : BitVec 3) (d : BitVec 6)
  /-- SPAWN (R318): Submits a launch record from memory as the next launch of the queue. -/
  | spawn (g : Guard) (a : BitVec 6)
  /-- TRAP (R348): Raises SWTRAP, or escalates a hold when issued by ctxS. -/
  | trap (g : Guard) (i : BitVec 16)
  /-- TRET (R349): Restores the snapshot and resumes the context at its context-cycle. -/
  | tret (g : Guard)
  /-- SNAPREL (R350): Releases the snapshot buffer and clears MASK. -/
  | snaprel (g : Guard)
  /-- HOLDRET (R351): Ends a hold service and makes the held context ready. -/
  | holdret (g : Guard)
  /-- RDONE (R296): Publishes a regrow slice's output tile and idles the regrow context. -/
  | rdone (g : Guard)
  -- A slots
  /-- ADD (R105): Adds two scalars. -/
  | add (g : Guard) (d : BitVec 6) (a : BitVec 6) (b : BitVec 6)
  /-- SUB (R105): Subtracts two scalars. -/
  | sub (g : Guard) (d : BitVec 6) (a : BitVec 6) (b : BitVec 6)
  /-- AND (R105): Bitwise AND of two scalars. -/
  | and (g : Guard) (d : BitVec 6) (a : BitVec 6) (b : BitVec 6)
  /-- OR (R105): Bitwise OR of two scalars. -/
  | or (g : Guard) (d : BitVec 6) (a : BitVec 6) (b : BitVec 6)
  /-- XOR (R105): Bitwise XOR of two scalars. -/
  | xor (g : Guard) (d : BitVec 6) (a : BitVec 6) (b : BitVec 6)
  /-- ANDN (R105): AND of a scalar with the complement of another. -/
  | andn (g : Guard) (d : BitVec 6) (a : BitVec 6) (b : BitVec 6)
  /-- SHL (R105): Shifts a scalar left by a register amount. -/
  | shl (g : Guard) (d : BitVec 6) (a : BitVec 6) (b : BitVec 6)
  /-- SHR (R105): Shifts a scalar right logically. -/
  | shr (g : Guard) (d : BitVec 6) (a : BitVec 6) (b : BitVec 6)
  /-- SRA (R105): Shifts a scalar right arithmetically. -/
  | sra (g : Guard) (d : BitVec 6) (a : BitVec 6) (b : BitVec 6)
  /-- MIN (R105): Signed minimum of two scalars. -/
  | min (g : Guard) (d : BitVec 6) (a : BitVec 6) (b : BitVec 6)
  /-- MAX (R105): Signed maximum of two scalars. -/
  | max (g : Guard) (d : BitVec 6) (a : BitVec 6) (b : BitVec 6)
  /-- MINU (R105): Unsigned minimum of two scalars. -/
  | minu (g : Guard) (d : BitVec 6) (a : BitVec 6) (b : BitVec 6)
  /-- MAXU (R105): Unsigned maximum of two scalars. -/
  | maxu (g : Guard) (d : BitVec 6) (a : BitVec 6) (b : BitVec 6)
  /-- MUL (R105): Low 64 bits of a product. -/
  | mul (g : Guard) (d : BitVec 6) (a : BitVec 6) (b : BitVec 6)
  /-- MULH (R105): High 64 bits of a signed product. -/
  | mulh (g : Guard) (d : BitVec 6) (a : BitVec 6) (b : BitVec 6)
  /-- MULHU (R105): High 64 bits of an unsigned product. -/
  | mulhu (g : Guard) (d : BitVec 6) (a : BitVec 6) (b : BitVec 6)
  /-- MAD (R105): Adds a product to the destination scalar. -/
  | mad (g : Guard) (d : BitVec 6) (a : BitVec 6) (b : BitVec 6)
  /-- DIV (R106): Signed truncating division that never faults on data. -/
  | div (g : Guard) (d : BitVec 6) (a : BitVec 6) (b : BitVec 6)
  /-- DIVU (R106): Unsigned division. -/
  | divu (g : Guard) (d : BitVec 6) (a : BitVec 6) (b : BitVec 6)
  /-- REM (R106): Signed remainder. -/
  | rem (g : Guard) (d : BitVec 6) (a : BitVec 6) (b : BitVec 6)
  /-- REMU (R106): Unsigned remainder. -/
  | remu (g : Guard) (d : BitVec 6) (a : BitVec 6) (b : BitVec 6)
  /-- CLZ (R105): Counts leading zero bits. -/
  | clz (g : Guard) (d : BitVec 6) (a : BitVec 6)
  /-- POPC (R105): Counts set bits. -/
  | popc (g : Guard) (d : BitVec 6) (a : BitVec 6)
  /-- BFX (R107): Extracts a bit field described by a scalar. -/
  | bfx (g : Guard) (d : BitVec 6) (a : BitVec 6) (b : BitVec 6)
  /-- BFI (R107): Inserts a bit field into the destination scalar. -/
  | bfi (g : Guard) (d : BitVec 6) (a : BitVec 6) (b : BitVec 6)
  /-- SEL (R105): Selects one of two scalars by a predicate. -/
  | sel (g : Guard) (d : BitVec 6) (a : BitVec 6) (b : BitVec 6) (p : BitVec 3)
  /-- ADDX (R105): Adds two scalars and a predicate carry-in. -/
  | addx (g : Guard) (d : BitVec 6) (a : BitVec 6) (b : BitVec 6) (p : BitVec 3)
  /-- SEXT (R105): Sign-extends from 8, 16 or 32 bits. -/
  | sext (g : Guard) (d : BitVec 6) (a : BitVec 6) (w : BitVec 3)
  /-- ZEXT (R105): Zero-extends from 8, 16 or 32 bits. -/
  | zext (g : Guard) (d : BitVec 6) (a : BitVec 6) (w : BitVec 3)
  /-- ADDI (R108): Adds a signed immediate. -/
  | addi (g : Guard) (d : BitVec 6) (a : BitVec 6) (i : BitVec 9)
  /-- ANDI (R108): ANDs a sign-extended immediate. -/
  | andi (g : Guard) (d : BitVec 6) (a : BitVec 6) (i : BitVec 9)
  /-- ORI (R108): ORs a sign-extended immediate. -/
  | ori (g : Guard) (d : BitVec 6) (a : BitVec 6) (i : BitVec 9)
  /-- XORI (R108): XORs a sign-extended immediate. -/
  | xori (g : Guard) (d : BitVec 6) (a : BitVec 6) (i : BitVec 9)
  /-- SHLI (R108): Shifts left by an immediate. -/
  | shli (g : Guard) (d : BitVec 6) (a : BitVec 6) (i : BitVec 9)
  /-- SHRI (R108): Shifts right logically by an immediate. -/
  | shri (g : Guard) (d : BitVec 6) (a : BitVec 6) (i : BitVec 9)
  /-- SRAI (R108): Shifts right arithmetically by an immediate. -/
  | srai (g : Guard) (d : BitVec 6) (a : BitVec 6) (i : BitVec 9)
  /-- MOVI (R109): Loads a sign-extended 15-bit immediate. -/
  | movi (g : Guard) (d : BitVec 6) (i : BitVec 15)
  /-- LDK (R109): Loads a constant-table entry. -/
  | ldk (g : Guard) (d : BitVec 6) (k : BitVec 15)
  /-- CMP (R110): Compares two scalars into a predicate. -/
  | cmp (g : Guard) (p : BitVec 3) (c : BitVec 3) (a : BitVec 6) (b : BitVec 6)
  /-- CMPI (R110): Compares a scalar with an immediate into a predicate. -/
  | cmpi (g : Guard) (p : BitVec 3) (c : BitVec 3) (a : BitVec 6) (i : BitVec 9)
  /-- PLOG (R111): Combines two predicates. -/
  | plog (g : Guard) (d : BitVec 3) (f : BitVec 3) (a : BitVec 3) (b : BitVec 3)
  /-- MOVC (R112): Reads a control register into a scalar. -/
  | movc (g : Guard) (d : BitVec 6) (c : BitVec 9)
  /-- MOVTC (R112): Writes a scalar to a control register that has no row of its own. -/
  | movtc (g : Guard) (a : BitVec 6) (c : BitVec 9)
  /-- MOVTC_SHAPE (R129): Writes SHAPE after checking rows, cols, format and byte size. -/
  | movtcShape (g : Guard) (a : BitVec 6)
  /-- MOVTC_FFLAGS (R91): Replaces FFLAGS, ORing in bits that become visible in the same cycle. -/
  | movtcFflags (g : Guard) (a : BitVec 6)
  /-- MOVTC_RMODE (R76): Writes RMODE, raising ILLENC for modes 6 and 7. -/
  | movtcRmode (g : Guard) (a : BitVec 6)
  /-- MOVTC_LFSR (R81): Writes LFSR, storing 1 for a zero value. -/
  | movtcLfsr (g : Guard) (a : BitVec 6)
  /-- MOVTC_LC (R117): Writes a loop counter, changing the passes left. -/
  | movtcLc (g : Guard) (a : BitVec 6) (l : BitVec 2)
  /-- MOVTC_GQT (R227): Writes GQT, raising STRUCT 11 when the gather queue is not empty. -/
  | movtcGqt (g : Guard) (a : BitVec 6)
  /-- MOVTC_CERR (R215): Writes only the CERR bits of the issuing context's channels. -/
  | movtcCerr (g : Guard) (a : BitVec 6)
  /-- MOVTC_SNAPBASE (R334): Sets the pre-emption save area, or makes the strand not pre-emptible. -/
  | movtcSnapbase (g : Guard) (a : BitVec 6)
  -- M slots
  /-- LD (R265): Loads a zero-extended scalar. -/
  | ld (g : Guard) (d : BitVec 6) (a : BitVec 6) (c : BitVec 4) (z : BitVec 2) (i : BitVec 3)
  /-- LDS (R265): Loads a sign-extended scalar. -/
  | lds (g : Guard) (d : BitVec 6) (a : BitVec 6) (c : BitVec 4) (z : BitVec 2) (i : BitVec 3)
  /-- ST (R265): Stores a scalar, registering words or writing P words. -/
  | st (g : Guard) (d : BitVec 6) (a : BitVec 6) (c : BitVec 4) (z : BitVec 2) (i : BitVec 3)
  /-- LDA (R280): Acquire load at a scope, invalidating selected V words. -/
  | lda (g : Guard) (d : BitVec 6) (a : BitVec 6) (z : BitVec 2) (s : BitVec 2)
  /-- STREL (R280): Release store after earlier accesses are performed at the scope. -/
  | strel (g : Guard) (d : BitVec 6) (a : BitVec 6) (z : BitVec 2) (s : BitVec 2)
  /-- ATOM (R266): Atomic read-modify-write with the chosen operation. -/
  | atom (g : Guard) (d : BitVec 6) (a : BitVec 6) (b : BitVec 6) (o : BitVec 3)
  /-- ASWAP (R266): Atomic swap. -/
  | aswap (g : Guard) (d : BitVec 6) (a : BitVec 6) (b : BitVec 6)
  /-- ACAS (R266): Atomic compare and swap. -/
  | acas (g : Guard) (d : BitVec 6) (a : BitVec 6) (b : BitVec 6)
  /-- ATOMSC (R281): Sequentially consistent atomic sent at a wheel position. -/
  | atomsc (g : Guard) (d : BitVec 6) (a : BitVec 6) (b : BitVec 6) (o : BitVec 3)
  /-- INVR (R267): Invalidates the V words of chosen regions. -/
  | invr (g : Guard) (m : BitVec 8)
  /-- WBR (R267): Writes back the O and dirty P words of chosen regions. -/
  | wbr (g : Guard) (m : BitVec 8) (s : BitVec 1)
  /-- OWN (R267): Registers every word of chosen regions to this core. -/
  | own (g : Guard) (m : BitVec 8)
  /-- VLD (R204): Loads 1,024 bytes into a vector register. -/
  | vld (g : Guard) (v : BitVec 7) (a : BitVec 6) (d : BitVec 8)
  /-- VST (R204): Stores 1,024 bytes of a vector register. -/
  | vst (g : Guard) (v : BitVec 7) (a : BitVec 6) (d : BitVec 8)
  /-- VLDS (R204): Loads a vector register row by row with a stride. -/
  | vlds (g : Guard) (v : BitVec 7) (a : BitVec 6) (b : BitVec 6)
  /-- VSTS (R204): Stores a vector register row by row with a stride. -/
  | vsts (g : Guard) (v : BitVec 7) (a : BitVec 6) (b : BitVec 6)
  /-- TLD (R217): Starts a tile load from memory on a copy channel. -/
  | tld (g : Guard) (t : BitVec 5) (a : BitVec 6) (c : BitVec 4) (h : BitVec 4) (m : BitVec 2)
  /-- TST (R217): Starts a tile store to memory on a copy channel. -/
  | tst (g : Guard) (t : BitVec 5) (a : BitVec 6) (c : BitVec 4) (h : BitVec 4) (m : BitVec 2)
  /-- TCPY (R206): Starts a copy of one tile footprint into another. -/
  | tcpy (g : Guard) (d : BitVec 5) (s : BitVec 5) (h : BitVec 4)
  /-- TDESC (R205): Loads a tile register from the constant table. -/
  | tdesc (g : Guard) (t : BitVec 5) (k : BitVec 15)
  /-- GPUSH (R228): Queues a gather of one table row. -/
  | gpush (g : Guard) (a : BitVec 6)
  /-- GPOP (R228): Delivers and removes the gathered head row. -/
  | gpop (g : Guard) (v : BitVec 7)
  /-- SPUSH (R228): Queues a scatter of a vector's first row to a table row. -/
  | spush (g : Guard) (v : BitVec 7) (a : BitVec 6)
  /-- CBGET (R209): Gets the next free circular-buffer slot. -/
  | cbget (g : Guard) (d : BitVec 6) (c : BitVec 3)
  /-- CBPUT (R209): Marks a gotten slot filled once earlier pool writes are performed. -/
  | cbput (g : Guard) (c : BitVec 3)
  /-- CBTAKE (R209): Takes the next filled slot. -/
  | cbtake (g : Guard) (d : BitVec 6) (c : BitVec 3)
  /-- CBGIVE (R209): Returns a taken slot to free. -/
  | cbgive (g : Guard) (c : BitVec 3)
  /-- LZRES (R239): Reserves a landing slot at a target and delivers the handle. -/
  | lzres (g : Guard) (d : BitVec 6) (a : BitVec 6) (b : BitVec 6)
  /-- TSTX (R240): Sends a tile into a reserved landing slot. -/
  | tstx (g : Guard) (t : BitVec 5) (a : BitVec 6) (c : BitVec 4) (h : BitVec 4) (m : BitVec 2)
  /-- LZARM (R244): Arms an arrival barrier on a zone for an expected byte count. -/
  | lzarm (g : Guard) (z : BitVec 2) (a : BitVec 6) (x : BitVec 3)
  /-- LZREL (R246): Returns a LANDED slot to FREE. -/
  | lzrel (g : Guard) (a : BitVec 6) (z : BitVec 3)
  /-- LZSTAT (R247): Delivers a landing slot's status word. -/
  | lzstat (g : Guard) (d : BitVec 6) (a : BitVec 6) (z : BitVec 3)
  /-- LZCLEAN (R246): Zero-fills every TORN slot of a zone and frees it. -/
  | lzclean (g : Guard) (z : BitVec 3)
  /-- RDECL (R295): Attaches a recipe record to a tile, or frees its entry. -/
  | rdecl (g : Guard) (a : BitVec 6) (b : BitVec 6)
  /-- RPIN (R294): Pins a recipe tile, regrowing it if ABSENT. -/
  | rpin (g : Guard) (a : BitVec 6)
  /-- RUNPIN (R294): Lowers a recipe tile's pin count. -/
  | runpin (g : Guard) (a : BitVec 6)
  /-- RSEAL (R294): Seals a declared recipe tile after revoking its words. -/
  | rseal (g : Guard) (a : BitVec 6)
  /-- RDROP (R294): Drops an unpinned sealed recipe tile without waiting. -/
  | rdrop (g : Guard) (a : BitVec 6)
  /-- JCPUSH (R321): Pushes a job card to a core or die queue. -/
  | jcpush (g : Guard) (a : BitVec 6)
  /-- JCPOP (R321): Delivers the address of a ready job card. -/
  | jcpop (g : Guard) (d : BitVec 6)
  /-- SNAPST (R352): Stores the scalar part of the snapshot buffer to memory. -/
  | snapst (g : Guard) (a : BitVec 6)
  /-- SNAPLD (R352): Loads a snapshot image into the buffer after fit checks. -/
  | snapld (g : Guard) (a : BitVec 6)
  /-- TLBINV (R308): Drops translations of a page, the ASID, or the ASID on all devices. -/
  | tlbinv (g : Guard) (a : BitVec 6) (b : BitVec 6) (k : BitVec 3)
  /-- PREF (R268): Prefetches a line into the L1 as V, never faulting. -/
  | pref (g : Guard) (a : BitVec 6) (i : BitVec 3)
  -- X slots
  /-- VADD (R132): Element-wise addition. -/
  | vadd (g : Guard) (d : BitVec 7) (a : BitVec 7) (b : BitVec 7)
  /-- VSUB (R132): Element-wise subtraction. -/
  | vsub (g : Guard) (d : BitVec 7) (a : BitVec 7) (b : BitVec 7)
  /-- VMUL (R132): Element-wise multiplication. -/
  | vmul (g : Guard) (d : BitVec 7) (a : BitVec 7) (b : BitVec 7)
  /-- VFMA (R132): Fused multiply-add into the destination. -/
  | vfma (g : Guard) (d : BitVec 7) (a : BitVec 7) (b : BitVec 7)
  /-- VFMS (R132): Fused multiply-subtract from the destination. -/
  | vfms (g : Guard) (d : BitVec 7) (a : BitVec 7) (b : BitVec 7)
  /-- VMIN (R132): Element-wise minimum. -/
  | vmin (g : Guard) (d : BitVec 7) (a : BitVec 7) (b : BitVec 7)
  /-- VMAX (R132): Element-wise maximum. -/
  | vmax (g : Guard) (d : BitVec 7) (a : BitVec 7) (b : BitVec 7)
  /-- VABS (R132): Element-wise absolute value. -/
  | vabs (g : Guard) (d : BitVec 7) (a : BitVec 7)
  /-- VNEG (R132): Element-wise negation. -/
  | vneg (g : Guard) (d : BitVec 7) (a : BitVec 7)
  /-- VAND (R133): Bytewise AND. -/
  | vand (g : Guard) (d : BitVec 7) (a : BitVec 7) (b : BitVec 7)
  /-- VOR (R133): Bytewise OR. -/
  | vor (g : Guard) (d : BitVec 7) (a : BitVec 7) (b : BitVec 7)
  /-- VXOR (R133): Bytewise XOR. -/
  | vxor (g : Guard) (d : BitVec 7) (a : BitVec 7) (b : BitVec 7)
  /-- VSHL (R132): Element-wise left shift. -/
  | vshl (g : Guard) (d : BitVec 7) (a : BitVec 7) (b : BitVec 7)
  /-- VSHR (R132): Element-wise logical right shift. -/
  | vshr (g : Guard) (d : BitVec 7) (a : BitVec 7) (b : BitVec 7)
  /-- VSRA (R132): Element-wise arithmetic right shift. -/
  | vsra (g : Guard) (d : BitVec 7) (a : BitVec 7) (b : BitVec 7)
  /-- VQADD (R132): Saturating element-wise addition. -/
  | vqadd (g : Guard) (d : BitVec 7) (a : BitVec 7) (b : BitVec 7)
  /-- VQSUB (R132): Saturating element-wise subtraction. -/
  | vqsub (g : Guard) (d : BitVec 7) (a : BitVec 7) (b : BitVec 7)
  /-- VMULH (R132): High half of element-wise products. -/
  | vmulh (g : Guard) (d : BitVec 7) (a : BitVec 7) (b : BitVec 7)
  /-- VCEQ (R133): Element-wise equality mask. -/
  | vceq (g : Guard) (d : BitVec 7) (a : BitVec 7) (b : BitVec 7)
  /-- VCLT (R133): Element-wise less-than mask. -/
  | vclt (g : Guard) (d : BitVec 7) (a : BitVec 7) (b : BitVec 7)
  /-- VCLE (R133): Element-wise less-or-equal mask. -/
  | vcle (g : Guard) (d : BitVec 7) (a : BitVec 7) (b : BitVec 7)
  /-- VCLTU (R133): Element-wise unsigned less-than mask. -/
  | vcltu (g : Guard) (d : BitVec 7) (a : BitVec 7) (b : BitVec 7)
  /-- VSEL (R134): Bytewise select under a mask in the destination. -/
  | vsel (g : Guard) (d : BitVec 7) (a : BitVec 7) (b : BitVec 7)
  /-- VMOV (R134): Copies the shape's bytes. -/
  | vmov (g : Guard) (d : BitVec 7) (a : BitVec 7)
  /-- VBC (R134): Broadcasts a scalar into every element. -/
  | vbc (g : Guard) (d : BitVec 7) (a : BitVec 6)
  /-- VIOTA (R134): Sets each element to its index. -/
  | viota (g : Guard) (d : BitVec 7)
  /-- VROWSH (R135): Shifts rows by a signed amount, filling zero. -/
  | vrowsh (g : Guard) (d : BitVec 7) (a : BitVec 7) (i : BitVec 7)
  /-- VCOLSH (R135): Shifts columns by a signed amount, filling zero. -/
  | vcolsh (g : Guard) (d : BitVec 7) (a : BitVec 7) (i : BitVec 7)
  /-- VESH (R135): Shifts elements in linear order, filling zero. -/
  | vesh (g : Guard) (d : BitVec 7) (a : BitVec 7) (i : BitVec 7)
  /-- VROT (R135): Rotates rows by a signed amount. -/
  | vrot (g : Guard) (d : BitVec 7) (a : BitVec 7) (i : BitVec 7)
  /-- VTRN (R136): Transposes a register. -/
  | vtrn (g : Guard) (d : BitVec 7) (a : BitVec 7)
  /-- VCVT (R137): Converts elements to a target format. -/
  | vcvt (g : Guard) (d : BitVec 7) (a : BitVec 7) (o : BitVec 1) (f : BitVec 6)
  /-- VPACK3 (R138): Packs INT8 values into ternary bytes. -/
  | vpack3 (g : Guard) (d : BitVec 7) (a : BitVec 7)
  /-- VUNP3 (R138): Unpacks ternary bytes to INT8. -/
  | vunp3 (g : Guard) (d : BitVec 7) (a : BitVec 7)
  /-- VCMPR (R139): Compresses each row under the 2:4 rule with metadata. -/
  | vcmpr (g : Guard) (d : BitVec 7) (a : BitVec 7)
  /-- VSCL (R140): Applies E8M0 block scales. -/
  | vscl (g : Guard) (d : BitVec 7) (a : BitVec 7) (b : BitVec 7)
  /-- VGET (R141): Moves one element to a scalar. -/
  | vget (g : Guard) (d : BitVec 6) (a : BitVec 7) (e : BitVec 8)
  /-- VPUT (R141): Replaces one element with a scalar's low bits. -/
  | vput (g : Guard) (d : BitVec 7) (a : BitVec 6) (e : BitVec 8)
  -- F slot
  /-- FEXP2 (R143): Computes 2^x per element. -/
  | fexp2 (g : Guard) (d : BitVec 7) (a : BitVec 7)
  /-- FLOG2 (R143): Computes log2 per element. -/
  | flog2 (g : Guard) (d : BitVec 7) (a : BitVec 7)
  /-- FRECIP (R143): Computes 1/x per element. -/
  | frecip (g : Guard) (d : BitVec 7) (a : BitVec 7)
  /-- FRSQRT (R143): Computes 1/sqrt(x) per element. -/
  | frsqrt (g : Guard) (d : BitVec 7) (a : BitVec 7)
  /-- FSQRT (R143): Computes sqrt(x) per element. -/
  | fsqrt (g : Guard) (d : BitVec 7) (a : BitVec 7)
  /-- FTANH (R143): Computes tanh per element. -/
  | ftanh (g : Guard) (d : BitVec 7) (a : BitVec 7)
  /-- FSIGM (R143): Computes the logistic sigmoid per element. -/
  | fsigm (g : Guard) (d : BitVec 7) (a : BitVec 7)
  /-- FSIN (R143): Computes sine per element. -/
  | fsin (g : Guard) (d : BitVec 7) (a : BitVec 7)
  /-- FCOS (R143): Computes cosine per element. -/
  | fcos (g : Guard) (d : BitVec 7) (a : BitVec 7)
  /-- FDIV (R143): Divides elements correctly rounded. -/
  | fdiv (g : Guard) (d : BitVec 7) (a : BitVec 7) (b : BitVec 7)
  -- Q slot
  /-- QADD (R145): Tree-sums groups of a vector into a latch. -/
  | qadd (g : Guard) (q : BitVec 2) (a : BitVec 7) (x : BitVec 2)
  /-- QMAX (R145): Tree-maximum of groups into a latch. -/
  | qmax (g : Guard) (q : BitVec 2) (a : BitVec 7) (x : BitVec 2)
  /-- QMIN (R145): Tree-minimum of groups into a latch. -/
  | qmin (g : Guard) (q : BitVec 2) (a : BitVec 7) (x : BitVec 2)
  /-- QSCAN (R146): Writes inclusive prefix sums into a latch. -/
  | qscan (g : Guard) (q : BitVec 2) (a : BitVec 7) (x : BitVec 2)
  /-- QMOV (R147): Drains a latch into a vector register. -/
  | qmov (g : Guard) (d : BitVec 7) (q : BitVec 2)
  /-- QCLR (R147): Empties a latch. -/
  | qclr (g : Guard) (q : BitVec 2)
  -- P slot
  /-- PACQ (R166): Acquires the plane, zeroing it. -/
  | pacq (g : Guard) (c : BitVec 1)
  /-- PWIN (R168): Sets the geometry register. -/
  | pwin (g : Guard) (a : BitVec 6)
  /-- PFSET (R169): Loads a feed register's position and increment program. -/
  | pfset (g : Guard) (f : BitVec 3) (a : BitVec 6) (b : BitVec 6)
  /-- PSTEP (R170): Performs one dense plane step: shift, multiply, feed advance. -/
  | pstep (g : Guard) (a : BitVec 5) (b : BitVec 5) (x : BitVec 3) (y : BitVec 3) (s : BitVec 4) (l : BitVec 1)
  /-- PSTEPS (R170): Performs one 2:4 sparse plane step. -/
  | psteps (g : Guard) (a : BitVec 5) (b : BitVec 5) (x : BitVec 3) (y : BitVec 3) (s : BitVec 4) (l : BitVec 1)
  /-- PSHIFT (R171): Applies a shift code with no multiply. -/
  | pshift (g : Guard) (s : BitVec 4)
  /-- PLOAD (R167): Acquires the plane and loads it from an accumulator tile. -/
  | pload (g : Guard) (t : BitVec 5) (h : BitVec 1) (c : BitVec 1)
  /-- PRET (R172): Retires the plane into a tile and releases it. -/
  | pret (g : Guard) (t : BitVec 5) (h : BitVec 1) (a : BitVec 6) (o : BitVec 1)
  /-- PREL (R173): Releases the plane and discards its contents. -/
  | prel (g : Guard)
  /-- HSEND (R190): Sends a husk strip toward a neighbour and zeroes it. -/
  | hsend (g : Guard) (d : BitVec 2)
  /-- HADD (R191): Adds the inbound husk strip from a direction. -/
  | hadd (g : Guard) (d : BitVec 2)
  /-- HCLR (R192): Clears and completes one or more husk directions. -/
  | hclr (g : Guard) (d : BitVec 4)
  /-- NLSEND (R193): Streams a tile over a neighbour link. -/
  | nlsend (g : Guard) (t : BitVec 5) (d : BitVec 2)
  /-- NLRECV (R193): Receives a streamed tile from a neighbour link. -/
  | nlrecv (g : Guard) (t : BitVec 5) (d : BitVec 2)
  -- what the device itself puts on its way
  /-- PACKET_FILL (R61): A packet-cache fill completes and the waiting context becomes ready. -/
  | packetFill (f : Machine.Fill)
  /-- SEQUENTIAL_PREFETCH (R61): The core fetches sequential packets ahead of issue, dropping faulting ones. -/
  | sequentialPrefetch (core va : Nat)
  /-- REMOTE_OPERAND_REQUEST (R162): An owner core serves a pod-mate's operand read, combining multicast. -/
  | remoteOperandRequest (owner lo hi block : Nat)
  /-- TILE_WRITE_COMPLETE (R172): PRET's tile write completes, ORing flags and clearing busy and poison. -/
  | tileWriteComplete (core retire : Nat)
  /-- HUSK_STRIP_TRANSFER (R183): A strip moves from an outbound buffer once the inbound buffer is empty. -/
  | huskStripTransfer (core : Nat) (dir : Machine.Dir)
  /-- NL_STREAM_TRANSFER (R193): Stream chunks of a tile cross a link into the receiver's buffer. -/
  | nlStreamTransfer (core : Nat) (dir : Machine.Dir)
  /-- TRANSFER_COMPLETE (R214): A channel transfer ends, advancing CDONE and recording any error. -/
  | transferComplete (x : Machine.XferId)
  /-- APERTURE_STORE (R220): A store to the block-transfer aperture starts a bulk copy on a channel. -/
  | apertureStore (x : Machine.XferId)
  /-- COPY_COMPLETE (R223): A bulk copy finishes and makes its completion write. -/
  | copyComplete (x : Machine.XferId)
  /-- GATHER_ROW_ARRIVE (R227): A gathered row enters the data queue, or faults at its head. -/
  | gatherRowArrive (who : Machine.Who)
  /-- HELD_STORE_PERFORM (R219): A store waiting in the M unit proceeds once what it follows is performed. -/
  | heldStorePerform (who : Machine.Who)
  /-- REG (R253): The home takes a registration request and grants or revokes. -/
  | reg (m : Machine.RegMsg)
  /-- GRANT (R253): A requester receives a grant and marks the word O. -/
  | grant (m : Machine.GrantMsg)
  /-- REVOKE (R258): An owner applies or holds a revoke and forwards its data. -/
  | revoke (m : Machine.RevokeMsg)
  /-- FDATA (R253): A new owner receives forwarded data and merges its bytes. -/
  | fdata (m : Machine.FdataMsg)
  /-- READ (R255): The home serves a read miss or forwards it to the owner. -/
  | read (m : Machine.ReadMsg)
  /-- FWD (R255): An owner receives a forwarded read and replies DATA or RETRY. -/
  | fwd (m : Machine.FwdMsg)
  /-- DATA (R255): A reader installs a V word from a reply. -/
  | data (m : Machine.DataMsg)
  /-- WB (R256): The home applies or discards a write-back and deregisters. -/
  | wb (m : Machine.WbMsg)
  /-- RETRY (R258): The home serves a read again after an owner's RETRY. -/
  | retry (m : Machine.ReadMsg)
  /-- GONE (R259): The home keeps a revoked tag pending until the matching WB. -/
  | gone (m : Machine.GoneMsg)
  /-- LOST_REPLY (R260): A requester receives LOST and drops its bytes or faults. -/
  | lostReply (m : Machine.LostMsg)
  /-- BYPASS_WRITE (R257): A write bypassing the L1 is applied at the home. -/
  | bypassWrite (m : Machine.BypassMsg)
  /-- ATOMIC_AT_HOME (R266): An atomic is applied at the home after any revoke. -/
  | atomicAtHome (m : Machine.AtomicMsg)
  /-- UNPRIV (R261): A private-page owner writes back and demotes its P words. -/
  | unpriv (page owner : Nat)
  /-- UNPRIV_ACK (R261): The page is reclassified shared and its translations invalidated. -/
  | unprivAck (page owner : Nat)
  /-- HOT_LINE_REPLICATE (R263): A home pushes read-only replicas of a hot line to helpers. -/
  | hotLineReplicate (line : Nat)
  /-- ATOMSC_SEND (R277): At the claimed wheel position the core sends its ATOMSC ops. -/
  | atomscSend (who : Machine.Who)
  /-- ATOMSC_ARRIVE (R278): A home receives an ATOMSC op and starts any revoke. -/
  | atomscArrive (op : Machine.ScOp)
  /-- ATOMSC_APPLY (R278): A home applies an ATOMSC op at cycle c + 256 in key order. -/
  | atomscApply (op : Machine.ScOp)
  /-- ATOMSC_REPLY (R277): ATOMSC values return and the blocked bundle issues. -/
  | atomscReply (op : Machine.ScOp) (old : Dword)
  /-- WALK_COMPLETE (R304): A page walk ends, installing a leaf, starting a hold or faulting. -/
  | walkComplete (w : Machine.Walk)
  /-- REGROW_REQUEST (R289): An access to an ABSENT tile requests a regrow at a depth. -/
  | regrowRequest (q : Machine.RegrowReq)
  /-- SLICE_START (R289): A slice starts in ctx3 of a class-n core once its sources are present. -/
  | sliceStart (tile : Nat)
  /-- LZRES_MSG (R238): A target grants, queues or refuses a landing reservation. -/
  | lzresMsg (m : Machine.LzReq)
  /-- LZANS (R239): A sender receives a reservation answer and LZRES completes. -/
  | lzans (m : Machine.LzAns)
  /-- LZPKT (R236): A landing packet is written whole into a slot or dropped. -/
  | lzpkt (m : Machine.LzPkt)
  /-- LZACK (R376): A sender receives the count of packets landed. -/
  | lzack (m : Machine.LzAck)
  /-- LZABORT (R235): A target tears the aborted reservation's slot with cause 2. -/
  | lzabort (m : Machine.LzAbort)
  /-- WINDOW_STORE (R309): A store to a launch window is written, discarded or refused. -/
  | windowStore (queue : Nat) (m : Machine.ApStore)
  /-- LAUNCH_SEAL (R310): The line monitor accepts or refuses a sealed launch record. -/
  | launchSeal (queue : Nat)
  /-- LAUNCH_COMPLETE (R314): Once every strand has ended and its transfers are performed, the completion record is written. -/
  | launchComplete (launch : Nat)
  /-- JOB_CARD_READY (R321): A job card's operands land and the card becomes ready. -/
  | jobCardReady (card : Nat)
  /-- JOB_CARD_STEAL (R321): A card waiting past the ageing interval may be stolen. -/
  | jobCardSteal (core card : Nat)
  /-- PREEMPT_GRANT (R346): At an eligible boundary the context is saved and freed. -/
  | preemptGrant (who : Machine.Who)
  /-- STRAND_RESTORE (R346): The dispatcher restores a pre-empted strand into a free context. -/
  | strandRestore (who : Machine.Who) (saved : Nat)
  /-- ERROR_FREEZE (R362): An uncorrectable error in shared state freezes every context of the affected ASIDs. -/
  | errorFreeze (asids : List Nat)
  /-- BIAS_FLIP_END (R371): A bias flip's steps are acknowledged and waiting requests proceed. -/
  | biasFlipEnd (page : Nat)
  /-- UNBIND_QUEUE_DONE (R384): Unbinding completes once no launch of the queue is bound. -/
  | unbindQueueDone (c : Machine.Cmd)
  /-- SLOT_ZERO_FILL_COMPLETE (R246): The zero-fill of a TORN landing slot finishes through the pool port, the slot becomes FREE, and queued reservations are granted. -/
  | slotZeroFillComplete (core zone slot : Nat)
  /-- SNAPFIT_QUERY (R352): A source core receives SNAPLD's query over the dynamic plane and answers whether it still holds zones, buffers, husk or transfers of the context. -/
  | snapfitQuery (m : Machine.FitQuery)
  /-- MAILBOX_STORE (R383): A write to a management mailbox slot is written, discarded in a sealed slot, or refused as a seal with the wrong sequence number. -/
  | mailboxStore (m : Machine.ApStore)
  /-- CORE_HARDWARE_STOP (R260): A core stops on a hardware error and its registrations become LOST. -/
  | coreHardwareStop (core : Nat)
  /-- RESERVED_ENCODING (R60): A slot op whose op7 or field values are reserved raises slot-level ILLENC at issue. -/
  | reservedEncoding (w : Word)
  -- timers, commands and what comes from outside
  /-- QUANTUM_EXPIRE (R99): A context's run reaches 1,024 c with an equal or higher context ready. -/
  | quantumExpire (core : Nat)
  /-- LINK_DOWN (R189): A link that exhausts its retries goes down, discarding traffic in flight. -/
  | linkDown (link : Machine.LinkId)
  /-- LZ_SLOT_TIMEOUT (R235): A reserved slot with no packet for 125,000 c tears. -/
  | lzSlotTimeout (core zone slot : Nat)
  /-- LZRES_QUEUE_TIMEOUT (R238): A reservation queued for 125,000 c is answered BUSY. -/
  | lzresQueueTimeout (core tag : Nat)
  /-- LZRES_ANSWER_TIMEOUT (R238): An LZRES unanswered for 250,000 c completes with NOROUTE. -/
  | lzresAnswerTimeout (tag : Nat)
  /-- LZPKT_RESEND_TIMEOUT (R376): Over Ethernet, packets are resent after 12,500 c without progress. -/
  | lzpktResendTimeout (x : Machine.XferId)
  /-- LZRES_RESEND_TIMEOUT (R376): Over Ethernet, an LZRES unanswered for 12,500 c is resent. -/
  | lzresResendTimeout (tag : Nat)
  /-- RD (R376): A home serves a native read from another device. -/
  | rd (m : Machine.NatMsg)
  /-- RDRSP (R408): A requester receives a native read response and delivers or faults. -/
  | rdrsp (m : Machine.NatMsg)
  /-- WR (R376): A home applies a native write as a bypassing write. -/
  | wr (m : Machine.NatMsg)
  /-- WRACK (R408): A requester receives a native write acknowledgement or failure. -/
  | wrack (m : Machine.NatMsg)
  /-- ATOM_MSG (R376): A home applies a native atomic. -/
  | atomMsg (m : Machine.NatMsg)
  /-- ATOMRSP (R408): A requester receives a native atomic's old value or status. -/
  | atomrsp (m : Machine.NatMsg)
  /-- TLBINV_MSG (R376): A device performs kind-2 TLBINV for the ASID. -/
  | tlbinvMsg (m : Machine.NatMsg)
  /-- TLBACK (R308): An issuing device receives a TLBINV acknowledgement. -/
  | tlback (m : Machine.NatMsg)
  /-- NATIVE_REQUEST_TIMEOUT (R376): An RD, WR or ATOM unanswered for 125,000 c completes with status 3. -/
  | nativeRequestTimeout (tag : Nat)
  /-- UNLISTED_MESSAGE (R376): A message of an unlisted kind or malformed answer is dropped and recorded. -/
  | unlistedMessage (m : Machine.NatMsg)
  /-- HOST_READ (R369): A host read is served under the page's bias. -/
  | hostRead (m : Machine.HostReq)
  /-- HOST_WRITE (R369): A host write is applied under the page's bias. -/
  | hostWrite (m : Machine.HostReq)
  /-- HOST_SNOOP (R372): The bridge answers a host snoop from its copy of a host line. -/
  | hostSnoop (half : Nat) (take : Bool)
  /-- BISNP_RESPONSE (R370): A host answers a back-invalidate and the bridge serves as owner. -/
  | bisnpResponse (half : Nat) (dirty : Option (List Byte))
  /-- HOST_SNOOP_TIMEOUT (R370): A host silent for 125,000 c leaves the half's words LOST. -/
  | hostSnoopTimeout (half : Nat)
  /-- SPDM_REQUEST (R378): The device answers an SPDM request with SM2 and SM3. -/
  | spdmRequest (port alg index : Nat)
  /-- BIND_RECORD (R315): The dispatch hardware binds strands to contexts as a bind record says. -/
  | bindRecord (recs : List Machine.BindRec)
  /-- CLASSIFIER_WINDOW_END (R315): The classifier's 65,536 c count of plane steps per byte ends. -/
  | classifierWindowEnd (core : Nat)
  /-- FRAME_TICK_ADVANCE (R324): At a tick boundary the partition's frame tick advances unless held. -/
  | frameTickAdvance (part : Nat)
  /-- RELEASE_TICK (R326): A timetabled group becomes ready at its release tick. -/
  | releaseTick (launch group : Nat)
  /-- DEADLINE_SLIP (R326): A group not tripped at its deadline holds the frame and records a slip. -/
  | deadlineSlip (launch group : Nat)
  /-- SLIP_END (R326): The held frame resumes at the tick after the last late group trips. -/
  | slipEnd (part : Nat)
  /-- POWER_SAMPLE (R380): The management core samples package power each tick. -/
  | powerSample (p : Machine.Sample)
  /-- POWER_STALL_END (R327): A power stall's ticks elapse and issue resumes. -/
  | powerStallEnd
  /-- PREEMPT_REQUEST (R345): The management core asks to pre-empt a context. -/
  | preemptRequest (who : Machine.Who)
  /-- PLL_LOSS_OF_LOCK (R381): A die's loop loses lock and the die stops. -/
  | pllLossOfLock (die : Nat)
  /-- POWER_ON (R382): Applied power brings the package up in its stated order. -/
  | powerOn (p : Machine.PowerUp)
  /-- I3C_READ_BLACK_BOX (R385): The board controller reads out and unfreezes the black box. -/
  | i3cReadBlackBox (die : Nat)
  /-- I3C_READ_POWER_SAMPLES (R385): The board controller reads power samples. -/
  | i3cReadPowerSamples
  /-- I3C_READ_BRINGUP_STATUS (R385): The board controller reads bring-up status. -/
  | i3cReadBringupStatus
  /-- I3C_WRITE_POWER_CAP (R385): The board controller writes the 7940-D power cap. -/
  | i3cWritePowerCap (watts : Nat)
  /-- CREATE_ASID (R384): Mailbox command 0x01 binds an ASID with its page-table root. -/
  | createAsid (c : Machine.Cmd)
  /-- BIND_QUEUE (R384): Mailbox command 0x02 binds a queue to an ASID and priority. -/
  | bindQueue (c : Machine.Cmd)
  /-- UNBIND_QUEUE (R384): Mailbox command 0x03 stops a queue accepting records. -/
  | unbindQueue (c : Machine.Cmd)
  /-- MAP_ACCESS_GROUP (R384): Mailbox command 0x04 writes one group-map entry of a target. -/
  | mapAccessGroup (c : Machine.Cmd)
  /-- SET_REGION (R384): Mailbox command 0x05 writes one region of a target. -/
  | setRegion (c : Machine.Cmd)
  /-- SET_RIGHTS (R384): Mailbox command 0x06 replaces a group's rights at a target. -/
  | setRights (c : Machine.Cmd)
  /-- DEFINE_PARTITION (R384): Mailbox command 0x07 forms a timing partition. -/
  | definePartition (c : Machine.Cmd)
  /-- SET_PROTECTION (R384): Mailbox command 0x08 sets twin mode on pods. -/
  | setProtection (c : Machine.Cmd)
  /-- DEFINE_RESERVATION_CLASS (R384): Mailbox command 0x09 defines a bandwidth reservation class. -/
  | defineReservationClass (c : Machine.Cmd)
  /-- DEFINE_HOST_RANGE (R384): Mailbox command 0x0A defines a host-visible range. -/
  | defineHostRange (c : Machine.Cmd)
  /-- FLIP_BIAS (R371): Mailbox command 0x0B starts a bias flip of a page. -/
  | flipBias (c : Machine.Cmd)
  /-- TEAR_DOWN (R363): Mailbox command 0x0C tears down an ASID on this device. -/
  | tearDown (c : Machine.Cmd)
  /-- SCRUB_PAGE (R364): Mailbox command 0x0D scrubs a quarantined page. -/
  | scrubPage (c : Machine.Cmd) (readBackOk : Bool)
  /-- RESTORE_LINK (R364): Mailbox command 0x0E retrains and restores a down link. -/
  | restoreLink (c : Machine.Cmd) (trained : Bool)
  /-- UPDATE_FIRMWARE (R384): Mailbox command 0x0F verifies and installs a firmware image. -/
  | updateFirmware (c : Machine.Cmd) (verified : Bool)
  /-- SET_NODE (R375): Mailbox command 0x10 sets NODE and the native EtherType. -/
  | setNode (c : Machine.Cmd)
  /-- WRITE_ROUTE_ENTRY (R375): Mailbox command 0x11 writes one route-table entry. -/
  | writeRouteEntry (c : Machine.Cmd)
  /-- QUEUE_STATUS (R384): Mailbox command 0x12 returns a queue's E, k and completion faults. -/
  | queueStatus (c : Machine.Cmd)
  /-- UNKNOWN_COMMAND (R383): A command code the firmware does not know is refused with reason 1. -/
  | unknownCommand (c : Machine.Cmd)
  /-- EMPTY_BUNDLE (R42): A bundle with slot mask zero issues in one context-cycle with no effect, and may end a loop pass. -/
  | emptyBundle
  /-- CXL_CACHE_RESPONSE (R372): A host answers the bridge's CXL.cache request and the host line arrives, owned or shared, at the bridge's home. -/
  | cxlCacheResponse (line : Nat) (owned : Bool) (bytes : List Byte)
  /-- POWER_LOSS (R386): The package loses its supply, and everything in it stops and loses its state. -/
  | powerLoss
  deriving DecidableEq, Repr, Inhabited

end Sys2Proof
end

