-- ==== Sys2Proof/WellFormed.lean ====
section
/-! DEFINITION. Which instructions are well formed: every used field holds a value its format admits
(R49 to R58). The steps without a word carry no encoded field. -/

namespace Sys2Proof

/-- A vector operand code that a destination may hold: v0 to v63, o0 to o7 (R50). -/
def vdst (c : BitVec 7) : Bool := decide (c.toNat < 72)

/-- A vector operand code that a source may hold: also lv0 to lv2 and the all-zero register (R50). -/
def vsrc (c : BitVec 7) : Bool := decide (c.toNat < 76)

/-- A format code that is not reserved (R68). -/
def fmtAssigned (f : BitVec 6) : Bool :=
  decide (f.toNat < 0x0B) ||
    (decide (0x10 ≤ f.toNat) && decide (f.toNat < 0x30) && decide (f.toNat % 8 ≠ 7))

/-- A format code that VCVT and a converting copy admit as a target: any but TERN (R137). -/
def fmtConv (f : BitVec 6) : Bool := fmtAssigned f && decide (f ≠ 0x07#6)

/-- A control-register number that some chapter assigns (R50, and R103, R129, R152, R186, R208, R215,
R196, R249, R262, R283, R293, R307, R317, R323, R334, R365). -/
def cregAssigned (c : BitVec 9) : Bool :=
  let n := c.toNat
  let within (lo hi : Nat) : Bool := decide (lo ≤ n) && decide (n ≤ hi)
  within 0x000 0x006 || within 0x008 0x014 || within 0x018 0x018 || within 0x040 0x045 ||
  within 0x080 0x085 || within 0x088 0x091 || within 0x0C0 0x0E4 || within 0x0E8 0x0F2 ||
  within 0x100 0x10B || within 0x110 0x117 || within 0x140 0x141 || within 0x148 0x157 ||
  within 0x160 0x160 || within 0x180 0x183 || within 0x1A0 0x1A2 || within 0x1C0 0x1C5 ||
  within 0x1C8 0x1CA || within 0x1E0 0x1E4 || within 0x1F0 0x1F2

/-- The control registers whose MOVTC is a row of its own in the opcode table. -/
def cregNamed (c : BitVec 9) : Bool :=
  let n := c.toNat
  decide (0x040 ≤ n ∧ n ≤ 0x043) || decide (0x010 ≤ n ∧ n ≤ 0x013) ||
  decide (n = 0x0E0) || decide (n = 0x0E3) || decide (n = 0x1E3)

/-- Every used field of the instruction holds a value that its format and its row admit. -/
def Instr.wf : Instr → Bool
  | .br _ _ => true
  | .bri _ _ => true
  | .call _ _ => true
  | .calli _ _ => true
  | .ret _ => true
  | .loop _ _ _ o => decide (o ≠ 0#13)
  | .loopi _ _ c o => decide (c ≠ 0#10) && decide (o ≠ 0#9)
  | .endStrand _ => true
  | .yield _ => true
  | .waitid _ _ _ => true
  | .waitt _ _ => true
  | .bar _ _ => true
  | .rdv _ _ => true
  | .fence _ _ _ => true
  | .lzwait _ _ _ => true
  | .spawn _ _ => true
  | .trap _ _ => true
  | .tret _ => true
  | .snaprel _ => true
  | .holdret _ => true
  | .rdone _ => true
  | .add _ _ _ _ => true
  | .sub _ _ _ _ => true
  | .and _ _ _ _ => true
  | .or _ _ _ _ => true
  | .xor _ _ _ _ => true
  | .andn _ _ _ _ => true
  | .shl _ _ _ _ => true
  | .shr _ _ _ _ => true
  | .sra _ _ _ _ => true
  | .min _ _ _ _ => true
  | .max _ _ _ _ => true
  | .minu _ _ _ _ => true
  | .maxu _ _ _ _ => true
  | .mul _ _ _ _ => true
  | .mulh _ _ _ _ => true
  | .mulhu _ _ _ _ => true
  | .mad _ _ _ _ => true
  | .div _ _ _ _ => true
  | .divu _ _ _ _ => true
  | .rem _ _ _ _ => true
  | .remu _ _ _ _ => true
  | .clz _ _ _ => true
  | .popc _ _ _ => true
  | .bfx _ _ _ _ => true
  | .bfi _ _ _ _ => true
  | .sel _ _ _ _ _ => true
  | .addx _ _ _ _ _ => true
  | .sext _ _ _ w => decide (w.toNat < 3)
  | .zext _ _ _ w => decide (w.toNat < 3)
  | .addi _ _ _ _ => true
  | .andi _ _ _ _ => true
  | .ori _ _ _ _ => true
  | .xori _ _ _ _ => true
  | .shli _ _ _ i => decide (i.toNat < 64)
  | .shri _ _ _ i => decide (i.toNat < 64)
  | .srai _ _ _ i => decide (i.toNat < 64)
  | .movi _ _ _ => true
  | .ldk _ _ _ => true
  | .cmp _ _ _ _ _ => true
  | .cmpi _ _ _ _ _ => true
  | .plog _ _ f _ b => decide (f.toNat < 6) && (decide (f ≠ 5#3) || decide (b = 0#3))
  | .movc _ _ c => cregAssigned c
  | .movtc _ _ c => cregAssigned c && !cregNamed c
  | .movtcShape _ _ => true
  | .movtcFflags _ _ => true
  | .movtcRmode _ _ => true
  | .movtcLfsr _ _ => true
  | .movtcLc _ _ _ => true
  | .movtcGqt _ _ => true
  | .movtcCerr _ _ => true
  | .movtcSnapbase _ _ => true
  | .ld _ _ _ _ _ _ => true
  | .lds _ _ _ _ z _ => decide (z ≠ 3#2)
  | .st _ _ _ _ _ _ => true
  | .lda _ _ _ _ _ => true
  | .strel _ _ _ _ _ => true
  | .atom _ _ _ _ _ => true
  | .aswap _ _ _ _ => true
  | .acas _ _ _ _ => true
  | .atomsc _ _ _ b o => decide (o ≠ 7#3) || decide (b = 0#6)
  | .invr _ _ => true
  | .wbr _ _ _ => true
  | .own _ m => decide (m ≠ 0#8)
  | .vld _ v _ _ => vdst v
  | .vst _ v _ _ => vdst v
  | .vlds _ v _ _ => vdst v
  | .vsts _ v _ _ => vdst v
  | .tld _ _ _ _ _ _ => true
  | .tst _ _ _ _ _ _ => true
  | .tcpy _ _ _ _ => true
  | .tdesc _ _ _ => true
  | .gpush _ _ => true
  | .gpop _ v => vdst v
  | .spush _ v _ => vdst v
  | .cbget _ _ _ => true
  | .cbput _ _ => true
  | .cbtake _ _ _ => true
  | .cbgive _ _ => true
  | .lzres _ _ _ _ => true
  | .tstx _ _ _ _ _ _ => true
  | .lzarm _ _ _ _ => true
  | .lzrel _ _ z => decide (z.toNat < 4)
  | .lzstat _ _ _ z => decide (z.toNat < 4)
  | .lzclean _ z => decide (z.toNat < 4)
  | .rdecl _ _ _ => true
  | .rpin _ _ => true
  | .runpin _ _ => true
  | .rseal _ _ => true
  | .rdrop _ _ => true
  | .jcpush _ _ => true
  | .jcpop _ _ => true
  | .snapst _ _ => true
  | .snapld _ _ => true
  | .tlbinv _ a _ k => decide (k.toNat < 3) && (decide (k = 0#3) || decide (a = 0#6))
  | .pref _ _ _ => true
  | .vadd _ d a b => vdst d && vsrc a && vsrc b
  | .vsub _ d a b => vdst d && vsrc a && vsrc b
  | .vmul _ d a b => vdst d && vsrc a && vsrc b
  | .vfma _ d a b => vdst d && vsrc a && vsrc b
  | .vfms _ d a b => vdst d && vsrc a && vsrc b
  | .vmin _ d a b => vdst d && vsrc a && vsrc b
  | .vmax _ d a b => vdst d && vsrc a && vsrc b
  | .vabs _ d a => vdst d && vsrc a
  | .vneg _ d a => vdst d && vsrc a
  | .vand _ d a b => vdst d && vsrc a && vsrc b
  | .vor _ d a b => vdst d && vsrc a && vsrc b
  | .vxor _ d a b => vdst d && vsrc a && vsrc b
  | .vshl _ d a b => vdst d && vsrc a && vsrc b
  | .vshr _ d a b => vdst d && vsrc a && vsrc b
  | .vsra _ d a b => vdst d && vsrc a && vsrc b
  | .vqadd _ d a b => vdst d && vsrc a && vsrc b
  | .vqsub _ d a b => vdst d && vsrc a && vsrc b
  | .vmulh _ d a b => vdst d && vsrc a && vsrc b
  | .vceq _ d a b => vdst d && vsrc a && vsrc b
  | .vclt _ d a b => vdst d && vsrc a && vsrc b
  | .vcle _ d a b => vdst d && vsrc a && vsrc b
  | .vcltu _ d a b => vdst d && vsrc a && vsrc b
  | .vsel _ d a b => vdst d && vsrc a && vsrc b
  | .vmov _ d a => vdst d && vsrc a
  | .vbc _ d _ => vdst d
  | .viota _ d => vdst d
  | .vrowsh _ d a _ => vdst d && vsrc a
  | .vcolsh _ d a _ => vdst d && vsrc a
  | .vesh _ d a _ => vdst d && vsrc a
  | .vrot _ d a _ => vdst d && vsrc a
  | .vtrn _ d a => vdst d && vsrc a
  | .vcvt _ d a _ f => vdst d && vsrc a && fmtConv f
  | .vpack3 _ d a => vdst d && vsrc a
  | .vunp3 _ d a => vdst d && vsrc a
  | .vcmpr _ d a => vdst d && vsrc a
  | .vscl _ d a b => vdst d && vsrc a && vsrc b
  | .vget _ _ a _ => vsrc a
  | .vput _ d _ _ => vdst d
  | .fexp2 _ d a => vdst d && vsrc a
  | .flog2 _ d a => vdst d && vsrc a
  | .frecip _ d a => vdst d && vsrc a
  | .frsqrt _ d a => vdst d && vsrc a
  | .fsqrt _ d a => vdst d && vsrc a
  | .ftanh _ d a => vdst d && vsrc a
  | .fsigm _ d a => vdst d && vsrc a
  | .fsin _ d a => vdst d && vsrc a
  | .fcos _ d a => vdst d && vsrc a
  | .fdiv _ d a b => vdst d && vsrc a && vsrc b
  | .qadd _ _ a x => vsrc a && decide (x ≠ 3#2)
  | .qmax _ _ a x => vsrc a && decide (x ≠ 3#2)
  | .qmin _ _ a x => vsrc a && decide (x ≠ 3#2)
  | .qscan _ _ a x => vsrc a && decide (x ≠ 3#2)
  | .qmov _ d _ => vdst d
  | .qclr _ _ => true
  | .pacq _ _ => true
  | .pwin _ _ => true
  | .pfset _ _ _ _ => true
  | .pstep _ _ _ _ _ s _ => decide (s.toNat < 11)
  | .psteps _ _ _ _ _ s _ => decide (s.toNat < 11)
  | .pshift _ s => decide (s.toNat < 11)
  | .pload _ _ _ _ => true
  | .pret _ _ _ _ _ => true
  | .prel _ => true
  | .hsend _ _ => true
  | .hadd _ _ => true
  | .hclr _ d => decide (d ≠ 0#4)
  | .nlsend _ _ _ => true
  | .nlrecv _ _ _ => true
  | .quantumExpire _ => true
  | .packetFill _ => true
  | .sequentialPrefetch _ _ => true
  | .remoteOperandRequest _ _ _ _ => true
  | .tileWriteComplete _ _ => true
  | .huskStripTransfer _ _ => true
  | .nlStreamTransfer _ _ => true
  | .linkDown _ => true
  | .transferComplete _ => true
  | .apertureStore _ => true
  | .copyComplete _ => true
  | .gatherRowArrive _ => true
  | .heldStorePerform _ => true
  | .reg _ => true
  | .grant _ => true
  | .revoke _ => true
  | .fdata _ => true
  | .read _ => true
  | .fwd _ => true
  | .data _ => true
  | .wb _ => true
  | .retry _ => true
  | .gone _ => true
  | .lostReply _ => true
  | .bypassWrite _ => true
  | .atomicAtHome _ => true
  | .unpriv _ _ => true
  | .unprivAck _ _ => true
  | .hotLineReplicate _ => true
  | .atomscSend _ => true
  | .atomscArrive _ => true
  | .atomscApply _ => true
  | .atomscReply _ _ => true
  | .walkComplete _ => true
  | .regrowRequest _ => true
  | .sliceStart _ => true
  | .lzresMsg _ => true
  | .lzans _ => true
  | .lzpkt _ => true
  | .lzack _ => true
  | .lzabort _ => true
  | .lzSlotTimeout _ _ _ => true
  | .lzresQueueTimeout _ _ => true
  | .lzresAnswerTimeout _ => true
  | .lzpktResendTimeout _ => true
  | .lzresResendTimeout _ => true
  | .rd _ => true
  | .rdrsp _ => true
  | .wr _ => true
  | .wrack _ => true
  | .atomMsg _ => true
  | .atomrsp _ => true
  | .tlbinvMsg _ => true
  | .tlback _ => true
  | .nativeRequestTimeout _ => true
  | .unlistedMessage _ => true
  | .hostRead _ => true
  | .hostWrite _ => true
  | .hostSnoop _ _ => true
  | .bisnpResponse _ _ => true
  | .hostSnoopTimeout _ => true
  | .spdmRequest _ _ _ => true
  | .windowStore _ _ => true
  | .launchSeal _ => true
  | .bindRecord _ => true
  | .classifierWindowEnd _ => true
  | .launchComplete _ => true
  | .jobCardReady _ => true
  | .jobCardSteal _ _ => true
  | .frameTickAdvance _ => true
  | .releaseTick _ _ => true
  | .deadlineSlip _ _ => true
  | .slipEnd _ => true
  | .powerSample _ => true
  | .powerStallEnd => true
  | .preemptRequest _ => true
  | .preemptGrant _ => true
  | .strandRestore _ _ => true
  | .errorFreeze _ => true
  | .coreHardwareStop _ => true
  | .pllLossOfLock _ => true
  | .powerOn _ => true
  | .i3cReadBlackBox _ => true
  | .i3cReadPowerSamples => true
  | .i3cReadBringupStatus => true
  | .i3cWritePowerCap _ => true
  | .createAsid _ => true
  | .bindQueue _ => true
  | .unbindQueue _ => true
  | .unbindQueueDone _ => true
  | .mapAccessGroup _ => true
  | .setRegion _ => true
  | .setRights _ => true
  | .definePartition _ => true
  | .setProtection _ => true
  | .defineReservationClass _ => true
  | .defineHostRange _ => true
  | .flipBias _ => true
  | .biasFlipEnd _ => true
  | .tearDown _ => true
  | .scrubPage _ _ => true
  | .restoreLink _ _ => true
  | .updateFirmware _ _ => true
  | .setNode _ => true
  | .writeRouteEntry _ => true
  | .queueStatus _ => true
  | .unknownCommand _ => true
  | .emptyBundle => true
  | .reservedEncoding _ => true
  | .slotZeroFillComplete _ _ _ => true
  | .mailboxStore _ => true
  | .cxlCacheResponse _ _ _ => true
  | .snapfitQuery _ => true
  | .powerLoss => true

end Sys2Proof
end

