-- ==== Sys2Proof/Decode.lean ====
section
/-! DEFINITION. The decoder, one function per slot kind, total on every 32-bit word (R48 to R60), and
after it the encoder, both written from the body formats of R52 to R58. -/

namespace Sys2Proof

/-- The `len` bits of a word from bit `lo` up. -/
def fld (w : Word) (lo len : Nat) : BitVec len := w.extractLsb' lo len

/-- The op7 field (R48). -/
def opOf (w : Word) : BitVec 7 := fld w 25 7

/-- The guard of a slot op (R48). -/
def guardOf (w : Word) : Guard := { p := fld w 22 3, neg := decide (fld w 21 1 = 1#1) }

/-- An instruction is accepted when its unused fields are zero and its used fields hold admitted
values (R49). -/
def accept (zero : Bool) (i : Instr) : Option Instr := if zero && i.wf then some i else none

/-- The instruction that a word of a C slot names, with whether its unused fields are zero, given to `acc` (R49, R59). -/
def formC (acc : Bool → Instr → Option Instr) (w : Word) : Option Instr :=
  if opOf w = 0x01#7 then acc (true) (.br (guardOf w) (fld w 0 21))
  else if opOf w = 0x02#7 then acc (decide (fld w 0 15 = 0#15)) (.bri (guardOf w) (fld w 15 6))
  else if opOf w = 0x03#7 then acc (true) (.call (guardOf w) (fld w 0 21))
  else if opOf w = 0x04#7 then acc (decide (fld w 0 15 = 0#15)) (.calli (guardOf w) (fld w 15 6))
  else if opOf w = 0x05#7 then acc (decide (fld w 0 21 = 0#21)) (.ret (guardOf w))
  else if opOf w = 0x06#7 then acc (true) (.loop (guardOf w) (fld w 19 2) (fld w 13 6) (fld w 0 13))
  else if opOf w = 0x07#7 then acc (true) (.loopi (guardOf w) (fld w 19 2) (fld w 9 10) (fld w 0 9))
  else if opOf w = 0x08#7 then acc (decide (fld w 0 21 = 0#21)) (.endStrand (guardOf w))
  else if opOf w = 0x09#7 then acc (decide (fld w 0 21 = 0#21)) (.yield (guardOf w))
  else if opOf w = 0x0a#7 then acc (decide (fld w 0 11 = 0#11)) (.waitid (guardOf w) (fld w 17 4) (fld w 11 6))
  else if opOf w = 0x0b#7 then acc (decide (fld w 0 16 = 0#16)) (.waitt (guardOf w) (fld w 16 5))
  else if opOf w = 0x0c#7 then acc (decide (fld w 0 18 = 0#18)) (.bar (guardOf w) (fld w 18 3))
  else if opOf w = 0x0d#7 then acc (decide (fld w 0 20 = 0#20)) (.rdv (guardOf w) (fld w 20 1))
  else if opOf w = 0x0e#7 then acc (decide (fld w 0 13 = 0#13)) (.fence (guardOf w) (fld w 15 6) (fld w 13 2))
  else if opOf w = 0x0f#7 then acc (decide (fld w 0 12 = 0#12)) (.lzwait (guardOf w) (fld w 18 3) (fld w 12 6))
  else if opOf w = 0x10#7 then acc (decide (fld w 0 15 = 0#15)) (.spawn (guardOf w) (fld w 15 6))
  else if opOf w = 0x11#7 then acc (decide (fld w 16 5 = 0#5)) (.trap (guardOf w) (fld w 0 16))
  else if opOf w = 0x12#7 then acc (decide (fld w 0 21 = 0#21)) (.tret (guardOf w))
  else if opOf w = 0x13#7 then acc (decide (fld w 0 21 = 0#21)) (.snaprel (guardOf w))
  else if opOf w = 0x14#7 then acc (decide (fld w 0 21 = 0#21)) (.holdret (guardOf w))
  else if opOf w = 0x15#7 then acc (decide (fld w 0 21 = 0#21)) (.rdone (guardOf w))
  else none

/-- The instruction that a word of an A slot names, with whether its unused fields are zero, given to `acc` (R49, R59). -/
def formA (acc : Bool → Instr → Option Instr) (w : Word) : Option Instr :=
  if opOf w = 0x01#7 then acc (decide (fld w 0 3 = 0#3)) (.add (guardOf w) (fld w 15 6) (fld w 9 6) (fld w 3 6))
  else if opOf w = 0x02#7 then acc (decide (fld w 0 3 = 0#3)) (.sub (guardOf w) (fld w 15 6) (fld w 9 6) (fld w 3 6))
  else if opOf w = 0x03#7 then acc (decide (fld w 0 3 = 0#3)) (.and (guardOf w) (fld w 15 6) (fld w 9 6) (fld w 3 6))
  else if opOf w = 0x04#7 then acc (decide (fld w 0 3 = 0#3)) (.or (guardOf w) (fld w 15 6) (fld w 9 6) (fld w 3 6))
  else if opOf w = 0x05#7 then acc (decide (fld w 0 3 = 0#3)) (.xor (guardOf w) (fld w 15 6) (fld w 9 6) (fld w 3 6))
  else if opOf w = 0x06#7 then acc (decide (fld w 0 3 = 0#3)) (.andn (guardOf w) (fld w 15 6) (fld w 9 6) (fld w 3 6))
  else if opOf w = 0x07#7 then acc (decide (fld w 0 3 = 0#3)) (.shl (guardOf w) (fld w 15 6) (fld w 9 6) (fld w 3 6))
  else if opOf w = 0x08#7 then acc (decide (fld w 0 3 = 0#3)) (.shr (guardOf w) (fld w 15 6) (fld w 9 6) (fld w 3 6))
  else if opOf w = 0x09#7 then acc (decide (fld w 0 3 = 0#3)) (.sra (guardOf w) (fld w 15 6) (fld w 9 6) (fld w 3 6))
  else if opOf w = 0x0a#7 then acc (decide (fld w 0 3 = 0#3)) (.min (guardOf w) (fld w 15 6) (fld w 9 6) (fld w 3 6))
  else if opOf w = 0x0b#7 then acc (decide (fld w 0 3 = 0#3)) (.max (guardOf w) (fld w 15 6) (fld w 9 6) (fld w 3 6))
  else if opOf w = 0x0c#7 then acc (decide (fld w 0 3 = 0#3)) (.minu (guardOf w) (fld w 15 6) (fld w 9 6) (fld w 3 6))
  else if opOf w = 0x0d#7 then acc (decide (fld w 0 3 = 0#3)) (.maxu (guardOf w) (fld w 15 6) (fld w 9 6) (fld w 3 6))
  else if opOf w = 0x0e#7 then acc (decide (fld w 0 3 = 0#3)) (.mul (guardOf w) (fld w 15 6) (fld w 9 6) (fld w 3 6))
  else if opOf w = 0x0f#7 then acc (decide (fld w 0 3 = 0#3)) (.mulh (guardOf w) (fld w 15 6) (fld w 9 6) (fld w 3 6))
  else if opOf w = 0x10#7 then acc (decide (fld w 0 3 = 0#3)) (.mulhu (guardOf w) (fld w 15 6) (fld w 9 6) (fld w 3 6))
  else if opOf w = 0x11#7 then acc (decide (fld w 0 3 = 0#3)) (.mad (guardOf w) (fld w 15 6) (fld w 9 6) (fld w 3 6))
  else if opOf w = 0x12#7 then acc (decide (fld w 0 3 = 0#3)) (.div (guardOf w) (fld w 15 6) (fld w 9 6) (fld w 3 6))
  else if opOf w = 0x13#7 then acc (decide (fld w 0 3 = 0#3)) (.divu (guardOf w) (fld w 15 6) (fld w 9 6) (fld w 3 6))
  else if opOf w = 0x14#7 then acc (decide (fld w 0 3 = 0#3)) (.rem (guardOf w) (fld w 15 6) (fld w 9 6) (fld w 3 6))
  else if opOf w = 0x15#7 then acc (decide (fld w 0 3 = 0#3)) (.remu (guardOf w) (fld w 15 6) (fld w 9 6) (fld w 3 6))
  else if opOf w = 0x16#7 then acc (decide (fld w 0 9 = 0#9)) (.clz (guardOf w) (fld w 15 6) (fld w 9 6))
  else if opOf w = 0x17#7 then acc (decide (fld w 0 9 = 0#9)) (.popc (guardOf w) (fld w 15 6) (fld w 9 6))
  else if opOf w = 0x18#7 then acc (decide (fld w 0 3 = 0#3)) (.bfx (guardOf w) (fld w 15 6) (fld w 9 6) (fld w 3 6))
  else if opOf w = 0x19#7 then acc (decide (fld w 0 3 = 0#3)) (.bfi (guardOf w) (fld w 15 6) (fld w 9 6) (fld w 3 6))
  else if opOf w = 0x1a#7 then acc (true) (.sel (guardOf w) (fld w 15 6) (fld w 9 6) (fld w 3 6) (fld w 0 3))
  else if opOf w = 0x1b#7 then acc (true) (.addx (guardOf w) (fld w 15 6) (fld w 9 6) (fld w 3 6) (fld w 0 3))
  else if opOf w = 0x1c#7 then acc (decide (fld w 3 6 = 0#6)) (.sext (guardOf w) (fld w 15 6) (fld w 9 6) (fld w 0 3))
  else if opOf w = 0x1d#7 then acc (decide (fld w 3 6 = 0#6)) (.zext (guardOf w) (fld w 15 6) (fld w 9 6) (fld w 0 3))
  else if opOf w = 0x20#7 then acc (true) (.addi (guardOf w) (fld w 15 6) (fld w 9 6) (fld w 0 9))
  else if opOf w = 0x21#7 then acc (true) (.andi (guardOf w) (fld w 15 6) (fld w 9 6) (fld w 0 9))
  else if opOf w = 0x22#7 then acc (true) (.ori (guardOf w) (fld w 15 6) (fld w 9 6) (fld w 0 9))
  else if opOf w = 0x23#7 then acc (true) (.xori (guardOf w) (fld w 15 6) (fld w 9 6) (fld w 0 9))
  else if opOf w = 0x24#7 then acc (true) (.shli (guardOf w) (fld w 15 6) (fld w 9 6) (fld w 0 9))
  else if opOf w = 0x25#7 then acc (true) (.shri (guardOf w) (fld w 15 6) (fld w 9 6) (fld w 0 9))
  else if opOf w = 0x26#7 then acc (true) (.srai (guardOf w) (fld w 15 6) (fld w 9 6) (fld w 0 9))
  else if opOf w = 0x28#7 then acc (true) (.movi (guardOf w) (fld w 15 6) (fld w 0 15))
  else if opOf w = 0x29#7 then acc (true) (.ldk (guardOf w) (fld w 15 6) (fld w 0 15))
  else if opOf w = 0x2a#7 then acc (decide (fld w 0 3 = 0#3)) (.cmp (guardOf w) (fld w 18 3) (fld w 15 3) (fld w 9 6) (fld w 3 6))
  else if opOf w = 0x2b#7 then acc (true) (.cmpi (guardOf w) (fld w 18 3) (fld w 15 3) (fld w 9 6) (fld w 0 9))
  else if opOf w = 0x2c#7 then acc (decide (fld w 0 9 = 0#9)) (.plog (guardOf w) (fld w 18 3) (fld w 15 3) (fld w 12 3) (fld w 9 3))
  else if opOf w = 0x2d#7 then acc (decide (fld w 9 6 = 0#6)) (.movc (guardOf w) (fld w 15 6) (fld w 0 9))
  else if opOf w = 0x2e#7 ∧ fld w 0 9 = 64#9 then acc (decide (fld w 15 6 = 0#6)) (.movtcShape (guardOf w) (fld w 9 6))
  else if opOf w = 0x2e#7 ∧ fld w 0 9 = 65#9 then acc (decide (fld w 15 6 = 0#6)) (.movtcFflags (guardOf w) (fld w 9 6))
  else if opOf w = 0x2e#7 ∧ fld w 0 9 = 66#9 then acc (decide (fld w 15 6 = 0#6)) (.movtcRmode (guardOf w) (fld w 9 6))
  else if opOf w = 0x2e#7 ∧ fld w 0 9 = 67#9 then acc (decide (fld w 15 6 = 0#6)) (.movtcLfsr (guardOf w) (fld w 9 6))
  else if opOf w = 0x2e#7 ∧ fld w 2 7 = 4#7 then acc (decide (fld w 15 6 = 0#6)) (.movtcLc (guardOf w) (fld w 9 6) (fld w 0 2))
  else if opOf w = 0x2e#7 ∧ fld w 0 9 = 224#9 then acc (decide (fld w 15 6 = 0#6)) (.movtcGqt (guardOf w) (fld w 9 6))
  else if opOf w = 0x2e#7 ∧ fld w 0 9 = 227#9 then acc (decide (fld w 15 6 = 0#6)) (.movtcCerr (guardOf w) (fld w 9 6))
  else if opOf w = 0x2e#7 ∧ fld w 0 9 = 483#9 then acc (decide (fld w 15 6 = 0#6)) (.movtcSnapbase (guardOf w) (fld w 9 6))
  else if opOf w = 0x2e#7 then acc (decide (fld w 15 6 = 0#6)) (.movtc (guardOf w) (fld w 9 6) (fld w 0 9))
  else none

/-- The instruction that a word of an M slot names, with whether its unused fields are zero, given to `acc` (R49, R59). -/
def formM (acc : Bool → Instr → Option Instr) (w : Word) : Option Instr :=
  if opOf w = 0x01#7 then acc (true) (.ld (guardOf w) (fld w 15 6) (fld w 9 6) (fld w 5 4) (fld w 3 2) (fld w 0 3))
  else if opOf w = 0x02#7 then acc (true) (.lds (guardOf w) (fld w 15 6) (fld w 9 6) (fld w 5 4) (fld w 3 2) (fld w 0 3))
  else if opOf w = 0x03#7 then acc (true) (.st (guardOf w) (fld w 15 6) (fld w 9 6) (fld w 5 4) (fld w 3 2) (fld w 0 3))
  else if opOf w = 0x04#7 then acc (decide (fld w 0 5 = 0#5)) (.lda (guardOf w) (fld w 15 6) (fld w 9 6) (fld w 7 2) (fld w 5 2))
  else if opOf w = 0x05#7 then acc (decide (fld w 0 5 = 0#5)) (.strel (guardOf w) (fld w 15 6) (fld w 9 6) (fld w 7 2) (fld w 5 2))
  else if opOf w = 0x06#7 then acc (true) (.atom (guardOf w) (fld w 15 6) (fld w 9 6) (fld w 3 6) (fld w 0 3))
  else if opOf w = 0x07#7 then acc (decide (fld w 0 3 = 0#3)) (.aswap (guardOf w) (fld w 15 6) (fld w 9 6) (fld w 3 6))
  else if opOf w = 0x08#7 then acc (decide (fld w 0 3 = 0#3)) (.acas (guardOf w) (fld w 15 6) (fld w 9 6) (fld w 3 6))
  else if opOf w = 0x09#7 then acc (true) (.atomsc (guardOf w) (fld w 15 6) (fld w 9 6) (fld w 3 6) (fld w 0 3))
  else if opOf w = 0x0a#7 then acc (decide (fld w 0 13 = 0#13)) (.invr (guardOf w) (fld w 13 8))
  else if opOf w = 0x0b#7 then acc (decide (fld w 0 11 = 0#11) && decide (fld w 12 1 = 1#1)) (.wbr (guardOf w) (fld w 13 8) (fld w 11 1))
  else if opOf w = 0x0c#7 then acc (decide (fld w 0 13 = 0#13)) (.own (guardOf w) (fld w 13 8))
  else if opOf w = 0x0d#7 then acc (true) (.vld (guardOf w) (fld w 14 7) (fld w 8 6) (fld w 0 8))
  else if opOf w = 0x0e#7 then acc (true) (.vst (guardOf w) (fld w 14 7) (fld w 8 6) (fld w 0 8))
  else if opOf w = 0x0f#7 then acc (decide (fld w 0 2 = 0#2)) (.vlds (guardOf w) (fld w 14 7) (fld w 8 6) (fld w 2 6))
  else if opOf w = 0x10#7 then acc (decide (fld w 0 2 = 0#2)) (.vsts (guardOf w) (fld w 14 7) (fld w 8 6) (fld w 2 6))
  else if opOf w = 0x11#7 then acc (true) (.tld (guardOf w) (fld w 16 5) (fld w 10 6) (fld w 6 4) (fld w 2 4) (fld w 0 2))
  else if opOf w = 0x12#7 then acc (true) (.tst (guardOf w) (fld w 16 5) (fld w 10 6) (fld w 6 4) (fld w 2 4) (fld w 0 2))
  else if opOf w = 0x13#7 then acc (decide (fld w 0 2 = 0#2) && decide (fld w 6 5 = 0#5)) (.tcpy (guardOf w) (fld w 16 5) (fld w 11 5) (fld w 2 4))
  else if opOf w = 0x14#7 then acc (decide (fld w 15 1 = 0#1)) (.tdesc (guardOf w) (fld w 16 5) (fld w 0 15))
  else if opOf w = 0x15#7 then acc (decide (fld w 0 9 = 0#9) && decide (fld w 15 6 = 0#6)) (.gpush (guardOf w) (fld w 9 6))
  else if opOf w = 0x16#7 then acc (decide (fld w 0 14 = 0#14)) (.gpop (guardOf w) (fld w 14 7))
  else if opOf w = 0x17#7 then acc (decide (fld w 0 8 = 0#8)) (.spush (guardOf w) (fld w 14 7) (fld w 8 6))
  else if opOf w = 0x18#7 then acc (decide (fld w 3 12 = 0#12)) (.cbget (guardOf w) (fld w 15 6) (fld w 0 3))
  else if opOf w = 0x19#7 then acc (decide (fld w 3 18 = 0#18)) (.cbput (guardOf w) (fld w 0 3))
  else if opOf w = 0x1a#7 then acc (decide (fld w 3 12 = 0#12)) (.cbtake (guardOf w) (fld w 15 6) (fld w 0 3))
  else if opOf w = 0x1b#7 then acc (decide (fld w 3 18 = 0#18)) (.cbgive (guardOf w) (fld w 0 3))
  else if opOf w = 0x1c#7 then acc (decide (fld w 0 3 = 0#3)) (.lzres (guardOf w) (fld w 15 6) (fld w 9 6) (fld w 3 6))
  else if opOf w = 0x1d#7 then acc (true) (.tstx (guardOf w) (fld w 16 5) (fld w 10 6) (fld w 6 4) (fld w 2 4) (fld w 0 2))
  else if opOf w = 0x1e#7 then acc (decide (fld w 3 6 = 0#6) && decide (fld w 17 4 = 0#4)) (.lzarm (guardOf w) (fld w 15 2) (fld w 9 6) (fld w 0 3))
  else if opOf w = 0x1f#7 then acc (decide (fld w 3 6 = 0#6) && decide (fld w 15 6 = 0#6)) (.lzrel (guardOf w) (fld w 9 6) (fld w 0 3))
  else if opOf w = 0x20#7 then acc (decide (fld w 3 6 = 0#6)) (.lzstat (guardOf w) (fld w 15 6) (fld w 9 6) (fld w 0 3))
  else if opOf w = 0x21#7 then acc (decide (fld w 3 18 = 0#18)) (.lzclean (guardOf w) (fld w 0 3))
  else if opOf w = 0x22#7 then acc (decide (fld w 0 3 = 0#3) && decide (fld w 15 6 = 0#6)) (.rdecl (guardOf w) (fld w 9 6) (fld w 3 6))
  else if opOf w = 0x23#7 then acc (decide (fld w 0 9 = 0#9) && decide (fld w 15 6 = 0#6)) (.rpin (guardOf w) (fld w 9 6))
  else if opOf w = 0x24#7 then acc (decide (fld w 0 9 = 0#9) && decide (fld w 15 6 = 0#6)) (.runpin (guardOf w) (fld w 9 6))
  else if opOf w = 0x25#7 then acc (decide (fld w 0 9 = 0#9) && decide (fld w 15 6 = 0#6)) (.rseal (guardOf w) (fld w 9 6))
  else if opOf w = 0x26#7 then acc (decide (fld w 0 9 = 0#9) && decide (fld w 15 6 = 0#6)) (.rdrop (guardOf w) (fld w 9 6))
  else if opOf w = 0x27#7 then acc (decide (fld w 0 9 = 0#9) && decide (fld w 15 6 = 0#6)) (.jcpush (guardOf w) (fld w 9 6))
  else if opOf w = 0x28#7 then acc (decide (fld w 0 15 = 0#15)) (.jcpop (guardOf w) (fld w 15 6))
  else if opOf w = 0x29#7 then acc (decide (fld w 0 9 = 0#9) && decide (fld w 15 6 = 0#6)) (.snapst (guardOf w) (fld w 9 6))
  else if opOf w = 0x2a#7 then acc (decide (fld w 0 9 = 0#9) && decide (fld w 15 6 = 0#6)) (.snapld (guardOf w) (fld w 9 6))
  else if opOf w = 0x2b#7 then acc (decide (fld w 15 6 = 0#6)) (.tlbinv (guardOf w) (fld w 9 6) (fld w 3 6) (fld w 0 3))
  else if opOf w = 0x2c#7 then acc (decide (fld w 3 6 = 3#6) && decide (fld w 15 6 = 0#6)) (.pref (guardOf w) (fld w 9 6) (fld w 0 3))
  else none

/-- The instruction that a word of an X slot names, with whether its unused fields are zero, given to `acc` (R49, R59). -/
def formX (acc : Bool → Instr → Option Instr) (w : Word) : Option Instr :=
  if opOf w = 0x01#7 then acc (true) (.vadd (guardOf w) (fld w 14 7) (fld w 7 7) (fld w 0 7))
  else if opOf w = 0x02#7 then acc (true) (.vsub (guardOf w) (fld w 14 7) (fld w 7 7) (fld w 0 7))
  else if opOf w = 0x03#7 then acc (true) (.vmul (guardOf w) (fld w 14 7) (fld w 7 7) (fld w 0 7))
  else if opOf w = 0x04#7 then acc (true) (.vfma (guardOf w) (fld w 14 7) (fld w 7 7) (fld w 0 7))
  else if opOf w = 0x05#7 then acc (true) (.vfms (guardOf w) (fld w 14 7) (fld w 7 7) (fld w 0 7))
  else if opOf w = 0x06#7 then acc (true) (.vmin (guardOf w) (fld w 14 7) (fld w 7 7) (fld w 0 7))
  else if opOf w = 0x07#7 then acc (true) (.vmax (guardOf w) (fld w 14 7) (fld w 7 7) (fld w 0 7))
  else if opOf w = 0x08#7 then acc (decide (fld w 0 7 = 0#7)) (.vabs (guardOf w) (fld w 14 7) (fld w 7 7))
  else if opOf w = 0x09#7 then acc (decide (fld w 0 7 = 0#7)) (.vneg (guardOf w) (fld w 14 7) (fld w 7 7))
  else if opOf w = 0x0a#7 then acc (true) (.vand (guardOf w) (fld w 14 7) (fld w 7 7) (fld w 0 7))
  else if opOf w = 0x0b#7 then acc (true) (.vor (guardOf w) (fld w 14 7) (fld w 7 7) (fld w 0 7))
  else if opOf w = 0x0c#7 then acc (true) (.vxor (guardOf w) (fld w 14 7) (fld w 7 7) (fld w 0 7))
  else if opOf w = 0x0d#7 then acc (true) (.vshl (guardOf w) (fld w 14 7) (fld w 7 7) (fld w 0 7))
  else if opOf w = 0x0e#7 then acc (true) (.vshr (guardOf w) (fld w 14 7) (fld w 7 7) (fld w 0 7))
  else if opOf w = 0x0f#7 then acc (true) (.vsra (guardOf w) (fld w 14 7) (fld w 7 7) (fld w 0 7))
  else if opOf w = 0x10#7 then acc (true) (.vqadd (guardOf w) (fld w 14 7) (fld w 7 7) (fld w 0 7))
  else if opOf w = 0x11#7 then acc (true) (.vqsub (guardOf w) (fld w 14 7) (fld w 7 7) (fld w 0 7))
  else if opOf w = 0x12#7 then acc (true) (.vmulh (guardOf w) (fld w 14 7) (fld w 7 7) (fld w 0 7))
  else if opOf w = 0x13#7 then acc (true) (.vceq (guardOf w) (fld w 14 7) (fld w 7 7) (fld w 0 7))
  else if opOf w = 0x14#7 then acc (true) (.vclt (guardOf w) (fld w 14 7) (fld w 7 7) (fld w 0 7))
  else if opOf w = 0x15#7 then acc (true) (.vcle (guardOf w) (fld w 14 7) (fld w 7 7) (fld w 0 7))
  else if opOf w = 0x16#7 then acc (true) (.vcltu (guardOf w) (fld w 14 7) (fld w 7 7) (fld w 0 7))
  else if opOf w = 0x17#7 then acc (true) (.vsel (guardOf w) (fld w 14 7) (fld w 7 7) (fld w 0 7))
  else if opOf w = 0x18#7 then acc (decide (fld w 0 7 = 0#7)) (.vmov (guardOf w) (fld w 14 7) (fld w 7 7))
  else if opOf w = 0x19#7 then acc (decide (fld w 0 8 = 0#8)) (.vbc (guardOf w) (fld w 14 7) (fld w 8 6))
  else if opOf w = 0x1a#7 then acc (decide (fld w 0 14 = 0#14)) (.viota (guardOf w) (fld w 14 7))
  else if opOf w = 0x1b#7 then acc (true) (.vrowsh (guardOf w) (fld w 14 7) (fld w 7 7) (fld w 0 7))
  else if opOf w = 0x1c#7 then acc (true) (.vcolsh (guardOf w) (fld w 14 7) (fld w 7 7) (fld w 0 7))
  else if opOf w = 0x1d#7 then acc (true) (.vesh (guardOf w) (fld w 14 7) (fld w 7 7) (fld w 0 7))
  else if opOf w = 0x1e#7 then acc (true) (.vrot (guardOf w) (fld w 14 7) (fld w 7 7) (fld w 0 7))
  else if opOf w = 0x1f#7 then acc (decide (fld w 0 7 = 0#7)) (.vtrn (guardOf w) (fld w 14 7) (fld w 7 7))
  else if opOf w = 0x20#7 then acc (true) (.vcvt (guardOf w) (fld w 14 7) (fld w 7 7) (fld w 6 1) (fld w 0 6))
  else if opOf w = 0x21#7 then acc (decide (fld w 0 7 = 0#7)) (.vpack3 (guardOf w) (fld w 14 7) (fld w 7 7))
  else if opOf w = 0x22#7 then acc (decide (fld w 0 7 = 0#7)) (.vunp3 (guardOf w) (fld w 14 7) (fld w 7 7))
  else if opOf w = 0x23#7 then acc (decide (fld w 0 7 = 0#7)) (.vcmpr (guardOf w) (fld w 14 7) (fld w 7 7))
  else if opOf w = 0x24#7 then acc (true) (.vscl (guardOf w) (fld w 14 7) (fld w 7 7) (fld w 0 7))
  else if opOf w = 0x25#7 then acc (true) (.vget (guardOf w) (fld w 15 6) (fld w 8 7) (fld w 0 8))
  else if opOf w = 0x26#7 then acc (true) (.vput (guardOf w) (fld w 14 7) (fld w 8 6) (fld w 0 8))
  else none

/-- The instruction that a word of the F slot names, with whether its unused fields are zero, given to `acc` (R49, R59). -/
def formF (acc : Bool → Instr → Option Instr) (w : Word) : Option Instr :=
  if opOf w = 0x01#7 then acc (decide (fld w 0 7 = 0#7)) (.fexp2 (guardOf w) (fld w 14 7) (fld w 7 7))
  else if opOf w = 0x02#7 then acc (decide (fld w 0 7 = 0#7)) (.flog2 (guardOf w) (fld w 14 7) (fld w 7 7))
  else if opOf w = 0x03#7 then acc (decide (fld w 0 7 = 0#7)) (.frecip (guardOf w) (fld w 14 7) (fld w 7 7))
  else if opOf w = 0x04#7 then acc (decide (fld w 0 7 = 0#7)) (.frsqrt (guardOf w) (fld w 14 7) (fld w 7 7))
  else if opOf w = 0x05#7 then acc (decide (fld w 0 7 = 0#7)) (.fsqrt (guardOf w) (fld w 14 7) (fld w 7 7))
  else if opOf w = 0x06#7 then acc (decide (fld w 0 7 = 0#7)) (.ftanh (guardOf w) (fld w 14 7) (fld w 7 7))
  else if opOf w = 0x07#7 then acc (decide (fld w 0 7 = 0#7)) (.fsigm (guardOf w) (fld w 14 7) (fld w 7 7))
  else if opOf w = 0x08#7 then acc (decide (fld w 0 7 = 0#7)) (.fsin (guardOf w) (fld w 14 7) (fld w 7 7))
  else if opOf w = 0x09#7 then acc (decide (fld w 0 7 = 0#7)) (.fcos (guardOf w) (fld w 14 7) (fld w 7 7))
  else if opOf w = 0x0a#7 then acc (true) (.fdiv (guardOf w) (fld w 14 7) (fld w 7 7) (fld w 0 7))
  else none

/-- The instruction that a word of the Q slot names, with whether its unused fields are zero, given to `acc` (R49, R59). -/
def formQ (acc : Bool → Instr → Option Instr) (w : Word) : Option Instr :=
  if opOf w = 0x01#7 then acc (decide (fld w 0 10 = 0#10)) (.qadd (guardOf w) (fld w 19 2) (fld w 12 7) (fld w 10 2))
  else if opOf w = 0x02#7 then acc (decide (fld w 0 10 = 0#10)) (.qmax (guardOf w) (fld w 19 2) (fld w 12 7) (fld w 10 2))
  else if opOf w = 0x03#7 then acc (decide (fld w 0 10 = 0#10)) (.qmin (guardOf w) (fld w 19 2) (fld w 12 7) (fld w 10 2))
  else if opOf w = 0x04#7 then acc (decide (fld w 0 10 = 0#10)) (.qscan (guardOf w) (fld w 19 2) (fld w 12 7) (fld w 10 2))
  else if opOf w = 0x05#7 then acc (decide (fld w 0 12 = 0#12)) (.qmov (guardOf w) (fld w 14 7) (fld w 12 2))
  else if opOf w = 0x06#7 then acc (decide (fld w 0 19 = 0#19)) (.qclr (guardOf w) (fld w 19 2))
  else none

/-- The instruction that a word of the P slot names, with whether its unused fields are zero, given to `acc` (R49, R59). -/
def formP (acc : Bool → Instr → Option Instr) (w : Word) : Option Instr :=
  if opOf w = 0x01#7 then acc (decide (fld w 0 20 = 0#20)) (.pacq (guardOf w) (fld w 20 1))
  else if opOf w = 0x02#7 then acc (decide (fld w 0 15 = 0#15)) (.pwin (guardOf w) (fld w 15 6))
  else if opOf w = 0x03#7 then acc (decide (fld w 0 6 = 0#6)) (.pfset (guardOf w) (fld w 18 3) (fld w 12 6) (fld w 6 6))
  else if opOf w = 0x04#7 then acc (true) (.pstep (guardOf w) (fld w 16 5) (fld w 11 5) (fld w 8 3) (fld w 5 3) (fld w 1 4) (fld w 0 1))
  else if opOf w = 0x05#7 then acc (true) (.psteps (guardOf w) (fld w 16 5) (fld w 11 5) (fld w 8 3) (fld w 5 3) (fld w 1 4) (fld w 0 1))
  else if opOf w = 0x06#7 then acc (decide (fld w 0 17 = 0#17)) (.pshift (guardOf w) (fld w 17 4))
  else if opOf w = 0x07#7 then acc (decide (fld w 0 14 = 0#14)) (.pload (guardOf w) (fld w 16 5) (fld w 15 1) (fld w 14 1))
  else if opOf w = 0x08#7 then acc (decide (fld w 0 8 = 0#8)) (.pret (guardOf w) (fld w 16 5) (fld w 15 1) (fld w 9 6) (fld w 8 1))
  else if opOf w = 0x09#7 then acc (decide (fld w 0 21 = 0#21)) (.prel (guardOf w))
  else if opOf w = 0x0a#7 then acc (decide (fld w 0 19 = 0#19)) (.hsend (guardOf w) (fld w 19 2))
  else if opOf w = 0x0b#7 then acc (decide (fld w 0 19 = 0#19)) (.hadd (guardOf w) (fld w 19 2))
  else if opOf w = 0x0c#7 then acc (decide (fld w 0 17 = 0#17)) (.hclr (guardOf w) (fld w 17 4))
  else if opOf w = 0x0d#7 then acc (decide (fld w 0 14 = 0#14)) (.nlsend (guardOf w) (fld w 16 5) (fld w 14 2))
  else if opOf w = 0x0e#7 then acc (decide (fld w 0 14 = 0#14)) (.nlrecv (guardOf w) (fld w 16 5) (fld w 14 2))
  else none

/-- The form of a word by its slot: 0 C, 1 and 2 A, 3 and 4 M, 5 to 7 X, 8 F, 9 Q, 10 P (R42). -/
def formSlot (acc : Bool → Instr → Option Instr) (slot : Nat) (w : Word) : Option Instr :=
  if slot = 0 then formC acc w
  else if slot ≤ 2 then formA acc w
  else if slot ≤ 4 then formM acc w
  else if slot ≤ 7 then formX acc w
  else if slot = 8 then formF acc w
  else if slot = 9 then formQ acc w
  else if slot = 10 then formP acc w
  else none

/-- Decode a word of a slot, by mask bit: `none` for a reserved op7 or field (R42, R49, R59, R60). -/
def decodeSlot (slot : Nat) (w : Word) : Option Instr := formSlot accept slot w

/-- The op that a word of a slot names by its op7, though a field of it be bad (R49): its registers take part in the
checks that come before the one of its encoding (R65). -/
def namedSlot (slot : Nat) (w : Word) : Option Instr := formSlot (fun _ i => some i) slot w

/-- The guard's four bits as they stand in a word (R48). -/
def encGuard (g : Guard) : BitVec 4 := g.p ++ (if g.neg then 1#1 else 0#1)

/-- The word of a slot op (R52 to R59); a step that no word encodes gives the word 0, which every slot
refuses (R60). -/
def encode : Instr → Word
  | .br g o => 0x01#7 ++ encGuard g ++ o
  | .bri g a => 0x02#7 ++ encGuard g ++ a ++ 0#15
  | .call g o => 0x03#7 ++ encGuard g ++ o
  | .calli g a => 0x04#7 ++ encGuard g ++ a ++ 0#15
  | .ret g => 0x05#7 ++ encGuard g ++ 0#21
  | .loop g l a o => 0x06#7 ++ encGuard g ++ l ++ a ++ o
  | .loopi g l c o => 0x07#7 ++ encGuard g ++ l ++ c ++ o
  | .endStrand g => 0x08#7 ++ encGuard g ++ 0#21
  | .yield g => 0x09#7 ++ encGuard g ++ 0#21
  | .waitid g h a => 0x0a#7 ++ encGuard g ++ h ++ a ++ 0#11
  | .waitt g t => 0x0b#7 ++ encGuard g ++ t ++ 0#16
  | .bar g l => 0x0c#7 ++ encGuard g ++ l ++ 0#18
  | .rdv g r => 0x0d#7 ++ encGuard g ++ r ++ 0#20
  | .fence g a s => 0x0e#7 ++ encGuard g ++ a ++ s ++ 0#13
  | .lzwait g b d => 0x0f#7 ++ encGuard g ++ b ++ d ++ 0#12
  | .spawn g a => 0x10#7 ++ encGuard g ++ a ++ 0#15
  | .trap g i => 0x11#7 ++ encGuard g ++ 0#5 ++ i
  | .tret g => 0x12#7 ++ encGuard g ++ 0#21
  | .snaprel g => 0x13#7 ++ encGuard g ++ 0#21
  | .holdret g => 0x14#7 ++ encGuard g ++ 0#21
  | .rdone g => 0x15#7 ++ encGuard g ++ 0#21
  | .add g d a b => 0x01#7 ++ encGuard g ++ d ++ a ++ b ++ 0#3
  | .sub g d a b => 0x02#7 ++ encGuard g ++ d ++ a ++ b ++ 0#3
  | .and g d a b => 0x03#7 ++ encGuard g ++ d ++ a ++ b ++ 0#3
  | .or g d a b => 0x04#7 ++ encGuard g ++ d ++ a ++ b ++ 0#3
  | .xor g d a b => 0x05#7 ++ encGuard g ++ d ++ a ++ b ++ 0#3
  | .andn g d a b => 0x06#7 ++ encGuard g ++ d ++ a ++ b ++ 0#3
  | .shl g d a b => 0x07#7 ++ encGuard g ++ d ++ a ++ b ++ 0#3
  | .shr g d a b => 0x08#7 ++ encGuard g ++ d ++ a ++ b ++ 0#3
  | .sra g d a b => 0x09#7 ++ encGuard g ++ d ++ a ++ b ++ 0#3
  | .min g d a b => 0x0a#7 ++ encGuard g ++ d ++ a ++ b ++ 0#3
  | .max g d a b => 0x0b#7 ++ encGuard g ++ d ++ a ++ b ++ 0#3
  | .minu g d a b => 0x0c#7 ++ encGuard g ++ d ++ a ++ b ++ 0#3
  | .maxu g d a b => 0x0d#7 ++ encGuard g ++ d ++ a ++ b ++ 0#3
  | .mul g d a b => 0x0e#7 ++ encGuard g ++ d ++ a ++ b ++ 0#3
  | .mulh g d a b => 0x0f#7 ++ encGuard g ++ d ++ a ++ b ++ 0#3
  | .mulhu g d a b => 0x10#7 ++ encGuard g ++ d ++ a ++ b ++ 0#3
  | .mad g d a b => 0x11#7 ++ encGuard g ++ d ++ a ++ b ++ 0#3
  | .div g d a b => 0x12#7 ++ encGuard g ++ d ++ a ++ b ++ 0#3
  | .divu g d a b => 0x13#7 ++ encGuard g ++ d ++ a ++ b ++ 0#3
  | .rem g d a b => 0x14#7 ++ encGuard g ++ d ++ a ++ b ++ 0#3
  | .remu g d a b => 0x15#7 ++ encGuard g ++ d ++ a ++ b ++ 0#3
  | .clz g d a => 0x16#7 ++ encGuard g ++ d ++ a ++ 0#9
  | .popc g d a => 0x17#7 ++ encGuard g ++ d ++ a ++ 0#9
  | .bfx g d a b => 0x18#7 ++ encGuard g ++ d ++ a ++ b ++ 0#3
  | .bfi g d a b => 0x19#7 ++ encGuard g ++ d ++ a ++ b ++ 0#3
  | .sel g d a b p => 0x1a#7 ++ encGuard g ++ d ++ a ++ b ++ p
  | .addx g d a b p => 0x1b#7 ++ encGuard g ++ d ++ a ++ b ++ p
  | .sext g d a w => 0x1c#7 ++ encGuard g ++ d ++ a ++ 0#6 ++ w
  | .zext g d a w => 0x1d#7 ++ encGuard g ++ d ++ a ++ 0#6 ++ w
  | .addi g d a i => 0x20#7 ++ encGuard g ++ d ++ a ++ i
  | .andi g d a i => 0x21#7 ++ encGuard g ++ d ++ a ++ i
  | .ori g d a i => 0x22#7 ++ encGuard g ++ d ++ a ++ i
  | .xori g d a i => 0x23#7 ++ encGuard g ++ d ++ a ++ i
  | .shli g d a i => 0x24#7 ++ encGuard g ++ d ++ a ++ i
  | .shri g d a i => 0x25#7 ++ encGuard g ++ d ++ a ++ i
  | .srai g d a i => 0x26#7 ++ encGuard g ++ d ++ a ++ i
  | .movi g d i => 0x28#7 ++ encGuard g ++ d ++ i
  | .ldk g d k => 0x29#7 ++ encGuard g ++ d ++ k
  | .cmp g p c a b => 0x2a#7 ++ encGuard g ++ p ++ c ++ a ++ b ++ 0#3
  | .cmpi g p c a i => 0x2b#7 ++ encGuard g ++ p ++ c ++ a ++ i
  | .plog g d f a b => 0x2c#7 ++ encGuard g ++ d ++ f ++ a ++ b ++ 0#9
  | .movc g d c => 0x2d#7 ++ encGuard g ++ d ++ 0#6 ++ c
  | .movtc g a c => 0x2e#7 ++ encGuard g ++ 0#6 ++ a ++ c
  | .movtcShape g a => 0x2e#7 ++ encGuard g ++ 0#6 ++ a ++ 64#9
  | .movtcFflags g a => 0x2e#7 ++ encGuard g ++ 0#6 ++ a ++ 65#9
  | .movtcRmode g a => 0x2e#7 ++ encGuard g ++ 0#6 ++ a ++ 66#9
  | .movtcLfsr g a => 0x2e#7 ++ encGuard g ++ 0#6 ++ a ++ 67#9
  | .movtcLc g a l => 0x2e#7 ++ encGuard g ++ 0#6 ++ a ++ 4#7 ++ l
  | .movtcGqt g a => 0x2e#7 ++ encGuard g ++ 0#6 ++ a ++ 224#9
  | .movtcCerr g a => 0x2e#7 ++ encGuard g ++ 0#6 ++ a ++ 227#9
  | .movtcSnapbase g a => 0x2e#7 ++ encGuard g ++ 0#6 ++ a ++ 483#9
  | .ld g d a c z i => 0x01#7 ++ encGuard g ++ d ++ a ++ c ++ z ++ i
  | .lds g d a c z i => 0x02#7 ++ encGuard g ++ d ++ a ++ c ++ z ++ i
  | .st g d a c z i => 0x03#7 ++ encGuard g ++ d ++ a ++ c ++ z ++ i
  | .lda g d a z s => 0x04#7 ++ encGuard g ++ d ++ a ++ z ++ s ++ 0#5
  | .strel g d a z s => 0x05#7 ++ encGuard g ++ d ++ a ++ z ++ s ++ 0#5
  | .atom g d a b o => 0x06#7 ++ encGuard g ++ d ++ a ++ b ++ o
  | .aswap g d a b => 0x07#7 ++ encGuard g ++ d ++ a ++ b ++ 0#3
  | .acas g d a b => 0x08#7 ++ encGuard g ++ d ++ a ++ b ++ 0#3
  | .atomsc g d a b o => 0x09#7 ++ encGuard g ++ d ++ a ++ b ++ o
  | .invr g m => 0x0a#7 ++ encGuard g ++ m ++ 0#13
  | .wbr g m s => 0x0b#7 ++ encGuard g ++ m ++ 1#1 ++ s ++ 0#11
  | .own g m => 0x0c#7 ++ encGuard g ++ m ++ 0#13
  | .vld g v a d => 0x0d#7 ++ encGuard g ++ v ++ a ++ d
  | .vst g v a d => 0x0e#7 ++ encGuard g ++ v ++ a ++ d
  | .vlds g v a b => 0x0f#7 ++ encGuard g ++ v ++ a ++ b ++ 0#2
  | .vsts g v a b => 0x10#7 ++ encGuard g ++ v ++ a ++ b ++ 0#2
  | .tld g t a c h m => 0x11#7 ++ encGuard g ++ t ++ a ++ c ++ h ++ m
  | .tst g t a c h m => 0x12#7 ++ encGuard g ++ t ++ a ++ c ++ h ++ m
  | .tcpy g d s h => 0x13#7 ++ encGuard g ++ d ++ s ++ 0#5 ++ h ++ 0#2
  | .tdesc g t k => 0x14#7 ++ encGuard g ++ t ++ 0#1 ++ k
  | .gpush g a => 0x15#7 ++ encGuard g ++ 0#6 ++ a ++ 0#9
  | .gpop g v => 0x16#7 ++ encGuard g ++ v ++ 0#14
  | .spush g v a => 0x17#7 ++ encGuard g ++ v ++ a ++ 0#8
  | .cbget g d c => 0x18#7 ++ encGuard g ++ d ++ 0#12 ++ c
  | .cbput g c => 0x19#7 ++ encGuard g ++ 0#18 ++ c
  | .cbtake g d c => 0x1a#7 ++ encGuard g ++ d ++ 0#12 ++ c
  | .cbgive g c => 0x1b#7 ++ encGuard g ++ 0#18 ++ c
  | .lzres g d a b => 0x1c#7 ++ encGuard g ++ d ++ a ++ b ++ 0#3
  | .tstx g t a c h m => 0x1d#7 ++ encGuard g ++ t ++ a ++ c ++ h ++ m
  | .lzarm g z a x => 0x1e#7 ++ encGuard g ++ 0#4 ++ z ++ a ++ 0#6 ++ x
  | .lzrel g a z => 0x1f#7 ++ encGuard g ++ 0#6 ++ a ++ 0#6 ++ z
  | .lzstat g d a z => 0x20#7 ++ encGuard g ++ d ++ a ++ 0#6 ++ z
  | .lzclean g z => 0x21#7 ++ encGuard g ++ 0#18 ++ z
  | .rdecl g a b => 0x22#7 ++ encGuard g ++ 0#6 ++ a ++ b ++ 0#3
  | .rpin g a => 0x23#7 ++ encGuard g ++ 0#6 ++ a ++ 0#9
  | .runpin g a => 0x24#7 ++ encGuard g ++ 0#6 ++ a ++ 0#9
  | .rseal g a => 0x25#7 ++ encGuard g ++ 0#6 ++ a ++ 0#9
  | .rdrop g a => 0x26#7 ++ encGuard g ++ 0#6 ++ a ++ 0#9
  | .jcpush g a => 0x27#7 ++ encGuard g ++ 0#6 ++ a ++ 0#9
  | .jcpop g d => 0x28#7 ++ encGuard g ++ d ++ 0#15
  | .snapst g a => 0x29#7 ++ encGuard g ++ 0#6 ++ a ++ 0#9
  | .snapld g a => 0x2a#7 ++ encGuard g ++ 0#6 ++ a ++ 0#9
  | .tlbinv g a b k => 0x2b#7 ++ encGuard g ++ 0#6 ++ a ++ b ++ k
  | .pref g a i => 0x2c#7 ++ encGuard g ++ 0#6 ++ a ++ 3#6 ++ i
  | .vadd g d a b => 0x01#7 ++ encGuard g ++ d ++ a ++ b
  | .vsub g d a b => 0x02#7 ++ encGuard g ++ d ++ a ++ b
  | .vmul g d a b => 0x03#7 ++ encGuard g ++ d ++ a ++ b
  | .vfma g d a b => 0x04#7 ++ encGuard g ++ d ++ a ++ b
  | .vfms g d a b => 0x05#7 ++ encGuard g ++ d ++ a ++ b
  | .vmin g d a b => 0x06#7 ++ encGuard g ++ d ++ a ++ b
  | .vmax g d a b => 0x07#7 ++ encGuard g ++ d ++ a ++ b
  | .vabs g d a => 0x08#7 ++ encGuard g ++ d ++ a ++ 0#7
  | .vneg g d a => 0x09#7 ++ encGuard g ++ d ++ a ++ 0#7
  | .vand g d a b => 0x0a#7 ++ encGuard g ++ d ++ a ++ b
  | .vor g d a b => 0x0b#7 ++ encGuard g ++ d ++ a ++ b
  | .vxor g d a b => 0x0c#7 ++ encGuard g ++ d ++ a ++ b
  | .vshl g d a b => 0x0d#7 ++ encGuard g ++ d ++ a ++ b
  | .vshr g d a b => 0x0e#7 ++ encGuard g ++ d ++ a ++ b
  | .vsra g d a b => 0x0f#7 ++ encGuard g ++ d ++ a ++ b
  | .vqadd g d a b => 0x10#7 ++ encGuard g ++ d ++ a ++ b
  | .vqsub g d a b => 0x11#7 ++ encGuard g ++ d ++ a ++ b
  | .vmulh g d a b => 0x12#7 ++ encGuard g ++ d ++ a ++ b
  | .vceq g d a b => 0x13#7 ++ encGuard g ++ d ++ a ++ b
  | .vclt g d a b => 0x14#7 ++ encGuard g ++ d ++ a ++ b
  | .vcle g d a b => 0x15#7 ++ encGuard g ++ d ++ a ++ b
  | .vcltu g d a b => 0x16#7 ++ encGuard g ++ d ++ a ++ b
  | .vsel g d a b => 0x17#7 ++ encGuard g ++ d ++ a ++ b
  | .vmov g d a => 0x18#7 ++ encGuard g ++ d ++ a ++ 0#7
  | .vbc g d a => 0x19#7 ++ encGuard g ++ d ++ a ++ 0#8
  | .viota g d => 0x1a#7 ++ encGuard g ++ d ++ 0#14
  | .vrowsh g d a i => 0x1b#7 ++ encGuard g ++ d ++ a ++ i
  | .vcolsh g d a i => 0x1c#7 ++ encGuard g ++ d ++ a ++ i
  | .vesh g d a i => 0x1d#7 ++ encGuard g ++ d ++ a ++ i
  | .vrot g d a i => 0x1e#7 ++ encGuard g ++ d ++ a ++ i
  | .vtrn g d a => 0x1f#7 ++ encGuard g ++ d ++ a ++ 0#7
  | .vcvt g d a o f => 0x20#7 ++ encGuard g ++ d ++ a ++ o ++ f
  | .vpack3 g d a => 0x21#7 ++ encGuard g ++ d ++ a ++ 0#7
  | .vunp3 g d a => 0x22#7 ++ encGuard g ++ d ++ a ++ 0#7
  | .vcmpr g d a => 0x23#7 ++ encGuard g ++ d ++ a ++ 0#7
  | .vscl g d a b => 0x24#7 ++ encGuard g ++ d ++ a ++ b
  | .vget g d a e => 0x25#7 ++ encGuard g ++ d ++ a ++ e
  | .vput g d a e => 0x26#7 ++ encGuard g ++ d ++ a ++ e
  | .fexp2 g d a => 0x01#7 ++ encGuard g ++ d ++ a ++ 0#7
  | .flog2 g d a => 0x02#7 ++ encGuard g ++ d ++ a ++ 0#7
  | .frecip g d a => 0x03#7 ++ encGuard g ++ d ++ a ++ 0#7
  | .frsqrt g d a => 0x04#7 ++ encGuard g ++ d ++ a ++ 0#7
  | .fsqrt g d a => 0x05#7 ++ encGuard g ++ d ++ a ++ 0#7
  | .ftanh g d a => 0x06#7 ++ encGuard g ++ d ++ a ++ 0#7
  | .fsigm g d a => 0x07#7 ++ encGuard g ++ d ++ a ++ 0#7
  | .fsin g d a => 0x08#7 ++ encGuard g ++ d ++ a ++ 0#7
  | .fcos g d a => 0x09#7 ++ encGuard g ++ d ++ a ++ 0#7
  | .fdiv g d a b => 0x0a#7 ++ encGuard g ++ d ++ a ++ b
  | .qadd g q a x => 0x01#7 ++ encGuard g ++ q ++ a ++ x ++ 0#10
  | .qmax g q a x => 0x02#7 ++ encGuard g ++ q ++ a ++ x ++ 0#10
  | .qmin g q a x => 0x03#7 ++ encGuard g ++ q ++ a ++ x ++ 0#10
  | .qscan g q a x => 0x04#7 ++ encGuard g ++ q ++ a ++ x ++ 0#10
  | .qmov g d q => 0x05#7 ++ encGuard g ++ d ++ q ++ 0#12
  | .qclr g q => 0x06#7 ++ encGuard g ++ q ++ 0#19
  | .pacq g c => 0x01#7 ++ encGuard g ++ c ++ 0#20
  | .pwin g a => 0x02#7 ++ encGuard g ++ a ++ 0#15
  | .pfset g f a b => 0x03#7 ++ encGuard g ++ f ++ a ++ b ++ 0#6
  | .pstep g a b x y s l => 0x04#7 ++ encGuard g ++ a ++ b ++ x ++ y ++ s ++ l
  | .psteps g a b x y s l => 0x05#7 ++ encGuard g ++ a ++ b ++ x ++ y ++ s ++ l
  | .pshift g s => 0x06#7 ++ encGuard g ++ s ++ 0#17
  | .pload g t h c => 0x07#7 ++ encGuard g ++ t ++ h ++ c ++ 0#14
  | .pret g t h a o => 0x08#7 ++ encGuard g ++ t ++ h ++ a ++ o ++ 0#8
  | .prel g => 0x09#7 ++ encGuard g ++ 0#21
  | .hsend g d => 0x0a#7 ++ encGuard g ++ d ++ 0#19
  | .hadd g d => 0x0b#7 ++ encGuard g ++ d ++ 0#19
  | .hclr g d => 0x0c#7 ++ encGuard g ++ d ++ 0#17
  | .nlsend g t d => 0x0d#7 ++ encGuard g ++ t ++ d ++ 0#14
  | .nlrecv g t d => 0x0e#7 ++ encGuard g ++ t ++ d ++ 0#14
  | .quantumExpire _ => 0#32
  | .packetFill _ => 0#32
  | .sequentialPrefetch _ _ => 0#32
  | .remoteOperandRequest _ _ _ _ => 0#32
  | .tileWriteComplete _ _ => 0#32
  | .huskStripTransfer _ _ => 0#32
  | .nlStreamTransfer _ _ => 0#32
  | .linkDown _ => 0#32
  | .transferComplete _ => 0#32
  | .apertureStore _ => 0#32
  | .copyComplete _ => 0#32
  | .gatherRowArrive _ => 0#32
  | .heldStorePerform _ => 0#32
  | .reg _ => 0#32
  | .grant _ => 0#32
  | .revoke _ => 0#32
  | .fdata _ => 0#32
  | .read _ => 0#32
  | .fwd _ => 0#32
  | .data _ => 0#32
  | .wb _ => 0#32
  | .retry _ => 0#32
  | .gone _ => 0#32
  | .lostReply _ => 0#32
  | .bypassWrite _ => 0#32
  | .atomicAtHome _ => 0#32
  | .unpriv _ _ => 0#32
  | .unprivAck _ _ => 0#32
  | .hotLineReplicate _ => 0#32
  | .atomscSend _ => 0#32
  | .atomscArrive _ => 0#32
  | .atomscApply _ => 0#32
  | .atomscReply _ _ => 0#32
  | .walkComplete _ => 0#32
  | .regrowRequest _ => 0#32
  | .sliceStart _ => 0#32
  | .lzresMsg _ => 0#32
  | .lzans _ => 0#32
  | .lzpkt _ => 0#32
  | .lzack _ => 0#32
  | .lzabort _ => 0#32
  | .lzSlotTimeout _ _ _ => 0#32
  | .lzresQueueTimeout _ _ => 0#32
  | .lzresAnswerTimeout _ => 0#32
  | .lzpktResendTimeout _ => 0#32
  | .lzresResendTimeout _ => 0#32
  | .rd _ => 0#32
  | .rdrsp _ => 0#32
  | .wr _ => 0#32
  | .wrack _ => 0#32
  | .atomMsg _ => 0#32
  | .atomrsp _ => 0#32
  | .tlbinvMsg _ => 0#32
  | .tlback _ => 0#32
  | .nativeRequestTimeout _ => 0#32
  | .unlistedMessage _ => 0#32
  | .hostRead _ => 0#32
  | .hostWrite _ => 0#32
  | .hostSnoop _ _ => 0#32
  | .bisnpResponse _ _ => 0#32
  | .hostSnoopTimeout _ => 0#32
  | .spdmRequest _ _ _ => 0#32
  | .windowStore _ _ => 0#32
  | .launchSeal _ => 0#32
  | .bindRecord _ => 0#32
  | .classifierWindowEnd _ => 0#32
  | .launchComplete _ => 0#32
  | .jobCardReady _ => 0#32
  | .jobCardSteal _ _ => 0#32
  | .frameTickAdvance _ => 0#32
  | .releaseTick _ _ => 0#32
  | .deadlineSlip _ _ => 0#32
  | .slipEnd _ => 0#32
  | .powerSample _ => 0#32
  | .powerStallEnd => 0#32
  | .preemptRequest _ => 0#32
  | .preemptGrant _ => 0#32
  | .strandRestore _ _ => 0#32
  | .errorFreeze _ => 0#32
  | .coreHardwareStop _ => 0#32
  | .pllLossOfLock _ => 0#32
  | .powerOn _ => 0#32
  | .i3cReadBlackBox _ => 0#32
  | .i3cReadPowerSamples => 0#32
  | .i3cReadBringupStatus => 0#32
  | .i3cWritePowerCap _ => 0#32
  | .createAsid _ => 0#32
  | .bindQueue _ => 0#32
  | .unbindQueue _ => 0#32
  | .unbindQueueDone _ => 0#32
  | .mapAccessGroup _ => 0#32
  | .setRegion _ => 0#32
  | .setRights _ => 0#32
  | .definePartition _ => 0#32
  | .setProtection _ => 0#32
  | .defineReservationClass _ => 0#32
  | .defineHostRange _ => 0#32
  | .flipBias _ => 0#32
  | .biasFlipEnd _ => 0#32
  | .tearDown _ => 0#32
  | .scrubPage _ _ => 0#32
  | .restoreLink _ _ => 0#32
  | .updateFirmware _ _ => 0#32
  | .setNode _ => 0#32
  | .writeRouteEntry _ => 0#32
  | .queueStatus _ => 0#32
  | .unknownCommand _ => 0#32
  | .emptyBundle => 0#32
  | .reservedEncoding _ => 0#32
  | .slotZeroFillComplete _ _ _ => 0#32
  | .mailboxStore _ => 0#32
  | .cxlCacheResponse _ _ _ => 0#32
  | .snapfitQuery _ => 0#32
  | .powerLoss => 0#32

/-- The kind of slot an instruction's word stands in, by its first mask bit; 11 for a step without a
word. -/
def slotKind : Instr → Nat
  | .br .. => 0
  | .bri .. => 0
  | .call .. => 0
  | .calli .. => 0
  | .ret .. => 0
  | .loop .. => 0
  | .loopi .. => 0
  | .endStrand .. => 0
  | .yield .. => 0
  | .waitid .. => 0
  | .waitt .. => 0
  | .bar .. => 0
  | .rdv .. => 0
  | .fence .. => 0
  | .lzwait .. => 0
  | .spawn .. => 0
  | .trap .. => 0
  | .tret .. => 0
  | .snaprel .. => 0
  | .holdret .. => 0
  | .rdone .. => 0
  | .add .. => 1
  | .sub .. => 1
  | .and .. => 1
  | .or .. => 1
  | .xor .. => 1
  | .andn .. => 1
  | .shl .. => 1
  | .shr .. => 1
  | .sra .. => 1
  | .min .. => 1
  | .max .. => 1
  | .minu .. => 1
  | .maxu .. => 1
  | .mul .. => 1
  | .mulh .. => 1
  | .mulhu .. => 1
  | .mad .. => 1
  | .div .. => 1
  | .divu .. => 1
  | .rem .. => 1
  | .remu .. => 1
  | .clz .. => 1
  | .popc .. => 1
  | .bfx .. => 1
  | .bfi .. => 1
  | .sel .. => 1
  | .addx .. => 1
  | .sext .. => 1
  | .zext .. => 1
  | .addi .. => 1
  | .andi .. => 1
  | .ori .. => 1
  | .xori .. => 1
  | .shli .. => 1
  | .shri .. => 1
  | .srai .. => 1
  | .movi .. => 1
  | .ldk .. => 1
  | .cmp .. => 1
  | .cmpi .. => 1
  | .plog .. => 1
  | .movc .. => 1
  | .movtc .. => 1
  | .movtcShape .. => 1
  | .movtcFflags .. => 1
  | .movtcRmode .. => 1
  | .movtcLfsr .. => 1
  | .movtcLc .. => 1
  | .movtcGqt .. => 1
  | .movtcCerr .. => 1
  | .movtcSnapbase .. => 1
  | .ld .. => 3
  | .lds .. => 3
  | .st .. => 3
  | .lda .. => 3
  | .strel .. => 3
  | .atom .. => 3
  | .aswap .. => 3
  | .acas .. => 3
  | .atomsc .. => 3
  | .invr .. => 3
  | .wbr .. => 3
  | .own .. => 3
  | .vld .. => 3
  | .vst .. => 3
  | .vlds .. => 3
  | .vsts .. => 3
  | .tld .. => 3
  | .tst .. => 3
  | .tcpy .. => 3
  | .tdesc .. => 3
  | .gpush .. => 3
  | .gpop .. => 3
  | .spush .. => 3
  | .cbget .. => 3
  | .cbput .. => 3
  | .cbtake .. => 3
  | .cbgive .. => 3
  | .lzres .. => 3
  | .tstx .. => 3
  | .lzarm .. => 3
  | .lzrel .. => 3
  | .lzstat .. => 3
  | .lzclean .. => 3
  | .rdecl .. => 3
  | .rpin .. => 3
  | .runpin .. => 3
  | .rseal .. => 3
  | .rdrop .. => 3
  | .jcpush .. => 3
  | .jcpop .. => 3
  | .snapst .. => 3
  | .snapld .. => 3
  | .tlbinv .. => 3
  | .pref .. => 3
  | .vadd .. => 5
  | .vsub .. => 5
  | .vmul .. => 5
  | .vfma .. => 5
  | .vfms .. => 5
  | .vmin .. => 5
  | .vmax .. => 5
  | .vabs .. => 5
  | .vneg .. => 5
  | .vand .. => 5
  | .vor .. => 5
  | .vxor .. => 5
  | .vshl .. => 5
  | .vshr .. => 5
  | .vsra .. => 5
  | .vqadd .. => 5
  | .vqsub .. => 5
  | .vmulh .. => 5
  | .vceq .. => 5
  | .vclt .. => 5
  | .vcle .. => 5
  | .vcltu .. => 5
  | .vsel .. => 5
  | .vmov .. => 5
  | .vbc .. => 5
  | .viota .. => 5
  | .vrowsh .. => 5
  | .vcolsh .. => 5
  | .vesh .. => 5
  | .vrot .. => 5
  | .vtrn .. => 5
  | .vcvt .. => 5
  | .vpack3 .. => 5
  | .vunp3 .. => 5
  | .vcmpr .. => 5
  | .vscl .. => 5
  | .vget .. => 5
  | .vput .. => 5
  | .fexp2 .. => 8
  | .flog2 .. => 8
  | .frecip .. => 8
  | .frsqrt .. => 8
  | .fsqrt .. => 8
  | .ftanh .. => 8
  | .fsigm .. => 8
  | .fsin .. => 8
  | .fcos .. => 8
  | .fdiv .. => 8
  | .qadd .. => 9
  | .qmax .. => 9
  | .qmin .. => 9
  | .qscan .. => 9
  | .qmov .. => 9
  | .qclr .. => 9
  | .pacq .. => 10
  | .pwin .. => 10
  | .pfset .. => 10
  | .pstep .. => 10
  | .psteps .. => 10
  | .pshift .. => 10
  | .pload .. => 10
  | .pret .. => 10
  | .prel .. => 10
  | .hsend .. => 10
  | .hadd .. => 10
  | .hclr .. => 10
  | .nlsend .. => 10
  | .nlrecv .. => 10
  | .quantumExpire .. => 11
  | .packetFill .. => 11
  | .sequentialPrefetch .. => 11
  | .remoteOperandRequest .. => 11
  | .tileWriteComplete .. => 11
  | .huskStripTransfer .. => 11
  | .nlStreamTransfer .. => 11
  | .linkDown .. => 11
  | .transferComplete .. => 11
  | .apertureStore .. => 11
  | .copyComplete .. => 11
  | .gatherRowArrive .. => 11
  | .heldStorePerform .. => 11
  | .reg .. => 11
  | .grant .. => 11
  | .revoke .. => 11
  | .fdata .. => 11
  | .read .. => 11
  | .fwd .. => 11
  | .data .. => 11
  | .wb .. => 11
  | .retry .. => 11
  | .gone .. => 11
  | .lostReply .. => 11
  | .bypassWrite .. => 11
  | .atomicAtHome .. => 11
  | .unpriv .. => 11
  | .unprivAck .. => 11
  | .hotLineReplicate .. => 11
  | .atomscSend .. => 11
  | .atomscArrive .. => 11
  | .atomscApply .. => 11
  | .atomscReply .. => 11
  | .walkComplete .. => 11
  | .regrowRequest .. => 11
  | .sliceStart .. => 11
  | .lzresMsg .. => 11
  | .lzans .. => 11
  | .lzpkt .. => 11
  | .lzack .. => 11
  | .lzabort .. => 11
  | .lzSlotTimeout .. => 11
  | .lzresQueueTimeout .. => 11
  | .lzresAnswerTimeout .. => 11
  | .lzpktResendTimeout .. => 11
  | .lzresResendTimeout .. => 11
  | .rd .. => 11
  | .rdrsp .. => 11
  | .wr .. => 11
  | .wrack .. => 11
  | .atomMsg .. => 11
  | .atomrsp .. => 11
  | .tlbinvMsg .. => 11
  | .tlback .. => 11
  | .nativeRequestTimeout .. => 11
  | .unlistedMessage .. => 11
  | .hostRead .. => 11
  | .hostWrite .. => 11
  | .hostSnoop .. => 11
  | .bisnpResponse .. => 11
  | .hostSnoopTimeout .. => 11
  | .spdmRequest .. => 11
  | .windowStore .. => 11
  | .launchSeal .. => 11
  | .bindRecord .. => 11
  | .classifierWindowEnd .. => 11
  | .launchComplete .. => 11
  | .jobCardReady .. => 11
  | .jobCardSteal .. => 11
  | .frameTickAdvance .. => 11
  | .releaseTick .. => 11
  | .deadlineSlip .. => 11
  | .slipEnd .. => 11
  | .powerSample .. => 11
  | .powerStallEnd .. => 11
  | .preemptRequest .. => 11
  | .preemptGrant .. => 11
  | .strandRestore .. => 11
  | .errorFreeze .. => 11
  | .coreHardwareStop .. => 11
  | .pllLossOfLock .. => 11
  | .powerOn .. => 11
  | .i3cReadBlackBox .. => 11
  | .i3cReadPowerSamples .. => 11
  | .i3cReadBringupStatus .. => 11
  | .i3cWritePowerCap .. => 11
  | .createAsid .. => 11
  | .bindQueue .. => 11
  | .unbindQueue .. => 11
  | .unbindQueueDone .. => 11
  | .mapAccessGroup .. => 11
  | .setRegion .. => 11
  | .setRights .. => 11
  | .definePartition .. => 11
  | .setProtection .. => 11
  | .defineReservationClass .. => 11
  | .defineHostRange .. => 11
  | .flipBias .. => 11
  | .biasFlipEnd .. => 11
  | .tearDown .. => 11
  | .scrubPage .. => 11
  | .restoreLink .. => 11
  | .updateFirmware .. => 11
  | .setNode .. => 11
  | .writeRouteEntry .. => 11
  | .queueStatus .. => 11
  | .unknownCommand .. => 11
  | .emptyBundle .. => 11
  | .reservedEncoding .. => 11
  | .slotZeroFillComplete .. => 11
  | .mailboxStore .. => 11
  | .cxlCacheResponse .. => 11
  | .snapfitQuery .. => 11
  | .powerLoss .. => 11

/-- The instruction a word of the opcode table stands for when no slot is named: the first slot kind
that accepts it, in the order A, M, X, C, F, Q, P (log entry 20). Every instruction word has 32 bits. -/
def decodeTableWord (nbits w : Nat) : Option Instr :=
  if nbits = 32 then
    let x := BitVec.ofNat 32 w
    [1, 3, 5, 0, 8, 9, 10].findSome? fun slot => decodeSlot slot x
  else none

end Sys2Proof
end

