-- ==== Sys2Proof/Config.lean ====
section
/-! DEFINITION. What the spec leaves open and one implementation, or one moment, decides: constants
without a body, so that nothing proved here rests on a value of them. -/

namespace Sys2Proof.Config

/-- Which of the agents that can move moves next (R96 and R333 bound only the time): applied to the
step counter (log entry 5). -/
opaque pick : Nat → Nat

/-- How many cycles beyond one a step takes: timing is outside the model (log entry 8). -/
opaque elapse : Nat → Nat

/-- How many corrections a core's storage makes in a step (R354, R355): applied to the step counter
(log entry 9). -/
opaque corrections : Nat → Nat

/-- Where the correction that a step counts at a core was made (R355): applied as `corrections` is (log entry 9). -/
opaque correctedAt : Nat → Nat

/-- Whether the commit signatures of a pair differ for the bundle that the step issues (R361): applied to the step
counter (log entry 88). -/
opaque twinDiffers : Nat → Bool

/-- Whether a tie of RNE goes up in a format that has no fraction bit (R77 names the last fraction
bit): applied to the format code and the magnitude below (log entry 11). -/
opaque tieUp : BitVec 6 → Nat → Bool

/-- The correctly rounded value of a transcendental function where the model's interval evaluation
does not decide it: applied to the function's op7, the format code and the input's pattern (log entry
12). -/
opaque elementary : Nat → BitVec 6 → Word → Word

/-- The hash that picks among a route entry's ports that are up (R375), applied to the line address or
the target word (log entry 14). -/
opaque portHash : Nat → Nat

/-- The hash that picks a job card's core (R321), applied to the first operand's line address (log
entry 14). -/
opaque cardHash : Nat → Nat

/-- Which of its remaining elements a copy performs next (R223): applied to the copy's number and to how many
remain (log entry 15). -/
opaque nextElem : Nat → Nat → Nat

/-- Which bytes an engine moves next, and how many (R203): applied to three numbers for each step (log entry 13). -/
opaque grain : Nat → Nat

/-- Whether a copy that met an error has written a later element (R225): applied to the copy's number and the
element's index (log entry 15). -/
opaque laterWritten : Nat → Nat → Bool

/-- Whether an engine or a home evicts a line when it may (R251, R256): applied to the step counter
(log entry 16). -/
opaque evicts : Nat → Bool

/-- Whether a slice gives a registered line up, revoking its owners (R251): applied to the step counter (log entry
16). -/
opaque sliceEvicts : Nat → Bool

/-- Whether an RDROP reaches its tile's home, or a drop the home of a line (R288, R403): applied to the step counter
and to the tile's place among the drops, or to the line (log entry 106). -/
opaque dropArrives : Nat → Nat → Bool

/-- The SM2 signature of the device over an SPDM answer (R378), applied to the measurement (log entry
17). -/
opaque sm2 : Nat → Nat

/-- The SM3 digest of an image or of a measurement's content (R377, R378), applied to that content as a number (log
entry 17). -/
opaque sm3 : Nat → Nat

/-- The sequence number that LSEQ shows for a launch submitted by SPAWN (R317, R318): applied to the
launch's number (log entry 36). -/
opaque spawnSeq : Nat → BitVec 7

/-- What a host reads of a word that is LOST or uncorrectable (R260, R369): applied to the step counter and the
word's key (log entry 96). -/
opaque hostLost : Nat → Nat → Word

/-- Whether a scrubbed page reads back without an uncorrectable error, and a link's retraining succeeds (R364): applied to
the step counter (log entry 37). -/
opaque readBackOk : Nat → Bool
opaque trained : Nat → Bool

/-- The digest of the public key that the fuses hold, and the check of an SM2 signature against it (R377): applied to the
key's digest, the image's SM3 digest and the image, which carries its signature (log entry 37). -/
opaque fuseKey : Nat
opaque sm2Verifies : Nat → Nat → List Byte → Bool

end Sys2Proof.Config
end

