-- ==== Sys2Proof/Machine/Map.lean ====
section
/-! DEFINITION. A table from numbers to values as plain data: a list of pairs in one canonical form,
keys strictly rising and no pair equal to what an unlisted key reads as. -/

namespace Sys2Proof.Machine

/-- A table whose unlisted keys read as a value that each reader names. -/
abbrev Map (α : Type) := List (Nat × α)

/-- Read key `k`; an unlisted key reads `d`. -/
def Map.get {α : Type} (d : α) : Map α → Nat → α
  | [], _ => d
  | (j, w) :: t, k => if j = k then w else Map.get d t k

/-- Remove key `k`. -/
def Map.del {α : Type} : Map α → Nat → Map α
  | [], _ => []
  | (j, w) :: t, k => if j = k then Map.del t k else (j, w) :: Map.del t k

/-- Set key `k` to `v`, keeping the keys rising. -/
def Map.ins {α : Type} : Map α → Nat → α → Map α
  | [], k, v => [(k, v)]
  | (j, w) :: t, k, v =>
    if j < k then (j, w) :: Map.ins t k v
    else if j = k then (k, v) :: t
    else (k, v) :: (j, w) :: t

/-- Write key `k`: the value that unlisted keys read as removes the pair. -/
def Map.put {α : Type} [DecidableEq α] (d : α) (m : Map α) (k : Nat) (v : α) : Map α :=
  if v = d then Map.del m k else Map.ins m k v

/-- The keys rise strictly from above `lo`, and no pair holds `d`. -/
def Map.wfFrom {α : Type} [DecidableEq α] (d : α) : Nat → Map α → Bool
  | _, [] => true
  | lo, (j, w) :: t => decide (lo ≤ j) && decide (w ≠ d) && Map.wfFrom d (j + 1) t

/-- The canonical form. -/
def Map.wf {α : Type} [DecidableEq α] (d : α) (m : Map α) : Bool := Map.wfFrom d 0 m

end Sys2Proof.Machine
end

