-- ==== Sys2Proof/Machine/Flags.lean ====
section
/-! DEFINITION. Number formats, exact values, the one rounding and every flag it computes (R67 to R91),
and the elementary functions of the F slot (R142, R143). -/

namespace Sys2Proof.Machine

/-! ## Flags -/

/-- FFLAGS bits (R90). -/
abbrev Flags := BitVec 7

def flagNV : Flags := 0x01
def flagDZ : Flags := 0x02
def flagOF : Flags := 0x04
def flagUF : Flags := 0x08
def flagNX : Flags := 0x10
def flagSAT : Flags := 0x20
def flagTERN : Flags := 0x40

/-- A flag when a condition holds. -/
def flagIf (c : Bool) (f : Flags) : Flags := if c then f else 0

/-! ## Formats -/

/-- A floating format (R71 to R74): precision with the hidden bit, bias, sign bit, infinities, width,
and whether it is one of the binary8 family. -/
structure FltFmt where
  p : Nat
  bias : Int
  signed : Bool
  inf : Bool
  b8 : Bool
  w : Nat
  deriving DecidableEq, Repr

/-- The classes of format codes (R68, R131). -/
inductive Fmt where
  | int (w : Nat) (signed : Bool)
  | tern
  | flt (f : FltFmt)
  deriving DecidableEq, Repr

def bf16 : FltFmt := ⟨8, 127, true, true, false, 16⟩
def fp16 : FltFmt := ⟨11, 15, true, true, false, 16⟩
def fp32 : FltFmt := ⟨24, 127, true, true, false, 32⟩

/-- Binary8 of precision `p` (R72, R73). -/
def binary8 (p : Nat) (signed inf : Bool) : FltFmt :=
  ⟨p, (2 : Int) ^ ((if signed then 7 else 8) - p), signed, inf, true, 8⟩

/-- The format a code names (R68); a reserved code, which every reader refuses first, reads as INT8. -/
def fmtOf (c : BitVec 6) : Fmt :=
  let n := c.toNat
  if n = 1 then .int 8 false
  else if n = 2 then .int 16 true
  else if n = 3 then .int 16 false
  else if n = 4 then .int 32 true
  else if n = 5 then .int 32 false
  else if n = 6 then .int 4 true
  else if n = 7 then .tern
  else if n = 8 then .flt bf16
  else if n = 9 then .flt fp16
  else if n = 10 then .flt fp32
  else if 0x10 ≤ n ∧ n < 0x30 ∧ n % 8 ≠ 7 then
    .flt (binary8 (n % 8 + 1) (decide (n < 0x20)) (decide (n / 8 % 2 = 1)))
  else .int 8 true

/-- Element width in bits; TERN elements have no width of their own (R69). -/
def Fmt.width : Fmt → Nat
  | .int w _ => w
  | .tern => 0
  | .flt f => f.w

/-- Bytes that `n` packed elements occupy (R69). -/
def fmtBytes (f : Fmt) (n : Nat) : Nat :=
  match f with
  | .tern => (n + 4) / 5
  | .int 4 _ => (n + 1) / 2
  | _ => n * (f.width / 8)

/-! ## Exact values -/

/-- A number read exactly: NaN, an infinity, or (−1)^neg · m · 2^e (R71 to R75). -/
inductive Val where
  | nan
  | inf (neg : Bool)
  | fin (neg : Bool) (m : Nat) (e : Int)
  deriving DecidableEq, Repr

/-- The exponent of a unit in the last place of the subnormals. -/
def FltFmt.qmin (f : FltFmt) : Int := 1 - f.bias - ((f.p : Int) - 1)

/-- The finite magnitude that exponent and fraction code `k` stands for (R71). -/
def FltFmt.magnitude (f : FltFmt) (k : Nat) : Nat × Int :=
  let h := 2 ^ (f.p - 1)
  if k < h then (k, f.qmin) else (k % h + h, f.qmin + ((k / h : Nat) : Int) - 1)

/-- The code of the largest finite magnitude (R72 to R74). -/
def FltFmt.maxCode (f : FltFmt) : Nat :=
  if f.b8 then
    if f.signed then (if f.inf then 0x7E else 0x7F) else (if f.inf then 0xFD else 0xFE)
  else 2 ^ (f.w - 1) - 2 ^ (f.p - 1) - 1

/-- The canonical NaN (R72 to R75). -/
def FltFmt.nanBits (f : FltFmt) : Nat :=
  if f.b8 then (if f.signed then 0x80 else 0xFF)
  else 2 ^ (f.w - 1) - 2 ^ (f.p - 2)

/-- The pattern of an infinity, for a format that has one. -/
def FltFmt.infBits (f : FltFmt) (neg : Bool) : Nat :=
  f.maxCode + 1 + (if neg then 2 ^ (f.w - 1) else 0)

/-- The pattern of a magnitude code with a sign; signed binary8 has one zero (R72, R75). -/
def FltFmt.pattern (f : FltFmt) (neg : Bool) (k : Nat) : Nat :=
  if !neg || !f.signed || (f.b8 && decide (k = 0)) then k else k + 2 ^ (f.w - 1)

/-- Read a pattern of a floating format (R71 to R75). -/
def FltFmt.read (f : FltFmt) (bits : Nat) : Val :=
  let x := bits % 2 ^ f.w
  if f.b8 then
    if x = f.nanBits then .nan
    else
      let neg := f.signed && decide (128 ≤ x)
      let k := if f.signed then x % 128 else x
      if f.inf && decide (k = f.maxCode + 1) then .inf neg
      else .fin neg (f.magnitude k).1 (f.magnitude k).2
  else
    let neg := decide (2 ^ (f.w - 1) ≤ x)
    let k := x % 2 ^ (f.w - 1)
    if k = f.maxCode + 1 then .inf neg
    else if f.maxCode + 1 < k then .nan
    else .fin neg (f.magnitude k).1 (f.magnitude k).2

/-- Read a pattern as a signed or unsigned integer of `w` bits. -/
def readInt (w : Nat) (signed : Bool) (bits : Nat) : Int :=
  let x := bits % 2 ^ w
  if signed && decide (2 ^ (w - 1) ≤ x) then (x : Int) - 2 ^ w else x

/-- An integer as an exact value. -/
def Val.ofInt (i : Int) : Val := .fin (decide (i < 0)) i.natAbs 0

/-- A trit's value (R70). -/
def tritVal (t : Nat) : Int := if t = 1 then 1 else if t = 2 then -1 else 0

/-- Read an element's pattern exactly; a TERN element's pattern is its trit code (R68 to R75). -/
def Fmt.read (f : Fmt) (bits : Nat) : Val :=
  match f with
  | .int w sg => .ofInt (readInt w sg bits)
  | .tern => .ofInt (tritVal bits)
  | .flt g => g.read bits

/-! ## Exact arithmetic -/

/-- m₁·2^e₁ and m₂·2^e₂ over one exponent, as signed integers. -/
def align (n₁ : Bool) (m₁ : Nat) (e₁ : Int) (n₂ : Bool) (m₂ : Nat) (e₂ : Int) : Int × Int × Int :=
  let e := min e₁ e₂
  let a : Int := (m₁ : Int) * 2 ^ (e₁ - e).toNat
  let b : Int := (m₂ : Int) * 2 ^ (e₂ - e).toNat
  (if n₁ then -a else a, if n₂ then -b else b, e)

/-- The exact sum; `rdn` settles the sign of an exact zero (R75, IEEE 754); the flag is NV for ∞ − ∞. -/
def Val.add (rdn : Bool) : Val → Val → Val × Flags
  | .nan, _ => (.nan, 0)
  | _, .nan => (.nan, 0)
  | .inf a, .inf b => if a = b then (.inf a, 0) else (.nan, flagNV)
  | .inf a, .fin .. => (.inf a, 0)
  | .fin .., .inf b => (.inf b, 0)
  | .fin n₁ m₁ e₁, .fin n₂ m₂ e₂ =>
    if m₁ = 0 ∧ m₂ = 0 then
      (.fin (if n₁ = n₂ then n₁ else rdn) 0 0, 0)
    else
      let (a, b, e) := align n₁ m₁ e₁ n₂ m₂ e₂
      let s := a + b
      if s = 0 then (.fin rdn 0 0, 0) else (.fin (decide (s < 0)) s.natAbs e, 0)

/-- The exact product; NV for 0 × ∞. -/
def Val.mul : Val → Val → Val × Flags
  | .nan, _ => (.nan, 0)
  | _, .nan => (.nan, 0)
  | .inf a, .inf b => (.inf (a != b), 0)
  | .inf a, .fin n m _ => if m = 0 then (.nan, flagNV) else (.inf (a != n), 0)
  | .fin n m _, .inf b => if m = 0 then (.nan, flagNV) else (.inf (n != b), 0)
  | .fin n₁ m₁ e₁, .fin n₂ m₂ e₂ => (.fin (n₁ != n₂) (m₁ * m₂) (e₁ + e₂), 0)

/-- The value with its sign flipped. -/
def Val.neg : Val → Val
  | .nan => .nan
  | .inf a => .inf (!a)
  | .fin n m e => .fin (!n) m e

/-- The value with its sign cleared. -/
def Val.abs : Val → Val
  | .nan => .nan
  | .inf _ => .inf false
  | .fin _ m e => .fin false m e

/-- x < y for numbers, with −0 below +0 when `zeros` is set; false when either is NaN. -/
def Val.lt (zeros : Bool) : Val → Val → Bool
  | .nan, _ => false
  | _, .nan => false
  | .inf a, .inf b => a && !b
  | .inf a, .fin .. => a
  | .fin .., .inf b => !b
  | .fin n₁ m₁ e₁, .fin n₂ m₂ e₂ =>
    if m₁ = 0 ∧ m₂ = 0 then zeros && n₁ && !n₂
    else
      let (a, b, _) := align n₁ m₁ e₁ n₂ m₂ e₂
      decide (a < b)

/-- Equality of numbers: +0 = −0, a NaN equals nothing (R133). -/
def Val.eq : Val → Val → Bool
  | .nan, _ => false
  | _, .nan => false
  | .inf a, .inf b => a == b
  | .inf _, .fin .. => false
  | .fin .., .inf _ => false
  | .fin n₁ m₁ e₁, .fin n₂ m₂ e₂ =>
    let (a, b, _) := align n₁ m₁ e₁ n₂ m₂ e₂
    decide (a = b)

/-- Minimum with NaN winning and −0 < +0 (R132, R145). -/
def Val.min (x y : Val) : Val :=
  match x, y with
  | .nan, _ => .nan
  | _, .nan => .nan
  | x, y => if y.lt true x then y else x

/-- Maximum with NaN winning and −0 < +0 (R132, R145). -/
def Val.max (x y : Val) : Val :=
  match x, y with
  | .nan, _ => .nan
  | _, .nan => .nan
  | x, y => if x.lt true y then y else x

/-! ## Rounding -/

/-- RMODE codes (R76). -/
def modeRNE : BitVec 3 := 0
def modeRTZ : BitVec 3 := 1
def modeRUP : BitVec 3 := 2
def modeRDN : BitVec 3 := 3
def modeRNA : BitVec 3 := 4
def modeSR : BitVec 3 := 5

/-- Whether the magnitude m·2^(−sh), cut to its integer part, goes up by one (R77, R80): `sticky` says
that the exact magnitude lies above m; `odd` says the last fraction bit is 1; `u` is the draw. -/
def roundUp (mode : BitVec 3) (neg : Bool) (m sh : Nat) (sticky : Bool) (odd : Bool) (u : Word) : Bool :=
  let r := m % 2 ^ sh
  if r = 0 ∧ !sticky then false
  else
    let above := decide (2 ^ sh < 2 * r) || (decide (2 * r = 2 ^ sh) && sticky)
    let tie := decide (2 * r = 2 ^ sh) && !sticky
    if mode = modeRTZ then false
    else if mode = modeRUP then !neg
    else if mode = modeRDN then neg
    else if mode = modeRNA then above || tie
    else if mode = modeSR then
      if neg then
        let d := (2 ^ sh - r) * 2 ^ 32 / 2 ^ sh
        !decide (u.toNat < d)
      else decide (u.toNat < r * 2 ^ 32 / 2 ^ sh)
    else above || (tie && odd)

/-- How a conversion settles a result beyond the largest finite value (R78). -/
inductive Overflow where
  | sat | ovf
  deriving DecidableEq, Repr

/-- The result of an overflow, or of an infinite input when `input` is set (R78). -/
def FltFmt.over (f : FltFmt) (o : Overflow) (mode : BitVec 3) (neg input : Bool) : Nat × Flags :=
  let big := f.pattern neg f.maxCode
  let fl := flagOF ||| flagNX
  if neg && !f.signed then
    match o with
    | .sat => (0, flagNX)
    | .ovf => (f.nanBits, flagNV)
  else
    match o with
    | .sat => (big, fl)
    | .ovf =>
      if !input && (mode = modeRTZ || (mode = modeRDN && !neg) || (mode = modeRUP && neg)) then
        (big, fl)
      else if f.inf then (f.infBits neg, if input then 0 else fl)
      else (f.nanBits, if input then flagNV else fl ||| flagNV)

/-- Round the non-zero magnitude m·2^e, or a little above it when `sticky` is set, into a floating
format (R77, R78, R80, R90). -/
def FltFmt.roundFin (f : FltFmt) (o : Overflow) (mode : BitVec 3) (u : Word) (code : BitVec 6)
    (neg : Bool) (m : Nat) (e : Int) (sticky : Bool) : Nat × Flags :=
  let q := max (e + (m.log2 : Int) + 1 - f.p) f.qmin
  -- below the unit the magnitude keeps at least two bits of remainder, so that `sticky` is one of them
  let pre : Nat := (e - q + 2).toNat
  let m' := m * 2 ^ pre
  let sh := (q - (e - pre)).toNat
  let n := m' / 2 ^ sh
  let inexact := sticky || decide (m' % 2 ^ sh ≠ 0)
  let odd := if f.p = 1 then Config.tieUp code n else decide (n % 2 = 1)
  let n' := if roundUp mode neg m' sh sticky odd u then n + 1 else n
  let k := (q - f.qmin).toNat * 2 ^ (f.p - 1) + n'
  if f.maxCode < k then f.over o mode neg false
  else if neg && !f.signed then
    if k = 0 then (0, flagNX ||| flagUF)
    else match o with
      | .sat => (0, flagNX)
      | .ovf => (f.nanBits, flagNV)
  else
    (f.pattern neg k,
      flagIf inexact flagNX ||| flagIf (inexact && decide (k < 2 ^ (f.p - 1))) flagUF)

/-- Round an exact value into a floating format: the pattern and the flags (R75, R77, R78, R90). -/
def FltFmt.round (f : FltFmt) (o : Overflow) (mode : BitVec 3) (u : Word) (code : BitVec 6)
    (x : Val) : Nat × Flags :=
  match x with
  | .nan => (f.nanBits, 0)
  | .inf neg => f.over o mode neg true
  | .fin neg m e =>
    if m = 0 then (f.pattern neg 0, 0) else f.roundFin o mode u code neg m e false

/-- Clamp an integer to the range of a format of `w` bits (R79, R85): the value and whether it changed. -/
def clampInt (w : Nat) (signed : Bool) (i : Int) : Int × Bool :=
  let lo : Int := if signed then -(2 ^ (w - 1)) else 0
  let hi : Int := if signed then 2 ^ (w - 1) - 1 else 2 ^ w - 1
  if i < lo then (lo, true) else if hi < i then (hi, true) else (i, false)

/-- The `w`-bit pattern of an integer. -/
def intBits (w : Nat) (i : Int) : Nat := (i % 2 ^ w).toNat

/-- Convert an exact value to an integer target (R79). A non-zero value that rounds to 0 sets NX and not UF (R90; log
entry 94). -/
def roundToInt (w : Nat) (signed : Bool) (mode : BitVec 3) (u : Word) (x : Val) : Nat × Flags :=
  let clampTo (i : Int) (inexact : Bool) : Nat × Flags :=
    let (v, c) := clampInt w signed i
    (intBits w v, flagIf c (flagSAT ||| flagNX) ||| flagIf inexact flagNX)
  match x with
  | .nan => (0, flagNV)
  | .inf neg => clampTo (if neg then -(2 ^ 64) else 2 ^ 64) false
  | .fin neg m e =>
    if 0 ≤ e then
      let i : Int := (m : Int) * 2 ^ e.toNat
      clampTo (if neg then -i else i) false
    else
      let sh := (-e).toNat
      let n := m / 2 ^ sh
      let n' := if roundUp mode neg m sh false (decide (n % 2 = 1)) u then n + 1 else n
      clampTo (if neg then -(n' : Int) else n') (decide (m % 2 ^ sh ≠ 0))

/-- Convert an exact value to any target but TERN (R78, R79, R137). -/
def Fmt.round (f : Fmt) (o : Overflow) (mode : BitVec 3) (u : Word) (code : BitVec 6) (x : Val) :
    Nat × Flags :=
  match f with
  | .int w sg => roundToInt w sg mode u x
  | .tern => (0, 0)
  | .flt g => g.round o mode u code x

/-- RNE into FP32, overflowing to ±∞ (R84, R145, R181). -/
def rneFp32 (x : Val) : Nat × Flags := fp32.round .ovf modeRNE 0 0x0A x

/-- One step of the draw register (R81). -/
def lfsrStep (l : Word) : Word :=
  let b := (l >>> 31) ^^^ (l >>> 21) ^^^ (l >>> 1) ^^^ l
  (l <<< 1) ||| (b &&& 1)

/-- The state after `n` draws. -/
def lfsrSteps : Nat → Word → Word
  | 0, l => l
  | n + 1, l => lfsrSteps n (lfsrStep l)

/-! ## Division and roots, with a sticky remainder -/

/-- Round num/den · 2^e, both positive, by RNE in overflow mode. -/
def FltFmt.roundRatio (f : FltFmt) (code : BitVec 6) (neg : Bool) (num den : Nat) (e : Int) :
    Nat × Flags :=
  let k := 40 + den.log2 + 1
  let n := num * 2 ^ k
  f.roundFin .ovf modeRNE 0 code neg (n / den) (e - k) (decide (n % den ≠ 0))

/-- The integer square root by binary search over `b` bits. -/
def isqrt : Nat → Nat → Nat → Nat
  | 0, _, r => r
  | b + 1, n, r =>
    let r' := r + 2 ^ b
    isqrt b n (if r' * r' ≤ n then r' else r)

/-- Round √(m·2^e), m positive, by RNE; the exponent is made even first. -/
def FltFmt.roundSqrt (f : FltFmt) (code : BitVec 6) (m : Nat) (e : Int) : Nat × Flags :=
  let (m, e) := if e % 2 = 0 then (m, e) else (m * 2, e - 1)
  let n := m * 2 ^ 80
  let r := isqrt (n.log2 / 2 + 1) n 0
  f.roundFin .ovf modeRNE 0 code false r (e / 2 - 40) (decide (r * r ≠ n))

/-- Round 1/√(m·2^e), m positive, by RNE. -/
def FltFmt.roundRsqrt (f : FltFmt) (code : BitVec 6) (m : Nat) (e : Int) : Nat × Flags :=
  let (m, e) := if e % 2 = 0 then (m, e) else (m * 2, e - 1)
  -- 1/√m = √(2^(2k)/m) / 2^k
  let k := 80 + m.log2
  let n := 2 ^ (2 * k) / m
  let r := isqrt (n.log2 / 2 + 1) n 0
  f.roundFin .ovf modeRNE 0 code false r (-(e / 2) - k) (decide (r * r * m ≠ 2 ^ (2 * k)))

/-! ## Elementary functions in fixed point

Values are integers over 2^256. Each series is summed until its terms vanish; what truncation loses
stays far below `slack` (log entry 12). -/

def fxBits : Nat := 256
def fxOne : Int := 2 ^ fxBits
def slack : Int := 2 ^ 40

def fxMul (a b : Int) : Int := a * b / fxOne

/-- Σ tⁿ/n! from term `n` on. -/
def expSeries : Nat → Nat → Int → Int → Int
  | 0, _, _, _ => 0
  | fuel + 1, n, t, term => term + expSeries fuel (n + 1) t (fxMul term t / (n + 1))

/-- Σ z^(2i+1)/(2i+1), z² given: the inverse hyperbolic tangent; with −z² the inverse tangent. -/
def atanhSeries : Nat → Nat → Int → Int → Int
  | 0, _, _, _ => 0
  | fuel + 1, n, z2, power => power / n + atanhSeries fuel (n + 2) z2 (fxMul power z2)

def ln2 : Int := 2 * atanhSeries 90 1 (fxOne / 9) (fxOne / 3)

/-- Σ of an alternating series with terms tⁿ/n! for n of one parity, from `n`: sine or cosine. -/
def trigSeries : Nat → Nat → Int → Int → Int
  | 0, _, _, _ => 0
  | fuel + 1, n, t2, term => term + trigSeries fuel (n + 2) t2 (-(fxMul term t2) / ((n + 1) * (n + 2)))

/-- Σ ±z^(2i+1)/(2i+1) over 2^600 for z = 1/k. -/
def atanInv : Nat → Nat → Int → Int → Int
  | 0, _, _, _ => 0
  | fuel + 1, n, k2, power => power / n - atanInv fuel (n + 2) k2 (power / k2)

/-- π over 2^600, by Machin's formula. -/
def pi600 : Int :=
  16 * atanInv 140 1 25 (2 ^ 600 / 5) - 4 * atanInv 50 1 57121 (2 ^ 600 / 239)

/-- m·2^e over 2^256, toward −∞. -/
def toFx (neg : Bool) (m : Nat) (e : Int) : Int :=
  let s := e + fxBits
  let v : Int := if 0 ≤ s then (m : Int) * 2 ^ s.toNat else (m : Int) / 2 ^ (-s).toNat
  if neg then -v else v

/-- Round an enclosure lo·2^e to hi·2^e of a positive irrational value by RNE: the pattern when both
ends agree, and the flags of an inexact result; an invalid one sets NV alone (R78, R143). -/
def FltFmt.enclose (f : FltFmt) (code : BitVec 6) (neg : Bool) (lo hi : Int) (e : Int) :
    Option (Nat × Flags) :=
  let a := f.roundFin .ovf modeRNE 0 code neg (max lo 1).toNat e true
  let b := f.roundFin .ovf modeRNE 0 code neg (max hi 1).toNat e true
  if a = b then some (a.1, if a.2 = flagNV then a.2 else a.2 ||| flagNX) else none

/-- 2^x over 2^256 for 0 ≤ t < 1 over 2^256. -/
def exp2Frac (t : Int) : Int := expSeries 80 0 (fxMul t ln2) fxOne

/-- log₂ of m·2^e over 2^256. -/
def log2Fx (m : Nat) (e : Int) : Int :=
  let l := m.log2
  let y : Int := (m : Int) * fxOne / 2 ^ l
  let z := (y - fxOne) * fxOne / (y + fxOne)
  ((l : Int) + e) * fxOne + 2 * atanhSeries 90 1 (fxMul z z) z * fxOne / ln2

/-- e^t for t over 2^256, |t| < 2^9: a mantissa over 2^256 and a power of two. -/
def expParts (t : Int) : Int × Int :=
  let y := t * fxOne / ln2
  let n := y / fxOne
  (exp2Frac (y - n * fxOne), n)

/-- The quadrant and the remainder over 2^256 of m·2^e against π/2 (R143: the reduction is exact). -/
def reduceTrig (m : Nat) (e : Int) : Nat × Int :=
  let x : Int := if 0 ≤ e then (m : Int) * 2 ^ e.toNat * 2 ^ 601 else (m : Int) * 2 ^ 601 / 2 ^ (-e).toNat
  let q := (2 * x + pi600) / (2 * pi600)
  let r := x - q * pi600
  ((q % 4).toNat, r / 2 ^ 345)

/-- sin of the remainder, or cos, over 2^256. -/
def trigOf (cosine : Bool) (r : Int) : Int :=
  let t2 := fxMul r r
  if cosine then trigSeries 45 0 t2 fxOne else trigSeries 45 1 t2 r

/-- A value of the model's fixed point, rounded with its sign; `none` where the enclosure is too wide. -/
def FltFmt.roundFx (f : FltFmt) (code : BitVec 6) (v : Int) : Option (Nat × Flags) :=
  let a : Int := v.natAbs
  f.enclose code (decide (v < 0)) (a - slack) (a + slack) (-(fxBits : Int))

/-- An odd function that lies within x³/2 below x in magnitude, for |x| < 2^−20 (sine, tanh). -/
def FltFmt.nearSelf (f : FltFmt) (code : BitVec 6) (neg : Bool) (m : Nat) (e : Int) :
    Option (Nat × Flags) :=
  -- |x| is m·2^e: enclose it between m·2^e·(1 − 2^−39) and itself
  let lo : Int := (m : Int) * 2 ^ 40 - m
  f.enclose code neg lo ((m : Int) * 2 ^ 40 - 1) (e - 40)

/-- The magnitude m·2^e lies below 2^k. -/
def below (m : Nat) (e : Int) (k : Int) : Bool := decide ((m.log2 : Int) + 1 + e ≤ k)

/-- The functions of the F slot on one operand, by op7 (R143). -/
def FltFmt.elementary (f : FltFmt) (code : BitVec 6) (fn : Nat) (bits : Nat) : Nat × Flags :=
  let free (r : Option (Nat × Flags)) : Nat × Flags :=
    match r with
    | some y => y
    | none => ((Config.elementary fn code (BitVec.ofNat 32 bits)).toNat % 2 ^ f.w, flagNX)
  let nv : Nat × Flags := (f.nanBits, flagNV)
  let exact (x : Val) : Nat × Flags := f.round .ovf modeRNE 0 code x
  -- an infinity that a pole gives: with DZ, and the NaN of a format without infinities (R78)
  let pole (neg : Bool) : Nat × Flags :=
    let r := f.over .ovf modeRNE neg true
    (r.1, r.2 ||| flagDZ)
  let one : Val := .fin false 1 0
  match f.read bits with
  | .nan => (f.nanBits, 0)
  | .inf neg =>
    if fn = 1 then exact (if neg then .fin false 0 0 else .inf false)
    else if fn = 2 then (if neg then nv else exact (.inf false))
    else if fn = 3 then exact (.fin neg 0 0)
    else if fn = 4 then (if neg then nv else exact (.fin false 0 0))
    else if fn = 5 then (if neg then nv else exact (.inf false))
    else if fn = 6 then exact (.fin neg 1 0)
    else if fn = 7 then exact (if neg then .fin false 0 0 else one)
    else nv
  | .fin neg 0 _ =>
    if fn = 1 then exact one
    else if fn = 2 then pole true
    else if fn = 3 then pole neg
    else if fn = 4 then pole neg
    else if fn = 5 then exact (.fin neg 0 0)
    else if fn = 6 then exact (.fin neg 0 0)
    else if fn = 7 then exact (.fin false 1 (-1))
    else if fn = 8 then exact (.fin neg 0 0)
    else exact one
  | .fin neg m e =>
    if fn = 1 then
      if below m e 12 then
        let x := toFx neg m e
        let n := x / fxOne
        let t := x - n * fxOne
        if t = 0 ∧ (0 ≤ e ∨ m % 2 ^ (-e).toNat = 0) then exact (.fin false 1 n)
        else
          let y := exp2Frac t
          free (f.enclose code false (y - slack) (y + slack) (n - fxBits))
      else f.roundFin .ovf modeRNE 0 code false 1 (if neg then -5000 else 5000) true
    else if fn = 2 then
      if neg then nv
      else if m = 2 ^ m.log2 then exact (.ofInt ((m.log2 : Int) + e))
      else free (f.roundFx code (log2Fx m e))
    else if fn = 3 then f.roundRatio code neg 1 m (-e)
    else if fn = 4 then (if neg then nv else f.roundRsqrt code m e)
    else if fn = 5 then (if neg then nv else f.roundSqrt code m e)
    else if fn = 6 then
      if below m e (-20) then free (f.nearSelf code neg m e)
      else if below m e 7 then
        let (y, n) := expParts (2 * toFx false m e)
        -- tanh = 1 − 2/(E + 1)
        let big : Int := y * 2 ^ n.toNat + fxOne
        let v := fxOne - 2 * fxOne * fxOne / big
        free (f.roundFx code (if neg then -v else v))
      else free (f.enclose code neg (fxOne - slack) (fxOne - 1) (-(fxBits : Int)))
    else if fn = 7 then
      if below m e 8 then
        let (y, n) := expParts (toFx false m e)
        -- E = e^|x|; 1/(1 + e^−x) is E/(1 + E), or 1/(1 + E) for x < 0
        let big : Int := y * 2 ^ n.toNat
        let k : Int := 2 ^ 400
        let v := if neg then fxOne * fxOne * k / (fxOne + big) else big * fxOne * k / (fxOne + big)
        let d : Int := v / 2 ^ 200 + 1
        free (f.enclose code false (v - d) (v + d) (-(fxBits : Int) - 400))
      else if neg then free (f.enclose code false 1 2 (-400))
      else free (f.enclose code false (fxOne - slack) (fxOne - 1) (-(fxBits : Int)))
    else
      let cosine := decide (fn = 9)
      if below m e (-20) then
        if cosine then free (f.enclose code false (2 ^ 50 - 2 ^ 10) (2 ^ 50 - 1) (-50))
        else free (f.nearSelf code neg m e)
      else
        let (q, r) := reduceTrig m e
        let q := if cosine then (q + 1) % 4 else q
        let v := trigOf (decide (q % 2 = 1)) r
        let v := if 2 ≤ q then -v else v
        free (f.roundFx code (if neg && !cosine then -v else v))

/-- FDIV on one pair of elements (R143). -/
def FltFmt.divide (f : FltFmt) (code : BitVec 6) (a b : Nat) : Nat × Flags :=
  let nv : Nat × Flags := (f.nanBits, flagNV)
  match f.read a, f.read b with
  | .nan, _ => (f.nanBits, 0)
  | _, .nan => (f.nanBits, 0)
  | .inf _, .inf _ => nv
  | .inf x, .fin y _ _ => f.over .ovf modeRNE (x != y) true
  | .fin x _ _, .inf y => f.round .ovf modeRNE 0 code (.fin (x != y) 0 0)
  | .fin x ma ea, .fin y mb eb =>
    if mb = 0 then
      if ma = 0 then nv
      else
        let r := f.over .ovf modeRNE (x != y) true
        (r.1, r.2 ||| flagDZ)
    else if ma = 0 then f.round .ovf modeRNE 0 code (.fin (x != y) 0 0)
    else f.roundRatio code (x != y) ma mb (ea - eb)

end Sys2Proof.Machine
end

