-- ==== Sys2Proof/Machine/State.lean ====
section
/-! DEFINITION. What the machine holds, as plain data: the registers of a context, a context, a core,
the device, and the state after reset. -/

namespace Sys2Proof.Machine

/-- Why a step stops. -/
inductive Fault where
  /-- The package has lost its supply (R386) and no POWER_ON is pending: nothing in it runs. Raised by
  the step alone; safe: no state follows it. -/
  | unpowered
  deriving DecidableEq, Repr

/-- Why an instruction has no meaning. -/
inductive Refusal where
  /-- An instruction whose meaning the model does not give. Raised by an arm of the dispatch alone;
  safe: no state follows it. -/
  | notModelled (mnemonic : String)
  deriving DecidableEq, Repr

/-! ## Registers of a context -/

/-- A result in flight to the scalar side (R100, R340): destination code, context-cycles left, value,
FFLAGS bits. Destination: scalar n; 0x40 + n tile register n (log entry 21); 0x80 + n predicate;
0xC0 + n loop counter; 0xFF none (flags alone). -/
structure QEntry where
  dst : Byte
  left : Nat
  val : Dword
  flags : BitVec 7
  deriving DecidableEq, Repr, Inhabited

/-- A result in flight to the vector side (R100, R148, R340): operand code, or 0x70 + n for latch n;
context-cycles left; bytes; FFLAGS bits; the X slot whose last result it becomes (R126). -/
structure VEntry where
  dst : BitVec 7
  left : Nat
  val : VReg
  flags : BitVec 7
  lv : Option Nat
  deriving DecidableEq, Repr, Inhabited

/-- The open group (R45, R46, R340): bundles issued and the write sets; `pl` holds p in bits [7:0] and
lc in [11:8], `tf` holds t in [31:0] and f in [39:32]. -/
structure Group where
  count : Nat := 0
  s : BitVec 64 := 0
  pl : BitVec 64 := 0
  vo : BitVec 128 := 0
  tf : BitVec 64 := 0
  cr : BitVec 512 := 0
  deriving DecidableEq, Repr, Inhabited

/-- A feed register (R159): the FPOS word of R152, and the program: Δ₀ as [59:36] of PFSET's first
source, and the whole second source (R169, R340). -/
structure Feed where
  pos : BitVec 52 := 0
  inc0 : BitVec 24 := 0
  prog : Dword := 0
  deriving DecidableEq, Repr, Inhabited

/-- A tile register (R201): the descriptor, and the poison reason, 0 for none. -/
structure TileReg where
  desc : Dword := 0
  poison : BitVec 2 := 0
  deriving DecidableEq, Repr, Inhabited

/-- The registers of one context that a snapshot, a checkpoint or a pre-emption carries (R94, R340). -/
structure Regs where
  pc : Addr := 0
  s : Map Dword := []
  p : Byte := 0
  lc : Map Dword := []
  loopStart : Map Addr := []
  loopEnd : Map Addr := []
  /-- The active loops, the one set up most recently first (R116 to R118). -/
  loopOrd : List Nat := []
  ccyc : Dword := 0
  queue : List QEntry := []
  vqueue : List VEntry := []
  rmode : BitVec 3 := 0
  lfsr : Word := 0x9E3779B9
  fflags : BitVec 7 := 0
  shape : Word := 0x0100100A
  syncattr : BitVec 5 := 0x12
  invsel : Byte := 0
  /-- Region bounds: key 2n holds GnB, key 2n + 1 holds GnL (R262). -/
  region : Map Addr := []
  pg : BitVec 23 := 0
  feed : Map Feed := []
  tile : Map TileReg := []
  snapbase : BitVec 40 := 0
  v : Map VReg := []
  o : Map VReg := []
  lv : Map VReg := []
  /-- The latches as a QMOV sees them (R144, R147). -/
  q : Map VReg := []
  /-- Count of each latch as the latest issued op left it (R144). -/
  qcount : Map Nat := []
  qkind : BitVec 4 := 0
  occA0 : Nat := 0
  occA1 : Nat := 0
  occF : Nat := 0
  grp : Group := {}
  deriving DecidableEq, Repr, Inhabited

/-! ## A context -/

/-- Whether a context runs (R92, R338, R362); `saving` while pre-emption waits for its accesses (R346). -/
inductive Life where
  | idle | running | stopped | frozen | saving
  deriving DecidableEq, Repr, Inhabited

/-- What must happen before an access made at a home can go on (R225, R289, R369, R372, R374). -/
inductive Need where
  | wait
  /-- The pod's walkers find the leaf of a page (R225, R303). -/
  | walk (va : Nat)
  | snoop (half : Nat) (inv : Bool)
  | hostLine (line : Nat) (owned : Bool)
  | regrow (tile : Nat)
  | unpriv (page owner : Nat)
  | native (kind : Nat) (pa len : Nat) (data : List Byte)
  deriving DecidableEq, Repr, Inhabited

/-- What a blocked bundle waits for (R97), and what has been asked for on its behalf. -/
inductive Wait where
  | fill (va : Nat)
  | walk (va : Nat) (access : Access)
  | word (w va : Nat)
  | lda (slot w va : Nat)
  /-- The invalidation of an acquire, with the bytes that its load has read (R273). -/
  | acq (slot : Nat) (bytes : List Byte)
  | atomic (m : AtomicMsg)
  /-- An acquiring atomic in the core itself: on pool bytes, or on P words (R198, R266). -/
  | here (pool : Bool) (m : AtomicMsg)
  | atomsc (op : ScOp)
  | native (slot kind pa len : Nat) (aux : BitVec 12) (data : List Byte)
  | lzres (slot node core zone count : Nat)
  | regrow (tile va : Nat)
  /-- A regrow after which RDONE pins the tile for the op (R294). -/
  | pin (slot tile va : Nat)
  | fit (q : FitQuery)
  /-- TLBINV: its kind, and the address of kind 0 (R308). -/
  | tlbinv (slot : Nat) (kind : BitVec 3) (va : Nat)
  | bar (level : Nat)
  | need (slot : Nat) (n : Need)
  | sysrel (slot : Nat)
  | cond (slot code : Nat)
  deriving DecidableEq, Repr, Inhabited

/-- A reply that came back for a blocked bundle: what it answers, the bytes, and a status, 0 for done. -/
structure Reply where
  wait : Wait
  bytes : List Byte
  status : Nat
  deriving DecidableEq, Repr, Inhabited

/-- What of an access is still outstanding (R272). -/
inductive AccKind where
  /-- A store, or OWN, whose words' registrations are not all granted. -/
  | regs (words : List Nat)
  /-- Write-backs or bypassing writes not yet applied at their homes. -/
  | atHome (left : Nat)
  /-- Write-backs of words to their homes (R267). -/
  | wbs (words : List Nat)
  /-- A transfer on a channel, performed when it completes. -/
  | xfer (x : XferId)
  /-- An access to another device, or a landing transfer: performed only at sys (R240, R374). -/
  | native (tag : Nat)
  | landing (x : XferId)
  /-- The packets of a bulk copy, which hold nothing but a release at sys (R220, R272). -/
  | copyOut (x : XferId)
  /-- A gather read that has not arrived (R227). -/
  | gather (n : Nat)
  deriving DecidableEq, Repr, Inhabited

/-- An outstanding access of a context: its place in program order, class, bytes [lo, hi) by virtual
address, and what is outstanding (R270). -/
structure Acc where
  seq : Nat
  cls : Nat
  lo : Nat
  hi : Nat
  kind : AccKind
  deriving DecidableEq, Repr, Inhabited

/-- Bytes that a store writes: their virtual address, their physical place (none for the pool window)
and the class of their page (R300). -/
structure Write where
  va : Nat
  pa : Option Nat
  cls : BitVec 3
  bytes : List Byte
  /-- The bytes lie on another device: the write is performed only at sys (R272, R374). -/
  far : Bool
  deriving DecidableEq, Repr, Inhabited

/-- What an op that waits in the M unit, or that a segment holds, will do when it is performed (R219,
R357). `release` is the scope of a STREL (R280). -/
inductive Late where
  | write (parts : List Write) (release : Option (BitVec 2))
  | aperture (x : XferId)
  | transfer (x : XferId)
  /-- A landing transfer, which is performed only at sys (R240, R272). -/
  | landing (x : XferId)
  /-- The words that an OWN has yet to register: key, virtual address, and whether the page is private. -/
  | own (words : List (Nat × Nat × Bool))
  deriving DecidableEq, Repr, Inhabited

/-- An op waiting in the M unit: its place in program order, class, bytes, and what it does. -/
structure Held where
  seq : Nat
  cls : Nat
  lo : Nat
  hi : Nat
  op : Late
  deriving DecidableEq, Repr, Inhabited

/-- A FENCE, an acquire or a release in force (R282, R280): accesses of classes `am` from place `seq`
on wait for accesses of classes `bm` before it, at `scope`. -/
structure Fence where
  seq : Nat
  bm : Half
  am : Half
  scope : BitVec 2
  deriving DecidableEq, Repr, Inhabited

/-- The code slice a regrow context runs (R291). -/
structure Slice where
  tile : Nat
  va : Nat
  depth : Nat
  used : Nat
  max : Nat
  deriving DecidableEq, Repr, Inhabited

/-- The strand a context runs (R312, R315). -/
structure Strand where
  launch : Nat
  num : Nat
  lvl : List Half
  deriving DecidableEq, Repr, Inhabited

/-- An entry of the gather queue (R227): a gather, with GQT as its GPUSH found it and the bytes of its row that have been
read, or a scatter. -/
inductive GqEntry where
  | gather (index table : Dword) (seq : Nat) (got : List Byte)
  | scatter (x : XferId)
  deriving DecidableEq, Repr, Inhabited

/-- A row of the gather data queue: its bytes, or the cause and TRAPINFO of its fault (R227). -/
structure GqRow where
  index : Dword
  table : Dword
  bytes : List Byte
  fault : Option (Byte × Dword)
  deriving DecidableEq, Repr, Inhabited

/-- The segment state (R356 to R360, R365). -/
structure Seg where
  opened : Bool := false
  rw : Bool := false
  lost : Bool := false
  waiting : Bool := false
  rewinds : Nat := 0
  /-- The context has rewound and has not yet passed the RDV that closes the segment (R359). -/
  rewinding : Bool := false
  deriving DecidableEq, Repr, Inhabited

/-- A word that a store has made to differ from memory, the place in program order of the first such store,
and its class (R272). -/
structure DirtyWord where
  word : Nat
  seq : Nat
  cls : Nat
  deriving DecidableEq, Repr, Inhabited

/-- A target whose packet has yet to be checked for a branch, call, return or loop set-up whose bundle has
issued (R64, R115): the address, and what a fault of that op leaves: the registers without its effects, the
draw state, and the captured operands. -/
structure Branch where
  target : Nat
  /-- The target is the end of a loop of no passes: the context goes on after it (R116). -/
  skip : Bool
  img : Regs
  draw : Word
  capt : List (Nat × List Nat)
  deriving DecidableEq, Repr, Inhabited

/-- The results of the op in M0 of a blocked bundle, which was performed before M1's request was sent (R270). -/
structure Bound where
  outs : List QEntry
  vouts : List VEntry
  deriving DecidableEq, Repr, Inhabited

/-- A bundle of which some slots wait for their replay: its address and context-cycle, the open group with all of its
ops in it, and the RMODE under which it issued (R45, R76; log entry 94). -/
structure Trapped where
  pc : Addr
  ccyc : Dword
  grp : Group
  rmode : BitVec 3
  deriving DecidableEq, Repr, Inhabited

/-- What a checkpoint keeps of the image of R340: the registers, and those that a trap writes (R356). -/
structure Ckpt where
  regs : Regs
  trapcause : Byte
  trapinfo : Dword
  trappc : Addr
  deriving DecidableEq, Repr, Inhabited

/-- One context: ctx0 to ctx3, and ctxS as number 4 (R92, R94). -/
structure Ctx where
  life : Life := .idle
  regs : Regs := {}
  strand : Option Strand := none
  prio : BitVec 4 := 0
  chmask : Half := 0
  gqt : Dword := 0
  gqAddr : List GqEntry := []
  gqData : List GqRow := []
  celast : BitVec 44 := 0
  /-- STATUS (R334): H, MASK, SV, HOLD. -/
  h : Bool := false
  mask : Bool := false
  sv : Bool := false
  hold : Bool := false
  trapcause : Byte := 0
  trapinfo : Dword := 0
  trappc : Addr := 0
  /-- The snapshot buffer: the scalar part of the image, by double word (R340). -/
  snap : Map Dword := []
  /-- The slots that TRET has yet to replay (R342), 0 for none. -/
  replay : BitVec 11 := 0
  /-- Slots of the blocked bundle whose store has been made already (log entry 25). -/
  early : BitVec 11 := 0
  /-- What the op in M0 of the blocked bundle has given already (log entry 25). -/
  bound : Option Bound := none
  branch : Option Branch := none
  /-- A control op that committed beside a faulting slot and acts when the replay of its bundle commits: the
  bundle's address and the op's code (log entry 29). -/
  after : Option (Addr × Nat) := none
  trapped : List Trapped := []
  /-- The slots and the captured operands of the bundle that a hold interrupted (R344). -/
  heldMask : BitVec 11 := 0
  heldCapt : List (Nat × List Nat) := []
  xlhold : Dword := 0
  xlmiss : Dword := 0
  seq : Nat := 0
  acc : List Acc := []
  mq : List Held := []
  fences : List Fence := []
  /-- Words this context stored to since its last system-scope release (R272). -/
  dirty : List DirtyWord := []
  /-- Failed stores to other devices, not yet raised: place, class, cause and TRAPINFO (R408). -/
  storeFail : List (Nat × Nat × Byte × Dword) := []
  seg : Seg := {}
  ckpt : Option Ckpt := none
  heldE : List Held := []
  gangAbort : Option Dword := none
  slice : Option Slice := none
  waits : List Wait := []
  /-- The waits that have been asked for. -/
  asked : List Wait := []
  replies : List Reply := []
  preempt : Bool := false
  deriving DecidableEq, Repr, Inhabited

/-! ## A core -/

/-- A husk strip in a link buffer (R177): its accumulator kind and its lanes in sending order. -/
structure Strip where
  fp : Bool
  lanes : List Word
  bad : Bool
  deriving DecidableEq, Repr, Inhabited

/-- A tile stream on a link (R193): its size; at the receiver the bytes that have arrived and are not yet taken; at
the sender its scoreboard key, the pool offset of the next byte to leave, and how many are left. -/
structure Stream where
  size : Nat
  bytes : List Byte
  key : Nat
  off : Nat
  left : Nat
  bad : Bool
  deriving DecidableEq, Repr, Inhabited

/-- An NLRECV in progress: its scoreboard key, the pool offset of its next byte, the bytes left. -/
structure Recv where
  key : Nat
  off : Nat
  left : Nat
  ctx : Nat
  reg : Nat
  bad : Bool
  deriving DecidableEq, Repr, Inhabited

/-- One link of a core (R183, R186). -/
structure Link where
  outStrip : Option Strip := none
  inStrip : Option Strip := none
  down : Bool := false
  outStreams : List Stream := []
  inStreams : List Stream := []
  recv : Option Recv := none
  deriving DecidableEq, Repr, Inhabited

/-- The plane (R150 to R152, R179). `cells` is keyed ((y + 8)·32 + x + 8)·16 + k. -/
structure Plane where
  cells : Map Word := []
  fp : Bool := false
  holder : Option Nat := none
  dy : Int := 0
  dx : Int := 0
  walk : Nat := 0
  stepc : Nat := 0
  sat : Bool := false
  /-- The holder has trapped while it held the plane and has not returned (R165). -/
  halted : Bool := false
  /-- The contexts that wait for the plane, in the order of R163. -/
  waiters : List Nat := []
  blocks : Half := 0
  hstat : BitVec 12 := 0
  deriving DecidableEq, Repr, Inhabited

/-- A pending read or write of the tile scoreboard (R202): pool bytes [lo, hi), and for a write the
tile register it keeps busy. -/
structure ScoreEntry where
  key : Nat
  lo : Nat
  hi : Nat
  write : Bool
  ctx : Nat
  reg : Nat
  deriving DecidableEq, Repr, Inhabited

/-- Pool bytes [lo, hi) that a blocked tile op of a context reads or writes (R202). -/
structure TileWait where
  ctx : Nat
  lo : Nat
  hi : Nat
  write : Bool
  deriving DecidableEq, Repr, Inhabited

/-- A retirement whose tile is not yet written (R172): the tile's element bytes, the flags, and the ranges of them still
to be written, each an offset and a length (R203). -/
structure Retire where
  key : Nat
  ctx : Nat
  reg : Nat
  off : Nat
  bytes : List Byte
  flags : BitVec 7
  todo : List (Nat × Nat)
  deriving DecidableEq, Repr, Inhabited

/-- What a copy in progress has (R223, R225): the elements still to be performed in their order, the pieces bound for a
landing slot, the elements performed with their destination offsets, and the error it met with the element that met
it. -/
structure CopyRun where
  left : List Nat := []
  pieces : List (Nat × List Byte) := []
  done : List (Nat × Int) := []
  err : Nat := 0
  fail : Nat := 0
  deriving DecidableEq, Repr, Inhabited

/-- What a transfer on a channel does (R206, R217, R220, R227, R240). -/
inductive XferKind where
  | tld (reg : Nat) (desc : Dword) (mode : BitVec 2) (va : Nat)
  | tst (reg : Nat) (desc : Dword) (mode : BitVec 2) (va : Nat)
  | tcpy (dreg : Nat) (ddesc : Dword) (sdesc : Dword)
  | tstx (desc : Dword) (mode : BitVec 2) (handle : Dword)
  | copy (value : Dword) (started : Bool) (param : List Byte) (templ : List Byte) (slotBase : Nat)
  | scatter (va : Nat) (bytes : List Byte)
  deriving DecidableEq, Repr, Inhabited

/-- A transfer outstanding on a channel of the core (R214). -/
structure Xfer where
  ch : Nat
  id : Word
  ctx : Nat
  asid : Nat
  cls : Nat
  seq : Nat
  kind : XferKind
  /-- The scoreboard entry of the tile it reads or writes. -/
  key : Nat
  /-- A segment holds it, so that it has not left the core (R357). -/
  held : Bool
  /-- Of a transfer of a tile or of a scattered row: the ranges of its image still to move, each an offset and a length;
  the one that it has begun; the bytes that it has read; and whether bad data was met among them (R203, R217, R218). -/
  todo : List (Nat × Nat) := []
  cur : Option (Nat × Nat) := none
  got : Map Byte := []
  bad : Bool := false
  run : CopyRun := {}
  deriving DecidableEq, Repr, Inhabited

/-- State of one landing slot (R235, R242, R247). -/
structure LzSlot where
  /-- 0 FREE, 1 RESV, 2 FILL, 3 LANDED, 4 TORN. -/
  state : BitVec 3 := 0
  rn : Half := 0
  late : Bool := false
  cause : BitVec 3 := 0
  count : Nat := 0
  landed : Nat := 0
  /-- Bytes of the slot in LZACC, and by barrier (R242). -/
  inAcc : Nat := 0
  inBar : Map Nat := []
  /-- The cycle of the grant or of the last packet (R235). -/
  since : Dword := 0
  node : Nat := 0
  who : Who := ⟨0, 0⟩
  /-- The port that the path is pinned to, with whether it is an Ethernet port; none within the device (R238). -/
  port : Option (Bool × Nat) := none
  pkts : Nat := 0
  /-- A TORN slot has been zero-filled (R246). -/
  cleaning : Bool := false
  deriving DecidableEq, Repr, Inhabited

/-- One landing zone (R234, R249): LZCFG, grant counter, LZACC, slots. -/
structure Zone where
  cfg : BitVec 36 := 0
  counter : Half := 0
  acc : Nat := 0
  slots : Map LzSlot := []
  deriving DecidableEq, Repr, Inhabited

/-- A word of the L1 (R252). `va` is the virtual address of its line's word; `got` and `fdata` are the
GRANT and the FDATA that an O-pending word has received so far, the latter with whether it is bad; `mask` the bytes
written into it; `hidden` the contexts that may not use a V word (R273, R274, R287; log entry 102). -/
inductive L1State where
  | I | V | O | pending | P
  deriving DecidableEq, Repr, Inhabited

/-- See `L1State`. -/
structure L1Word where
  st : L1State := .I
  data : Word := 0
  grant : Word := 0
  va : Nat := 0
  mask : BitVec 4 := 0
  got : Option GrantMsg := none
  fdata : Option (Word × Bool) := none
  /-- The P word has been written; or a WB has been sent and not superseded. -/
  dirty : Bool := false
  hidden : List Nat := []
  deriving DecidableEq, Repr, Inhabited

/-- A TLB entry (R302): level 0, 1 or 2 gives the page size. -/
structure TlbEntry where
  asid : Nat
  va : Nat
  level : Nat
  cls : BitVec 3
  r : Bool
  w : Bool
  x : Bool
  pa : Nat
  deriving DecidableEq, Repr, Inhabited

/-- What a core is bound to (R93, R196, R316): the launch and the values its record gives. -/
structure Bind where
  launch : Nat
  asid : Nat
  pb1 : Nat
  pb2 : Nat
  pb3 : Nat
  w : Nat
  pmax : Nat
  n : Nat
  c : Nat
  image : Nat
  trapVec : Nat
  holdVec : Nat
  recipes : Bool
  dieQueue : Bool
  deriving DecidableEq, Repr, Inhabited

/-- One core (R9, R92 to R94). -/
structure Core where
  bind : Option Bind := none
  asid : Nat := 0
  ctxs : Map Ctx := []
  pool : Map Byte := []
  /-- Cached packets by virtual address divided by 64 (R61). -/
  pkts : Map (List Byte) := []
  plane : Plane := {}
  links : Map Link := []
  score : List ScoreEntry := []
  /-- The tile ops that block, in the order in which they came to (R202). -/
  tileq : List TileWait := []
  retires : List Retire := []
  nextKey : Nat := 0
  cb : Map Dword := []
  cnext : Map Word := []
  cdone : Map Word := []
  cerr : Half := 0
  xfers : List Xfer := []
  xdone : List (Nat × Word) := []
  zones : Map Zone := []
  lzq : List LzQueued := []
  /-- AB words: [63:62] state, [61:60] zone, [55:0] pending (R249). -/
  ab : Map Dword := []
  l1 : Map L1Word := []
  /-- By line: the highest grant number among the replies installed into it (R252). -/
  lineGrant : Map (Option Word) := []
  /-- Registrations outstanding: word and context (R254). -/
  regOut : List (Nat × Nat) := []
  tlb : List TlbEntry := []
  /-- The context that ctxS serves (R343). -/
  svc : Option Nat := none
  depth : BitVec 3 := 0
  wheel : List Nat := []
  claims : List Nat := []
  ageing : Half := 2048
  errcnt : Dword := 0
  /-- Poisoned storage (R354): source code 1 to 4 of R358 and the place: a scalar or predicate as
  ctx·1024 + code, a vector register likewise, an L1 word, a pool double word. -/
  poison : List (Nat × Nat) := []
  dead : Bool := false
  /-- The context that issued last and keeps the port, when it does (R96). -/
  port : Option Nat := none
  /-- Contexts in the order of their last issue, the latest first (R98). -/
  order : List Nat := []
  /-- For a context that has yielded, those that must issue or block before it is chosen again (R123). -/
  yielded : Map (List Nat) := []
  runStart : Dword := 0
  /-- Requests of 128 bytes that the transfer unit has issued (R232). -/
  unit : Nat := 0
  /-- The classifier (R315): plane steps and bytes fetched, the cycle its count began, and whether the count
  has ended. -/
  steps : Nat := 0
  fetched : Nat := 0
  classStart : Dword := 0
  classDone : Bool := true
  /-- The cycle at which the regrow context last ended a slice, 0 for never (R289). -/
  lastSlice : Dword := 0
  deriving DecidableEq, Repr, Inhabited

/-! ## The device -/

/-- The owner a home records for a word (R251): a core, 0x3FE the bridge, 0x3FF LOST; and the tag. -/
structure Owner where
  agent : Nat
  tag : BitVec 22
  deriving DecidableEq, Repr, Inhabited

/-- An address space (R299, R293). -/
structure Asid where
  bound : Bool := false
  root : Nat := 0
  frozen : Bool := false
  /-- Teardown has begun (R363). -/
  tearing : Bool := false
  /-- Its pages are quarantined, and the other devices have been asked to drop its translations (R363). -/
  quarantined : Bool := false
  rgcount : Dword := 0
  rgdrop : Dword := 0
  rgfail : Dword := 0
  deriving DecidableEq, Repr, Inhabited

/-- One target's access table (R306): regions by number, groups by node·65536 + ASID, rights of a group
as four bits per region. -/
structure Table where
  regions : Map (Nat × Nat) := []
  groups : Map Byte := []
  rights : Map (BitVec 256) := []
  deriving DecidableEq, Repr, Inhabited

/-- A work queue (R309, R310, R384). -/
structure Queue where
  bound : Bool := false
  asid : Nat := 0
  prio : BitVec 4 := 0
  e : BitVec 7 := 0
  k : BitVec 4 := 0
  window : Map Byte := []
  faults : Word := 0
  /-- The launches accepted and not yet wholly bound, oldest first (R310). -/
  backlog : List Nat := []
  closing : Option Cmd := none
  deriving DecidableEq, Repr, Inhabited

/-- A launch record as the dispatcher parsed it (R311). -/
structure LaunchRec where
  image : Nat := 0
  n : Nat := 0
  c : Nat := 0
  flags : Half := 0
  args : Dword := 0
  prio : Nat := 0
  rclass : Nat := 0
  maxSteps : Nat := 0
  levels : List Dword := []
  pb1 : Nat := 0
  pb2 : Nat := 0
  pb3 : Nat := 0
  w : Nat := 0
  trapVec : Nat := 0
  holdVec : Nat := 0
  tt : Nat := 0
  compAddr : Nat := 0
  compVal : Dword := 0
  zeros : Bool := true
  deriving DecidableEq, Repr, Inhabited

/-- A timetabled group of a launch (R325, R326). -/
structure TtGroup where
  level : Nat
  index : Nat
  release : Nat
  deadline : Nat
  released : Bool
  tripped : Bool
  deriving DecidableEq, Repr, Inhabited

/-- A launch that has been accepted (R311 to R316). -/
structure Launch where
  rc : LaunchRec := {}
  asid : Nat := 0
  queue : Nat := 0
  seq : BitVec 7 := 0
  strands : Nat := 0
  /-- Where each bound, live strand runs. -/
  at_ : Map (Option Who) := []
  bound : List Nat := []
  ended : List Nat := []
  lost : List (Nat × Nat) := []
  /-- BARs each strand has arrived at: key strand·8 + level (R319). -/
  arrived : Map Nat := []
  /-- BARs each strand has passed, by the same key. -/
  passed : Map Nat := []
  tt : List TtGroup := []
  /-- Words that strands which have ended stored to: core and word (R272, R314). -/
  dirty : List (Nat × Nat) := []
  /-- Transfers that strands left outstanding on the core from which they were saved (R314, R346). -/
  left : List XferId := []
  deriving DecidableEq, Repr, Inhabited

/-- A job card in a queue (R320, R321). -/
structure Card where
  id : Nat
  addr : Nat
  launch : Nat
  core : Nat
  die : Bool
  ready : Bool
  since : Dword
  /-- The operands as JCPUSH read them: source address, pool offset, byte count. -/
  ops : List (Nat × Nat × Nat)
  deriving DecidableEq, Repr, Inhabited

/-- State of a declared recipe tile (R287). -/
inductive TileState where
  | declared | sealed | absent | queued | growing
  deriving DecidableEq, Repr, Inhabited

/-- A recipe-directory entry (R285, R286). -/
structure Recipe where
  tile : Nat
  va : Nat
  rc : List Byte
  st : TileState
  pins : Nat
  asid : Nat
  depth : Nat
  /-- Who waits for the tile, and the engine that reads for it, if one does. -/
  waiters : List (Who × Option XferId)
  /-- Where the slice runs. -/
  at_ : Option Who
  /-- The ultimate requester's launch. -/
  launch : Nat
  /-- What the last RDONE published, for the accesses that waited for it (R292). -/
  pub : List Host.Cell
  /-- The source tiles that the regrow under way has pinned (R289). -/
  pinned : List Nat
  /-- The lines of the tile whose homes have not heard yet that it is dropped (R288). -/
  late : List Nat
  deriving DecidableEq, Repr, Inhabited

/-- A timing partition (R324, R323). -/
structure Part where
  pods : BitVec 36
  length : Nat
  tick : Nat
  slip : Bool
  heldTicks : Nat
  frames : BitVec 30
  deriving DecidableEq, Repr, Inhabited

/-- A route-table entry (R375). -/
structure Route where
  valid : Bool := false
  kind : BitVec 2 := 0
  ports : List Nat := []
  macs : List Byte := []
  deriving DecidableEq, Repr, Inhabited

/-- A host-visible range (R368). -/
structure HostRange where
  host : BitVec 12
  base : Nat
  size : Nat
  deriving DecidableEq, Repr, Inhabited

/-- A bias flip in progress (R371). -/
structure Flip where
  page : Nat
  toHost : Bool
  cmd : Cmd
  started : Bool
  /-- Halves for which the host has answered the flip's own BISnpInv. -/
  acked : List Nat := []
  deriving DecidableEq, Repr, Inhabited

/-- A back-invalidate outstanding at a host (R369, R370): the half, whether it is BISnpInv and not BISnpData, and what
the bridge serves once the host answers. -/
structure BiSnp where
  half : Nat
  inv : Bool
  serve : Option Instr
  sent : Dword
  deriving DecidableEq, Repr, Inhabited

/-- A line of host memory that the bridge holds (R372). -/
structure HostLine where
  owned : Bool
  bytes : List Byte
  deriving DecidableEq, Repr, Inhabited

/-- A bandwidth reservation class (R330): the queue and the four rates. -/
structure RClass where
  queue : Nat
  hbm : Nat
  mesh : Nat
  ngufer : Nat
  eth : Nat
  deriving DecidableEq, Repr, Inhabited

/-- A request to another device that no answer has reached (R376, R408). -/
structure NatReq where
  tag : Nat
  who : Who
  kind : Nat
  dst : Nat
  va : Nat
  pa : Nat
  seq : Nat
  cls : Nat
  sent : Dword
  wait : Option Wait
  /-- The engine it was made for, if any; channels 16 to 20 stand for the engines without one. -/
  engine : Option XferId
  /-- The bytes that it asks for, and the port that it took (R375, R376). -/
  len : Nat
  port : Nat
  deriving DecidableEq, Repr, Inhabited

/-- A landing transfer as its sender's device sees it (R236, R376). -/
structure LzSend where
  x : XferId
  handle : Dword
  /-- Packets that were sent for the reservation before this transfer. -/
  base : Nat
  pkts : List LzPkt
  acked : Nat
  since : Dword
  ethernet : Bool
  deriving DecidableEq, Repr, Inhabited

/-- A reservation request not yet answered (R238). -/
structure LzOut where
  req : LzReq
  sent : Dword
  resent : Dword
  ethernet : Bool
  /-- The port that the reservation is pinned to, and whether that path has gone down since (R238). -/
  port : Option (Bool × Nat)
  cut : Bool
  /-- Its sender has died: a grant is aborted (R235). -/
  gone : Bool
  deriving DecidableEq, Repr, Inhabited

/-- A reservation that a context of this device has been granted (R235, R238): its handle, its pinned port, the
packets sent for it, and whether its path has gone down. -/
structure LzHeld where
  who : Who
  asid : Nat
  handle : Dword
  port : Option (Bool × Nat)
  sent : Nat
  cut : Bool
  deriving DecidableEq, Repr, Inhabited

/-- An engine's miss that waits in its pod's walker queue or for a walk (R225, R303), and how a failed walk ended: whether
with PROT, the reason, and the die whose table refused an entry's read. -/
structure EngWalk where
  id : XferId
  who : Who
  asid : Nat
  va : Nat
  fail : Option (Bool × Nat × Option Nat)
  deriving DecidableEq, Repr, Inhabited

/-- A drop of translations that is not performed yet (R308): the answers awaited, each of a device and a tag, and the
accesses that were translated through a dropped entry, by context and place in program order, and packet fills. `who` is
the context of a TLBINV; core 1,022 with the other device and the tag for a device's request (R376); core 1,023 with the
ASID as the slot for a teardown (R363). -/
structure TlbWait where
  who : Who
  slot : Nat
  acks : List (Nat × Nat)
  accs : List (Who × Nat)
  fills : List Fill
  deriving DecidableEq, Repr, Inhabited

/-- A die's black box (R366). -/
structure BlackBox where
  events : List (Dword × Dword) := []
  /-- Of each double fault the earlier cause and information and the new ones, which no event has room for
  (R353, log entry 81). -/
  doubles : List (Byte × Dword × Byte × Dword) := []
  frozen : Bool := false
  lost : Nat := 0
  deriving DecidableEq, Repr, Inhabited

/-- What the hardware has told the management core (R338, R345, R362). -/
inductive Told where
  | doubleFault (who : Who)
  | notPreemptible (who : Who)
  | frozen (asid : Nat)
  deriving DecidableEq, Repr, Inhabited

/-- A strand that pre-emption has saved (R346): where its image lies and what it belongs to. -/
structure Saved where
  base : Nat
  asid : Nat
  strand : Strand
  src : Who
  chmask : Half
  prio : BitVec 4
  /-- Its segment, which has no part in the image (R359, R365). -/
  seg : Seg
  deriving DecidableEq, Repr, Inhabited

/-- The mailbox (R383). -/
structure Mailbox where
  bytes : Map Byte := []
  e : BitVec 7 := 0
  k : BitVec 4 := 0
  /-- Accepted commands that have yet to complete, oldest first. -/
  accepted : List Cmd := []
  deriving DecidableEq, Repr, Inhabited

/-- An operation that waits at a home for an owner's data or for another agent (R257, R278). -/
structure HomeWait where
  word : Nat
  op : Instr
  deriving DecidableEq, Repr, Inhabited

/-- The part form and what the package as a whole holds (R1, R377 to R386). -/
structure Device where
  /-- 0 the 7940-P, 1 the 7940-M, 2 the 7940-D (R379). -/
  form : BitVec 2 := 0
  power : Bool := true
  verified : Bool := true
  /-- The first bring-up step that failed, 0 for none (R382). -/
  bringup : BitVec 3 := 0
  cycle : Dword := 0
  /-- The tick up to which frame ticks have been advanced. -/
  lastTick : Dword := 0
  pwrstall : Dword := 0
  stall : Option Dword := none
  samples : List Sample := []
  pwrCap : Nat := 3000
  node : Byte := 0
  /-- NODE has been set (R375). -/
  nodeSet : Bool := false
  etype : Half := 0x88B5
  parts : List Part := [⟨BitVec.allOnes 36, 1, 0, false, 0, 0⟩]
  grant : Map Word := []
  owner : Map (Option Owner) := []
  homeWait : List HomeWait := []
  gone : List GoneMsg := []
  /-- Reads of a line in a stretch of 1,024 cycles: its start and the count (R263). -/
  hot : Map (Nat × Nat) := []
  replicas : List Nat := []
  /-- Private pages, oldest first: physical base plus level, and owner (R261). -/
  priv : List (Nat × Nat) := []
  podTlb : Map (List TlbEntry) := []
  walks : List Walk := []
  /-- Walks that wait for a walker, by pod (R303). -/
  walkq : Map (List Walk) := []
  badMem : List Nat := []
  asids : Map Asid := []
  tables : Map Table := []
  queues : Map Queue := []
  mbox : Mailbox := {}
  launches : Map Launch := []
  nextLaunch : Nat := 0
  /-- Bind records that wait for what they need (R315). -/
  bindHeld : List (List BindRec) := []
  /-- Records that SPAWN has submitted, by die: queue and bytes (R318). -/
  spawnQ : Map (List (Nat × List Byte)) := []
  cards : List Card := []
  nextCard : Nat := 0
  recipes : List Recipe := []
  /-- The tiles that an RDROP on its way names (R294). -/
  drops : List Nat := []
  regrows : List RegrowReq := []
  /-- Engines that wait for a regrow that has failed: engine and tile (R291). -/
  engFail : List (XferId × Nat) := []
  /-- Engines whose reads waited for a tile that has been published since (R292). -/
  engPub : List (XferId × Nat) := []
  /-- Regrow requests that found their queue full, in arrival order (R289). -/
  regrowWait : List RegrowReq := []
  routes : Map Route := []
  portsDown : List Nat := []
  ethDown : List Nat := []
  rclass : Map (Option RClass) := []
  ranges : Map (Option HostRange) := []
  bias : Map Bool := []
  flips : List Flip := []
  bisnp : List BiSnp := []
  hostLines : Map (Option HostLine) := []
  /-- What a host's answer gave of words whose new owner the bridge has still to serve (R264, R370). -/
  bridgeHeld : Map (Option Word) := []
  /-- Halves whose back-invalidate a host has answered and whose operation has yet to run, and whether it was BISnpInv
  (R369). -/
  snooped : List (Nat × Bool) := []
  /-- Lines of host memory that the bridge has asked for, and whether with ownership (R372). -/
  hostAsk : List (Nat × Bool) := []
  /-- Answers to an engine's native requests: engine, physical address, status, bytes (R374, R376). -/
  natGot : List (XferId × Nat × Nat × List Byte) := []
  natReqs : List NatReq := []
  /-- Requests of other devices, and of hosts (a write or a read), that wait at a home (R371, R376). -/
  natHeld : List NatMsg := []
  hostHeld : List (Bool × HostReq) := []
  nextTag : Nat := 0
  lzSends : List LzSend := []
  lzOut : List LzOut := []
  lzHeld : List LzHeld := []
  /-- Reservations of other devices as answered, with the cycle: the tag is node·65536 + tag (R376). -/
  lzAnswered : List (LzAns × Dword) := []
  tlbWaits : List TlbWait := []
  engWalks : List EngWalk := []
  scq : List ScOp := []
  twin : BitVec 36 := 0
  bbox : Map BlackBox := []
  /-- By location: one more than the number of the span of 4,096 ticks in which a correction there was last recorded
  (R355). -/
  corrected : Map Nat := []
  /-- The PBR identifiers of the host ports (R367). -/
  pbr : Map (BitVec 12) := []
  /-- Quarantined pages, each with the level of the leaf that maps it (R363, R364). -/
  quarPages : List (Nat × Nat) := []
  saved : Map (Option Saved) := []
  nextSaved : Nat := 0
  firmware : List Byte := []
  /-- Reports to the management core, latest last. -/
  told : List Told := []
  /-- Messages that have left the device for a host or another device, latest last. -/
  sent : List NatMsg := []
  /-- Answers given to hosts and over DOE and I3C, latest last: a port and the answer's words (R369, R372,
  R378, R385). -/
  answers : List (Nat × List Dword) := []
  deadDies : BitVec 4 := 0
  deriving DecidableEq, Repr, Inhabited

/-! ## The machine -/

/-- The issue in progress: which op of which bundle runs, and what the bundle's ops have met so far
(log entry 2). Between steps it holds its reset value. -/
structure Cursor where
  core : Nat := 0
  ctx : Nat := 0
  /-- The slot, by mask bit (R42), and its word. -/
  slot : Nat := 0
  word : Word := 0
  /-- Another op of the bundle follows. -/
  more : Bool := false
  /-- The ops present, by mask bit, with their words, and the address of the sequential successor. -/
  ops : List (Nat × Word × Instr) := []
  succ : Addr := 0
  /-- The first place in program order of the bundle's accesses. -/
  seq0 : Nat := 0
  /-- The first scoreboard key of the bundle: a bundle blocks for what stood before it (R97). -/
  key0 : Nat := 0
  /-- The barrier words and the zones of the core as the bundle issues, for a MOVC beside an LZWAIT (R112). -/
  ab0 : Map Dword := []
  zones0 : Map Zone := []
  stop : Bool := false
  /-- The bundle is a replay (R342). -/
  replay : Bool := false
  /-- Where the C slot sends the context; loop ends do not apply after it (R115, R117). -/
  jump : Option Addr := none
  /-- The slots that faulted, with cause and information (R65, R336). -/
  faults : List (Nat × Byte × Dword) := []
  waits : List Wait := []
  /-- The loop state that the C slot leaves: starts, ends and order (R116 to R119). -/
  loops : Option (Map Addr × Map Addr × List Nat) := none
  /-- The target whose packet is not cached, and whether the context goes on after it (R64, R116). -/
  judge : Option (Nat × Bool) := none
  /-- The slots whose ops block. -/
  waiting : List Nat := []
  /-- Poison consumed: source and place (R358). -/
  poison : Option (Nat × Nat) := none
  /-- Results to deliver, in mask order. -/
  outs : List QEntry := []
  vouts : List VEntry := []
  /-- Control-register writes that govern the next bundle (R112, R168, R169): number, or 0x200 + n for
  feed register n, and value. -/
  late : List (Nat × Dword) := []
  feeds : List (Nat × Feed) := []
  /-- The draw state as it stands after the slots so far (R82), and at each slot's start. -/
  lfsr : Word := 0
  draws : List (Nat × Word) := []
  /-- Set by an op that ends the context's run (END, YIELD, HOLDRET, RDONE, TRET). -/
  fin : Nat := 0
  deriving DecidableEq, Repr, Inhabited

/-- The state of the machine. -/
structure State where
  dev : Device
  cores : Map Core
  /-- Device memory at its homes (R11, R251): an unlisted byte reads 0 (log entry 7). -/
  mem : List Host.Cell
  cur : Cursor
  /-- Messages in flight, engine completions and requests from outside that have yet to happen (log
  entry 2). -/
  pending : List Instr
  /-- The step counter that the free values of Config are applied to (log entry 3). -/
  tick : Nat
  deriving DecidableEq, Repr, Inhabited

/-- What a byte of device memory that nothing has written reads as (log entry 7). -/
def unwritten : Byte := 0

/-- The machine right after reset, that is after bring-up has completed (R382): the clock at 0, every
store of step 4 zero, every access table granting nothing, nothing bound. -/
def State.reset : State where
  dev := {}
  cores := []
  mem := []
  cur := {}
  pending := []
  tick := 0

end Sys2Proof.Machine
end

