-- ==== Sys2Proof/Machine/Operands.lean ====
section
/-! DEFINITION. Operand forms: bytes and elements of vector registers, SHAPE, tile descriptors and
their layout, and which registers each op names. -/

namespace Sys2Proof.Machine

/-! ## Bytes and numbers -/

/-- The little-endian number of a list of bytes (R6). -/
def leNat : List Byte → Nat
  | [] => 0
  | b :: t => b.toNat + 256 * leNat t

/-- The `n` low bytes of a number, little-endian (R6). -/
def leBytes : Nat → Nat → List Byte
  | 0, _ => []
  | n + 1, x => BitVec.ofNat 8 x :: leBytes n (x / 256)

/-- A vector register's bytes. -/
def vbytes (v : VReg) : List Byte := leBytes 1024 v.toNat

/-- A vector register from its bytes, zero beyond them (R130). -/
def ofBytes (bs : List Byte) : VReg := BitVec.ofNat 8192 (leNat bs)

/-- A number in `w`-bit digits, the first lowest. -/
def packBits (w : Nat) : List Nat → Nat
  | [] => 0
  | x :: t => x % 2 ^ w + 2 ^ w * packBits w t

/-- The number of a TERN byte's trit codes (R70). -/
def packTrits : List Nat → Nat
  | [] => 0
  | t :: r => t + 3 * packTrits r

/-- TERN bytes of a list of trit codes, five to a byte (R69, R70); `fuel` bounds the bytes. -/
def packTern : Nat → List Nat → List Byte
  | 0, _ => []
  | _, [] => []
  | fuel + 1, ts => BitVec.ofNat 8 (packTrits (ts.take 5)) :: packTern fuel (ts.drop 5)

/-- The pattern of element `i` in packed bytes given as a number (R69, R130); a TERN element gives its
trit code, and a reserved byte's elements read 0 (R70). -/
def elemAt (f : Fmt) (x i : Nat) : Nat :=
  match f with
  | .tern =>
    let b := x / 256 ^ (i / 5) % 256
    if 243 ≤ b then 0 else b / 3 ^ (i % 5) % 3
  | _ => x / 2 ^ (f.width * i) % 2 ^ f.width

/-- Elements packed into a number (R69). -/
def packElems (f : Fmt) (xs : List Nat) : Nat :=
  match f with
  | .tern => leNat (packTern xs.length xs)
  | _ => packBits f.width xs

/-! ## SHAPE -/

def shapeRows (s : Word) : Nat := (s >>> 20).toNat % 4096
def shapeCols (s : Word) : Nat := (s >>> 8).toNat % 4096
def shapeCode (s : Word) : BitVec 6 := s.extractLsb' 0 6
def shapeFmt (s : Word) : Fmt := fmtOf (shapeCode s)

/-- The number of elements (R131). -/
def shapeN (s : Word) : Nat := shapeRows s * shapeCols s

/-- The byte size Sz (R129). -/
def shapeSz (s : Word) : Nat := fmtBytes (shapeFmt s) (shapeN s)

/-- The rules a MOVTC to SHAPE must meet (R129). -/
def shapeOk (x : Dword) : Bool :=
  let s : Word := x.extractLsb' 0 32
  decide (1 ≤ shapeRows s ∧ shapeRows s ≤ 2048 ∧ 1 ≤ shapeCols s ∧ shapeCols s ≤ 2048) &&
    fmtAssigned (shapeCode s) && decide (shapeSz s ≤ 1024)

/-- The format classes of R131. -/
def isI (f : Fmt) : Bool := match f with | .int .. => true | _ => false
def isF (f : Fmt) : Bool := match f with | .flt _ => true | _ => false

/-- The low `n` bytes of a register, the rest zero. -/
def cutBytes (v : VReg) (n : Nat) : VReg := BitVec.ofNat 8192 (v.toNat % 256 ^ n)

/-! ## Tile descriptors (R199, R200) -/

def descMate (d : Dword) : Nat := bitsOf d 63 60
def descRemote (d : Dword) : Bool := d.getLsbD 59
def descAxis (d : Dword) : Bool := d.getLsbD 58
def descScales (d : Dword) : Bool := d.getLsbD 57
def descMeta (d : Dword) : Bool := d.getLsbD 56
def descOff (d : Dword) : Nat := bitsOf d 55 42 * 128
def descCode (d : Dword) : BitVec 6 := d.extractLsb' 36 6
def descFmt (d : Dword) : Fmt := fmtOf (descCode d)
def descD2 (d : Dword) : Nat := bitsOf d 35 24 + 1
def descD1 (d : Dword) : Nat := bitsOf d 23 12 + 1
def descD0 (d : Dword) : Nat := bitsOf d 11 0 + 1

/-- `n` rounded up to a multiple of 128. -/
def up128 (n : Nat) : Nat := (n + 127) / 128 * 128

/-- The stored middle dimension: half the channels under 2:4 metadata. -/
def descRows (d : Dword) : Nat := if descMeta d then descD1 d / 2 else descD1 d

/-- Bytes of the data region. -/
def descData (d : Dword) : Nat := fmtBytes (descFmt d) (descD2 d * descRows d * descD0 d)

/-- Bytes of the metadata region, 0 when there is none. -/
def descMetaSize (d : Dword) : Nat :=
  if descMeta d then (descD2 d * (descD1 d / 4) * descD0 d + 1) / 2 else 0

/-- Bytes of the scale region, 0 when there is none. -/
def descScaleSize (d : Dword) : Nat :=
  if descScales d then
    if descAxis d then descD2 d * ((descD1 d + 31) / 32) * descD0 d
    else descD2 d * descD1 d * ((descD0 d + 31) / 32)
  else 0

/-- Offset of the metadata region from the start of the footprint or of the image (R200, R216). -/
def descMetaOff (d : Dword) : Nat := up128 (descData d)

/-- Offset of the scale region. -/
def descScaleOff (d : Dword) : Nat := descMetaOff d + up128 (descMetaSize d)

/-- The footprint: the data and metadata regions rounded up, and the scales (R200). -/
def descSize (d : Dword) : Nat := descScaleOff d + descScaleSize d

/-- Index of element (i2, i1, i0) in the data region. -/
def descIndex (d : Dword) (i2 i1 i0 : Nat) : Nat := (i2 * descRows d + i1) * descD0 d + i0

/-- The three regions of a tile that a transfer with `mode` moves: offset and size (R216). -/
def descRegions (d : Dword) (mode : BitVec 2) : List (Nat × Nat) :=
  (0, descData d) ::
    ((if mode.getLsbD 0 then [(descMetaOff d, descMetaSize d)] else []) ++
     (if mode.getLsbD 1 then [(descScaleOff d, descScaleSize d)] else []))

/-- The span of the named regions: to the end of the last one (R240). -/
def descSpan (d : Dword) (mode : BitVec 2) : Nat :=
  (descRegions d mode).foldl (fun m r => max m (r.1 + r.2)) 0

/-! ## The registers that operand fields name

Codes: s n as n, p n as 0x100 + n, lc n as 0x110 + n, a vector operand code c as 0x200 + c, t n as
0x300 + n, f n as 0x320 + n, a control register as 0x400 + its number. s0, p0, lv0 to lv2 and operand code
75 are outside the group rule (R46). -/

def regS (n : BitVec 6) : List Nat := if n = 0#6 then [] else [n.toNat]
def regP (n : BitVec 3) : List Nat := if n = 0#3 then [] else [0x100 + n.toNat]
def regLc (n : BitVec 2) : List Nat := [0x110 + n.toNat]
def regV (n : BitVec 7) : List Nat := if n.toNat < 72 then [0x200 + n.toNat] else []
def regT (n : BitVec 5) : List Nat := [0x300 + n.toNat]
def regF (n : BitVec 3) : List Nat := [0x320 + n.toNat]
def regC (n : Nat) : List Nat := if 0x010 ≤ n ∧ n ≤ 0x013 then [0x100 + n] else [0x400 + n]

/-- The registers an op's operand fields name, and the implicit writes that the group rule covers
(R46): the registers read, then the registers written. Of a word that is ill-encoded they are those of the op that it names
(`namedOp`). -/
def operands : Instr → List Nat × List Nat
  | .br _ _ => ([], [])
  | .bri _ a => (regS a, [])
  | .call _ _ => ([], regS 63#6)
  | .calli _ a => (regS a, regS 63#6)
  | .ret _ => ([], [])
  | .loop _ l a _ => (regS a, regLc l)
  | .loopi _ l _ _ => ([], regLc l)
  | .endStrand _ => ([], [])
  | .yield _ => ([], [])
  | .waitid _ _ a => (regS a, [])
  | .waitt _ t => (regT t, [])
  | .bar _ _ => ([], [])
  | .rdv _ _ => ([], [])
  | .fence _ a _ => (regS a, [])
  | .lzwait _ _ d => ([], regS d)
  | .spawn _ a => (regS a, [])
  | .trap _ _ => ([], [])
  | .tret _ => ([], [])
  | .snaprel _ => ([], [])
  | .holdret _ => ([], [])
  | .rdone _ => ([], [])
  | .add _ d a b => (regS a ++ regS b, regS d)
  | .sub _ d a b => (regS a ++ regS b, regS d)
  | .and _ d a b => (regS a ++ regS b, regS d)
  | .or _ d a b => (regS a ++ regS b, regS d)
  | .xor _ d a b => (regS a ++ regS b, regS d)
  | .andn _ d a b => (regS a ++ regS b, regS d)
  | .shl _ d a b => (regS a ++ regS b, regS d)
  | .shr _ d a b => (regS a ++ regS b, regS d)
  | .sra _ d a b => (regS a ++ regS b, regS d)
  | .min _ d a b => (regS a ++ regS b, regS d)
  | .max _ d a b => (regS a ++ regS b, regS d)
  | .minu _ d a b => (regS a ++ regS b, regS d)
  | .maxu _ d a b => (regS a ++ regS b, regS d)
  | .mul _ d a b => (regS a ++ regS b, regS d)
  | .mulh _ d a b => (regS a ++ regS b, regS d)
  | .mulhu _ d a b => (regS a ++ regS b, regS d)
  | .mad _ d a b => (regS a ++ regS b ++ regS d, regS d)
  | .div _ d a b => (regS a ++ regS b, regS d)
  | .divu _ d a b => (regS a ++ regS b, regS d)
  | .rem _ d a b => (regS a ++ regS b, regS d)
  | .remu _ d a b => (regS a ++ regS b, regS d)
  | .clz _ d a => (regS a, regS d)
  | .popc _ d a => (regS a, regS d)
  | .bfx _ d a b => (regS a ++ regS b, regS d)
  | .bfi _ d a b => (regS a ++ regS b ++ regS d, regS d)
  | .sel _ d a b p => (regS a ++ regS b ++ regP p, regS d)
  | .addx _ d a b p => (regS a ++ regS b ++ regP p, regS d)
  | .sext _ d a _ => (regS a, regS d)
  | .zext _ d a _ => (regS a, regS d)
  | .addi _ d a _ => (regS a, regS d)
  | .andi _ d a _ => (regS a, regS d)
  | .ori _ d a _ => (regS a, regS d)
  | .xori _ d a _ => (regS a, regS d)
  | .shli _ d a _ => (regS a, regS d)
  | .shri _ d a _ => (regS a, regS d)
  | .srai _ d a _ => (regS a, regS d)
  | .movi _ d _ => ([], regS d)
  | .ldk _ d _ => ([], regS d)
  | .cmp _ p _ a b => (regS a ++ regS b, regP p)
  | .cmpi _ p _ a _ => (regS a, regP p)
  | .plog _ d _ a b => (regP a ++ regP b, regP d)
  | .movc _ d c => (regC c.toNat, regS d)
  | .movtc _ a c => (regS a, regC c.toNat)
  | .movtcShape _ a => (regS a, regC 0x040)
  | .movtcFflags _ a => (regS a, regC 0x041)
  | .movtcRmode _ a => (regS a, regC 0x042)
  | .movtcLfsr _ a => (regS a, regC 0x043)
  | .movtcLc _ a l => (regS a, regC (0x010 + l.toNat))
  | .movtcGqt _ a => (regS a, regC 0x0e0)
  | .movtcCerr _ a => (regS a, regC 0x0e3)
  | .movtcSnapbase _ a => (regS a, regC 0x1e3)
  | .ld _ d a _ _ _ => (regS a, regS d)
  | .lds _ d a _ _ _ => (regS a, regS d)
  | .st _ d a _ _ _ => (regS a ++ regS d, [])
  | .lda _ d a _ _ => (regS a, regS d)
  | .strel _ d a _ _ => (regS a ++ regS d, [])
  | .atom _ d a b _ => (regS a ++ regS b, regS d)
  | .aswap _ d a b => (regS a ++ regS b, regS d)
  | .acas _ d a b => (regS a ++ regS b ++ regS d, regS d)
  | .atomsc _ d a b _ => (regS a ++ regS b, regS d)
  | .invr _ _ => ([], [])
  | .wbr _ _ _ => ([], [])
  | .own _ _ => ([], [])
  | .vld _ v a _ => (regS a, regV v)
  | .vst _ v a _ => (regS a ++ regV v, [])
  | .vlds _ v a b => (regS a ++ regS b, regV v)
  | .vsts _ v a b => (regS a ++ regS b ++ regV v, [])
  | .tld _ t a _ _ _ => (regS a ++ regT t, [])
  | .tst _ t a _ _ _ => (regS a ++ regT t, [])
  | .tcpy _ d s _ => (regT d ++ regT s, [])
  | .tdesc _ t _ => ([], regT t)
  | .gpush _ a => (regS a, [])
  | .gpop _ v => ([], regV v)
  | .spush _ v a => (regV v ++ regS a, [])
  | .cbget _ d _ => ([], regS d)
  | .cbput _ _ => ([], [])
  | .cbtake _ d _ => ([], regS d)
  | .cbgive _ _ => ([], [])
  | .lzres _ d a b => (regS a ++ regS b, regS d)
  | .tstx _ t a _ _ _ => (regS a ++ regT t, [])
  | .lzarm _ _ a _ => (regS a, [])
  | .lzrel _ a _ => (regS a, [])
  | .lzstat _ d a _ => (regS a, regS d)
  | .lzclean _ _ => ([], [])
  | .rdecl _ a b => (regS a ++ regS b, [])
  | .rpin _ a => (regS a, [])
  | .runpin _ a => (regS a, [])
  | .rseal _ a => (regS a, [])
  | .rdrop _ a => (regS a, [])
  | .jcpush _ a => (regS a, [])
  | .jcpop _ d => ([], regS d)
  | .snapst _ a => (regS a, [])
  | .snapld _ a => (regS a, [])
  | .tlbinv _ a b _ => (regS a ++ regS b, [])
  | .pref _ a _ => (regS a, [])
  | .vadd _ d a b => (regV a ++ regV b, regV d)
  | .vsub _ d a b => (regV a ++ regV b, regV d)
  | .vmul _ d a b => (regV a ++ regV b, regV d)
  | .vfma _ d a b => (regV a ++ regV b ++ regV d, regV d)
  | .vfms _ d a b => (regV a ++ regV b ++ regV d, regV d)
  | .vmin _ d a b => (regV a ++ regV b, regV d)
  | .vmax _ d a b => (regV a ++ regV b, regV d)
  | .vabs _ d a => (regV a, regV d)
  | .vneg _ d a => (regV a, regV d)
  | .vand _ d a b => (regV a ++ regV b, regV d)
  | .vor _ d a b => (regV a ++ regV b, regV d)
  | .vxor _ d a b => (regV a ++ regV b, regV d)
  | .vshl _ d a b => (regV a ++ regV b, regV d)
  | .vshr _ d a b => (regV a ++ regV b, regV d)
  | .vsra _ d a b => (regV a ++ regV b, regV d)
  | .vqadd _ d a b => (regV a ++ regV b, regV d)
  | .vqsub _ d a b => (regV a ++ regV b, regV d)
  | .vmulh _ d a b => (regV a ++ regV b, regV d)
  | .vceq _ d a b => (regV a ++ regV b, regV d)
  | .vclt _ d a b => (regV a ++ regV b, regV d)
  | .vcle _ d a b => (regV a ++ regV b, regV d)
  | .vcltu _ d a b => (regV a ++ regV b, regV d)
  | .vsel _ d a b => (regV a ++ regV b ++ regV d, regV d)
  | .vmov _ d a => (regV a, regV d)
  | .vbc _ d a => (regS a, regV d)
  | .viota _ d => ([], regV d)
  | .vrowsh _ d a _ => (regV a, regV d)
  | .vcolsh _ d a _ => (regV a, regV d)
  | .vesh _ d a _ => (regV a, regV d)
  | .vrot _ d a _ => (regV a, regV d)
  | .vtrn _ d a => (regV a, regV d)
  | .vcvt _ d a _ _ => (regV a, regV d)
  | .vpack3 _ d a => (regV a, regV d)
  | .vunp3 _ d a => (regV a, regV d)
  | .vcmpr _ d a => (regV a, regV d)
  | .vscl _ d a b => (regV a ++ regV b, regV d)
  | .vget _ d a _ => (regV a, regS d)
  | .vput _ d a _ => (regS a ++ regV d, regV d)
  | .fexp2 _ d a => (regV a, regV d)
  | .flog2 _ d a => (regV a, regV d)
  | .frecip _ d a => (regV a, regV d)
  | .frsqrt _ d a => (regV a, regV d)
  | .fsqrt _ d a => (regV a, regV d)
  | .ftanh _ d a => (regV a, regV d)
  | .fsigm _ d a => (regV a, regV d)
  | .fsin _ d a => (regV a, regV d)
  | .fcos _ d a => (regV a, regV d)
  | .fdiv _ d a b => (regV a ++ regV b, regV d)
  | .qadd _ _ a _ => (regV a, [])
  | .qmax _ _ a _ => (regV a, [])
  | .qmin _ _ a _ => (regV a, [])
  | .qscan _ _ a _ => (regV a, [])
  | .qmov _ d _ => ([], regV d)
  | .qclr _ _ => ([], [])
  | .pacq _ _ => ([], [])
  | .pwin _ a => (regS a, regC 0x080)
  | .pfset _ f a b => (regS a ++ regS b, regF f)
  | .pstep _ a b x y _ _ => (regT a ++ regT b ++ regF x ++ regF y, [])
  | .psteps _ a b x y _ _ => (regT a ++ regT b ++ regF x ++ regF y, [])
  | .pshift _ _ => ([], [])
  | .pload _ t _ _ => (regT t, [])
  | .pret _ t _ a _ => (regT t ++ regS a, [])
  | .prel _ => ([], [])
  | .hsend _ _ => ([], [])
  | .hadd _ _ => ([], [])
  | .hclr _ _ => ([], [])
  | .nlsend _ t _ => (regT t, [])
  | .nlrecv _ t _ => (regT t, [])
  | .quantumExpire .. => ([], [])
  | .packetFill .. => ([], [])
  | .sequentialPrefetch .. => ([], [])
  | .remoteOperandRequest .. => ([], [])
  | .tileWriteComplete .. => ([], [])
  | .huskStripTransfer .. => ([], [])
  | .nlStreamTransfer .. => ([], [])
  | .linkDown .. => ([], [])
  | .transferComplete .. => ([], [])
  | .apertureStore .. => ([], [])
  | .copyComplete .. => ([], [])
  | .gatherRowArrive .. => ([], [])
  | .heldStorePerform .. => ([], [])
  | .reg .. => ([], [])
  | .grant .. => ([], [])
  | .revoke .. => ([], [])
  | .fdata .. => ([], [])
  | .read .. => ([], [])
  | .fwd .. => ([], [])
  | .data .. => ([], [])
  | .wb .. => ([], [])
  | .retry .. => ([], [])
  | .gone .. => ([], [])
  | .lostReply .. => ([], [])
  | .bypassWrite .. => ([], [])
  | .atomicAtHome .. => ([], [])
  | .unpriv .. => ([], [])
  | .unprivAck .. => ([], [])
  | .hotLineReplicate .. => ([], [])
  | .atomscSend .. => ([], [])
  | .atomscArrive .. => ([], [])
  | .atomscApply .. => ([], [])
  | .atomscReply .. => ([], [])
  | .walkComplete .. => ([], [])
  | .regrowRequest .. => ([], [])
  | .sliceStart .. => ([], [])
  | .lzresMsg .. => ([], [])
  | .lzans .. => ([], [])
  | .lzpkt .. => ([], [])
  | .lzack .. => ([], [])
  | .lzabort .. => ([], [])
  | .lzSlotTimeout .. => ([], [])
  | .lzresQueueTimeout .. => ([], [])
  | .lzresAnswerTimeout .. => ([], [])
  | .lzpktResendTimeout .. => ([], [])
  | .lzresResendTimeout .. => ([], [])
  | .rd .. => ([], [])
  | .rdrsp .. => ([], [])
  | .wr .. => ([], [])
  | .wrack .. => ([], [])
  | .atomMsg .. => ([], [])
  | .atomrsp .. => ([], [])
  | .tlbinvMsg .. => ([], [])
  | .tlback .. => ([], [])
  | .nativeRequestTimeout .. => ([], [])
  | .unlistedMessage .. => ([], [])
  | .hostRead .. => ([], [])
  | .hostWrite .. => ([], [])
  | .hostSnoop .. => ([], [])
  | .bisnpResponse .. => ([], [])
  | .hostSnoopTimeout .. => ([], [])
  | .spdmRequest .. => ([], [])
  | .windowStore .. => ([], [])
  | .launchSeal .. => ([], [])
  | .bindRecord .. => ([], [])
  | .classifierWindowEnd .. => ([], [])
  | .launchComplete .. => ([], [])
  | .jobCardReady .. => ([], [])
  | .jobCardSteal .. => ([], [])
  | .frameTickAdvance .. => ([], [])
  | .releaseTick .. => ([], [])
  | .deadlineSlip .. => ([], [])
  | .slipEnd .. => ([], [])
  | .powerSample .. => ([], [])
  | .powerStallEnd .. => ([], [])
  | .preemptRequest .. => ([], [])
  | .preemptGrant .. => ([], [])
  | .strandRestore .. => ([], [])
  | .errorFreeze .. => ([], [])
  | .coreHardwareStop .. => ([], [])
  | .pllLossOfLock .. => ([], [])
  | .powerOn .. => ([], [])
  | .i3cReadBlackBox .. => ([], [])
  | .i3cReadPowerSamples .. => ([], [])
  | .i3cReadBringupStatus .. => ([], [])
  | .i3cWritePowerCap .. => ([], [])
  | .createAsid .. => ([], [])
  | .bindQueue .. => ([], [])
  | .unbindQueue .. => ([], [])
  | .unbindQueueDone .. => ([], [])
  | .mapAccessGroup .. => ([], [])
  | .setRegion .. => ([], [])
  | .setRights .. => ([], [])
  | .definePartition .. => ([], [])
  | .setProtection .. => ([], [])
  | .defineReservationClass .. => ([], [])
  | .defineHostRange .. => ([], [])
  | .flipBias .. => ([], [])
  | .biasFlipEnd .. => ([], [])
  | .tearDown .. => ([], [])
  | .scrubPage .. => ([], [])
  | .restoreLink .. => ([], [])
  | .updateFirmware .. => ([], [])
  | .setNode .. => ([], [])
  | .writeRouteEntry .. => ([], [])
  | .queueStatus .. => ([], [])
  | .unknownCommand .. => ([], [])
  | .emptyBundle .. => ([], [])
  | .reservedEncoding .. => ([], [])
  | .slotZeroFillComplete .. => ([], [])
  | .mailboxStore .. => ([], [])
  | .cxlCacheResponse .. => ([], [])
  | .snapfitQuery .. => ([], [])
  | .powerLoss .. => ([], [])

/-- The scalar fields a, b and d of an op whose values a trap captures (R340); a field that is absent, or
that names no scalar, is captured as s0. -/
def scalarFields : Instr → BitVec 6 × BitVec 6 × BitVec 6
  | .br _ _ => (0, 0, 0)
  | .bri _ a => (a, 0, 0)
  | .call _ _ => (0, 0, 0)
  | .calli _ a => (a, 0, 0)
  | .ret _ => (0, 0, 0)
  | .loop _ _ a _ => (a, 0, 0)
  | .loopi _ _ _ _ => (0, 0, 0)
  | .endStrand _ => (0, 0, 0)
  | .yield _ => (0, 0, 0)
  | .waitid _ _ a => (a, 0, 0)
  | .waitt _ _ => (0, 0, 0)
  | .bar _ _ => (0, 0, 0)
  | .rdv _ _ => (0, 0, 0)
  | .fence _ a _ => (a, 0, 0)
  | .lzwait _ _ d => (0, 0, d)
  | .spawn _ a => (a, 0, 0)
  | .trap _ _ => (0, 0, 0)
  | .tret _ => (0, 0, 0)
  | .snaprel _ => (0, 0, 0)
  | .holdret _ => (0, 0, 0)
  | .rdone _ => (0, 0, 0)
  | .add _ d a b => (a, b, d)
  | .sub _ d a b => (a, b, d)
  | .and _ d a b => (a, b, d)
  | .or _ d a b => (a, b, d)
  | .xor _ d a b => (a, b, d)
  | .andn _ d a b => (a, b, d)
  | .shl _ d a b => (a, b, d)
  | .shr _ d a b => (a, b, d)
  | .sra _ d a b => (a, b, d)
  | .min _ d a b => (a, b, d)
  | .max _ d a b => (a, b, d)
  | .minu _ d a b => (a, b, d)
  | .maxu _ d a b => (a, b, d)
  | .mul _ d a b => (a, b, d)
  | .mulh _ d a b => (a, b, d)
  | .mulhu _ d a b => (a, b, d)
  | .mad _ d a b => (a, b, d)
  | .div _ d a b => (a, b, d)
  | .divu _ d a b => (a, b, d)
  | .rem _ d a b => (a, b, d)
  | .remu _ d a b => (a, b, d)
  | .clz _ d a => (a, 0, d)
  | .popc _ d a => (a, 0, d)
  | .bfx _ d a b => (a, b, d)
  | .bfi _ d a b => (a, b, d)
  | .sel _ d a b _ => (a, b, d)
  | .addx _ d a b _ => (a, b, d)
  | .sext _ d a _ => (a, 0, d)
  | .zext _ d a _ => (a, 0, d)
  | .addi _ d a _ => (a, 0, d)
  | .andi _ d a _ => (a, 0, d)
  | .ori _ d a _ => (a, 0, d)
  | .xori _ d a _ => (a, 0, d)
  | .shli _ d a _ => (a, 0, d)
  | .shri _ d a _ => (a, 0, d)
  | .srai _ d a _ => (a, 0, d)
  | .movi _ d _ => (0, 0, d)
  | .ldk _ d _ => (0, 0, d)
  | .cmp _ _ _ a b => (a, b, 0)
  | .cmpi _ _ _ a _ => (a, 0, 0)
  | .plog _ _ _ _ _ => (0, 0, 0)
  | .movc _ d _ => (0, 0, d)
  | .movtc _ a _ => (a, 0, 0)
  | .movtcShape _ a => (a, 0, 0)
  | .movtcFflags _ a => (a, 0, 0)
  | .movtcRmode _ a => (a, 0, 0)
  | .movtcLfsr _ a => (a, 0, 0)
  | .movtcLc _ a _ => (a, 0, 0)
  | .movtcGqt _ a => (a, 0, 0)
  | .movtcCerr _ a => (a, 0, 0)
  | .movtcSnapbase _ a => (a, 0, 0)
  | .ld _ d a _ _ _ => (a, 0, d)
  | .lds _ d a _ _ _ => (a, 0, d)
  | .st _ d a _ _ _ => (a, 0, d)
  | .lda _ d a _ _ => (a, 0, d)
  | .strel _ d a _ _ => (a, 0, d)
  | .atom _ d a b _ => (a, b, d)
  | .aswap _ d a b => (a, b, d)
  | .acas _ d a b => (a, b, d)
  | .atomsc _ d a b _ => (a, b, d)
  | .invr _ _ => (0, 0, 0)
  | .wbr _ _ _ => (0, 0, 0)
  | .own _ _ => (0, 0, 0)
  | .vld _ _ a _ => (a, 0, 0)
  | .vst _ _ a _ => (a, 0, 0)
  | .vlds _ _ a b => (a, b, 0)
  | .vsts _ _ a b => (a, b, 0)
  | .tld _ _ a _ _ _ => (a, 0, 0)
  | .tst _ _ a _ _ _ => (a, 0, 0)
  | .tcpy _ _ _ _ => (0, 0, 0)
  | .tdesc _ _ _ => (0, 0, 0)
  | .gpush _ a => (a, 0, 0)
  | .gpop _ _ => (0, 0, 0)
  | .spush _ _ a => (a, 0, 0)
  | .cbget _ d _ => (0, 0, d)
  | .cbput _ _ => (0, 0, 0)
  | .cbtake _ d _ => (0, 0, d)
  | .cbgive _ _ => (0, 0, 0)
  | .lzres _ d a b => (a, b, d)
  | .tstx _ _ a _ _ _ => (a, 0, 0)
  | .lzarm _ _ a _ => (a, 0, 0)
  | .lzrel _ a _ => (a, 0, 0)
  | .lzstat _ d a _ => (a, 0, d)
  | .lzclean _ _ => (0, 0, 0)
  | .rdecl _ a b => (a, b, 0)
  | .rpin _ a => (a, 0, 0)
  | .runpin _ a => (a, 0, 0)
  | .rseal _ a => (a, 0, 0)
  | .rdrop _ a => (a, 0, 0)
  | .jcpush _ a => (a, 0, 0)
  | .jcpop _ d => (0, 0, d)
  | .snapst _ a => (a, 0, 0)
  | .snapld _ a => (a, 0, 0)
  | .tlbinv _ a b _ => (a, b, 0)
  | .pref _ a _ => (a, 0, 0)
  | .vadd _ _ _ _ => (0, 0, 0)
  | .vsub _ _ _ _ => (0, 0, 0)
  | .vmul _ _ _ _ => (0, 0, 0)
  | .vfma _ _ _ _ => (0, 0, 0)
  | .vfms _ _ _ _ => (0, 0, 0)
  | .vmin _ _ _ _ => (0, 0, 0)
  | .vmax _ _ _ _ => (0, 0, 0)
  | .vabs _ _ _ => (0, 0, 0)
  | .vneg _ _ _ => (0, 0, 0)
  | .vand _ _ _ _ => (0, 0, 0)
  | .vor _ _ _ _ => (0, 0, 0)
  | .vxor _ _ _ _ => (0, 0, 0)
  | .vshl _ _ _ _ => (0, 0, 0)
  | .vshr _ _ _ _ => (0, 0, 0)
  | .vsra _ _ _ _ => (0, 0, 0)
  | .vqadd _ _ _ _ => (0, 0, 0)
  | .vqsub _ _ _ _ => (0, 0, 0)
  | .vmulh _ _ _ _ => (0, 0, 0)
  | .vceq _ _ _ _ => (0, 0, 0)
  | .vclt _ _ _ _ => (0, 0, 0)
  | .vcle _ _ _ _ => (0, 0, 0)
  | .vcltu _ _ _ _ => (0, 0, 0)
  | .vsel _ _ _ _ => (0, 0, 0)
  | .vmov _ _ _ => (0, 0, 0)
  | .vbc _ _ a => (a, 0, 0)
  | .viota _ _ => (0, 0, 0)
  | .vrowsh _ _ _ _ => (0, 0, 0)
  | .vcolsh _ _ _ _ => (0, 0, 0)
  | .vesh _ _ _ _ => (0, 0, 0)
  | .vrot _ _ _ _ => (0, 0, 0)
  | .vtrn _ _ _ => (0, 0, 0)
  | .vcvt _ _ _ _ _ => (0, 0, 0)
  | .vpack3 _ _ _ => (0, 0, 0)
  | .vunp3 _ _ _ => (0, 0, 0)
  | .vcmpr _ _ _ => (0, 0, 0)
  | .vscl _ _ _ _ => (0, 0, 0)
  | .vget _ d _ _ => (0, 0, d)
  | .vput _ _ a _ => (a, 0, 0)
  | .fexp2 _ _ _ => (0, 0, 0)
  | .flog2 _ _ _ => (0, 0, 0)
  | .frecip _ _ _ => (0, 0, 0)
  | .frsqrt _ _ _ => (0, 0, 0)
  | .fsqrt _ _ _ => (0, 0, 0)
  | .ftanh _ _ _ => (0, 0, 0)
  | .fsigm _ _ _ => (0, 0, 0)
  | .fsin _ _ _ => (0, 0, 0)
  | .fcos _ _ _ => (0, 0, 0)
  | .fdiv _ _ _ _ => (0, 0, 0)
  | .qadd _ _ _ _ => (0, 0, 0)
  | .qmax _ _ _ _ => (0, 0, 0)
  | .qmin _ _ _ _ => (0, 0, 0)
  | .qscan _ _ _ _ => (0, 0, 0)
  | .qmov _ _ _ => (0, 0, 0)
  | .qclr _ _ => (0, 0, 0)
  | .pacq _ _ => (0, 0, 0)
  | .pwin _ a => (a, 0, 0)
  | .pfset _ _ a b => (a, b, 0)
  | .pstep _ _ _ _ _ _ _ => (0, 0, 0)
  | .psteps _ _ _ _ _ _ _ => (0, 0, 0)
  | .pshift _ _ => (0, 0, 0)
  | .pload _ _ _ _ => (0, 0, 0)
  | .pret _ _ _ a _ => (a, 0, 0)
  | .prel _ => (0, 0, 0)
  | .hsend _ _ => (0, 0, 0)
  | .hadd _ _ => (0, 0, 0)
  | .hclr _ _ => (0, 0, 0)
  | .nlsend _ _ _ => (0, 0, 0)
  | .nlrecv _ _ _ => (0, 0, 0)
  | .quantumExpire .. => (0, 0, 0)
  | .packetFill .. => (0, 0, 0)
  | .sequentialPrefetch .. => (0, 0, 0)
  | .remoteOperandRequest .. => (0, 0, 0)
  | .tileWriteComplete .. => (0, 0, 0)
  | .huskStripTransfer .. => (0, 0, 0)
  | .nlStreamTransfer .. => (0, 0, 0)
  | .linkDown .. => (0, 0, 0)
  | .transferComplete .. => (0, 0, 0)
  | .apertureStore .. => (0, 0, 0)
  | .copyComplete .. => (0, 0, 0)
  | .gatherRowArrive .. => (0, 0, 0)
  | .heldStorePerform .. => (0, 0, 0)
  | .reg .. => (0, 0, 0)
  | .grant .. => (0, 0, 0)
  | .revoke .. => (0, 0, 0)
  | .fdata .. => (0, 0, 0)
  | .read .. => (0, 0, 0)
  | .fwd .. => (0, 0, 0)
  | .data .. => (0, 0, 0)
  | .wb .. => (0, 0, 0)
  | .retry .. => (0, 0, 0)
  | .gone .. => (0, 0, 0)
  | .lostReply .. => (0, 0, 0)
  | .bypassWrite .. => (0, 0, 0)
  | .atomicAtHome .. => (0, 0, 0)
  | .unpriv .. => (0, 0, 0)
  | .unprivAck .. => (0, 0, 0)
  | .hotLineReplicate .. => (0, 0, 0)
  | .atomscSend .. => (0, 0, 0)
  | .atomscArrive .. => (0, 0, 0)
  | .atomscApply .. => (0, 0, 0)
  | .atomscReply .. => (0, 0, 0)
  | .walkComplete .. => (0, 0, 0)
  | .regrowRequest .. => (0, 0, 0)
  | .sliceStart .. => (0, 0, 0)
  | .lzresMsg .. => (0, 0, 0)
  | .lzans .. => (0, 0, 0)
  | .lzpkt .. => (0, 0, 0)
  | .lzack .. => (0, 0, 0)
  | .lzabort .. => (0, 0, 0)
  | .lzSlotTimeout .. => (0, 0, 0)
  | .lzresQueueTimeout .. => (0, 0, 0)
  | .lzresAnswerTimeout .. => (0, 0, 0)
  | .lzpktResendTimeout .. => (0, 0, 0)
  | .lzresResendTimeout .. => (0, 0, 0)
  | .rd .. => (0, 0, 0)
  | .rdrsp .. => (0, 0, 0)
  | .wr .. => (0, 0, 0)
  | .wrack .. => (0, 0, 0)
  | .atomMsg .. => (0, 0, 0)
  | .atomrsp .. => (0, 0, 0)
  | .tlbinvMsg .. => (0, 0, 0)
  | .tlback .. => (0, 0, 0)
  | .nativeRequestTimeout .. => (0, 0, 0)
  | .unlistedMessage .. => (0, 0, 0)
  | .hostRead .. => (0, 0, 0)
  | .hostWrite .. => (0, 0, 0)
  | .hostSnoop .. => (0, 0, 0)
  | .bisnpResponse .. => (0, 0, 0)
  | .hostSnoopTimeout .. => (0, 0, 0)
  | .spdmRequest .. => (0, 0, 0)
  | .windowStore .. => (0, 0, 0)
  | .launchSeal .. => (0, 0, 0)
  | .bindRecord .. => (0, 0, 0)
  | .classifierWindowEnd .. => (0, 0, 0)
  | .launchComplete .. => (0, 0, 0)
  | .jobCardReady .. => (0, 0, 0)
  | .jobCardSteal .. => (0, 0, 0)
  | .frameTickAdvance .. => (0, 0, 0)
  | .releaseTick .. => (0, 0, 0)
  | .deadlineSlip .. => (0, 0, 0)
  | .slipEnd .. => (0, 0, 0)
  | .powerSample .. => (0, 0, 0)
  | .powerStallEnd .. => (0, 0, 0)
  | .preemptRequest .. => (0, 0, 0)
  | .preemptGrant .. => (0, 0, 0)
  | .strandRestore .. => (0, 0, 0)
  | .errorFreeze .. => (0, 0, 0)
  | .coreHardwareStop .. => (0, 0, 0)
  | .pllLossOfLock .. => (0, 0, 0)
  | .powerOn .. => (0, 0, 0)
  | .i3cReadBlackBox .. => (0, 0, 0)
  | .i3cReadPowerSamples .. => (0, 0, 0)
  | .i3cReadBringupStatus .. => (0, 0, 0)
  | .i3cWritePowerCap .. => (0, 0, 0)
  | .createAsid .. => (0, 0, 0)
  | .bindQueue .. => (0, 0, 0)
  | .unbindQueue .. => (0, 0, 0)
  | .unbindQueueDone .. => (0, 0, 0)
  | .mapAccessGroup .. => (0, 0, 0)
  | .setRegion .. => (0, 0, 0)
  | .setRights .. => (0, 0, 0)
  | .definePartition .. => (0, 0, 0)
  | .setProtection .. => (0, 0, 0)
  | .defineReservationClass .. => (0, 0, 0)
  | .defineHostRange .. => (0, 0, 0)
  | .flipBias .. => (0, 0, 0)
  | .biasFlipEnd .. => (0, 0, 0)
  | .tearDown .. => (0, 0, 0)
  | .scrubPage .. => (0, 0, 0)
  | .restoreLink .. => (0, 0, 0)
  | .updateFirmware .. => (0, 0, 0)
  | .setNode .. => (0, 0, 0)
  | .writeRouteEntry .. => (0, 0, 0)
  | .queueStatus .. => (0, 0, 0)
  | .unknownCommand .. => (0, 0, 0)
  | .emptyBundle .. => (0, 0, 0)
  | .reservedEncoding .. => (0, 0, 0)
  | .slotZeroFillComplete .. => (0, 0, 0)
  | .mailboxStore .. => (0, 0, 0)
  | .cxlCacheResponse .. => (0, 0, 0)
  | .snapfitQuery .. => (0, 0, 0)
  | .powerLoss .. => (0, 0, 0)

/-- The guard of a slot op; a step without a word has none. -/
def guardOfInstr : Instr → Guard
  | .br g _ => g
  | .bri g _ => g
  | .call g _ => g
  | .calli g _ => g
  | .ret g => g
  | .loop g _ _ _ => g
  | .loopi g _ _ _ => g
  | .endStrand g => g
  | .yield g => g
  | .waitid g _ _ => g
  | .waitt g _ => g
  | .bar g _ => g
  | .rdv g _ => g
  | .fence g _ _ => g
  | .lzwait g _ _ => g
  | .spawn g _ => g
  | .trap g _ => g
  | .tret g => g
  | .snaprel g => g
  | .holdret g => g
  | .rdone g => g
  | .add g _ _ _ => g
  | .sub g _ _ _ => g
  | .and g _ _ _ => g
  | .or g _ _ _ => g
  | .xor g _ _ _ => g
  | .andn g _ _ _ => g
  | .shl g _ _ _ => g
  | .shr g _ _ _ => g
  | .sra g _ _ _ => g
  | .min g _ _ _ => g
  | .max g _ _ _ => g
  | .minu g _ _ _ => g
  | .maxu g _ _ _ => g
  | .mul g _ _ _ => g
  | .mulh g _ _ _ => g
  | .mulhu g _ _ _ => g
  | .mad g _ _ _ => g
  | .div g _ _ _ => g
  | .divu g _ _ _ => g
  | .rem g _ _ _ => g
  | .remu g _ _ _ => g
  | .clz g _ _ => g
  | .popc g _ _ => g
  | .bfx g _ _ _ => g
  | .bfi g _ _ _ => g
  | .sel g _ _ _ _ => g
  | .addx g _ _ _ _ => g
  | .sext g _ _ _ => g
  | .zext g _ _ _ => g
  | .addi g _ _ _ => g
  | .andi g _ _ _ => g
  | .ori g _ _ _ => g
  | .xori g _ _ _ => g
  | .shli g _ _ _ => g
  | .shri g _ _ _ => g
  | .srai g _ _ _ => g
  | .movi g _ _ => g
  | .ldk g _ _ => g
  | .cmp g _ _ _ _ => g
  | .cmpi g _ _ _ _ => g
  | .plog g _ _ _ _ => g
  | .movc g _ _ => g
  | .movtc g _ _ => g
  | .movtcShape g _ => g
  | .movtcFflags g _ => g
  | .movtcRmode g _ => g
  | .movtcLfsr g _ => g
  | .movtcLc g _ _ => g
  | .movtcGqt g _ => g
  | .movtcCerr g _ => g
  | .movtcSnapbase g _ => g
  | .ld g _ _ _ _ _ => g
  | .lds g _ _ _ _ _ => g
  | .st g _ _ _ _ _ => g
  | .lda g _ _ _ _ => g
  | .strel g _ _ _ _ => g
  | .atom g _ _ _ _ => g
  | .aswap g _ _ _ => g
  | .acas g _ _ _ => g
  | .atomsc g _ _ _ _ => g
  | .invr g _ => g
  | .wbr g _ _ => g
  | .own g _ => g
  | .vld g _ _ _ => g
  | .vst g _ _ _ => g
  | .vlds g _ _ _ => g
  | .vsts g _ _ _ => g
  | .tld g _ _ _ _ _ => g
  | .tst g _ _ _ _ _ => g
  | .tcpy g _ _ _ => g
  | .tdesc g _ _ => g
  | .gpush g _ => g
  | .gpop g _ => g
  | .spush g _ _ => g
  | .cbget g _ _ => g
  | .cbput g _ => g
  | .cbtake g _ _ => g
  | .cbgive g _ => g
  | .lzres g _ _ _ => g
  | .tstx g _ _ _ _ _ => g
  | .lzarm g _ _ _ => g
  | .lzrel g _ _ => g
  | .lzstat g _ _ _ => g
  | .lzclean g _ => g
  | .rdecl g _ _ => g
  | .rpin g _ => g
  | .runpin g _ => g
  | .rseal g _ => g
  | .rdrop g _ => g
  | .jcpush g _ => g
  | .jcpop g _ => g
  | .snapst g _ => g
  | .snapld g _ => g
  | .tlbinv g _ _ _ => g
  | .pref g _ _ => g
  | .vadd g _ _ _ => g
  | .vsub g _ _ _ => g
  | .vmul g _ _ _ => g
  | .vfma g _ _ _ => g
  | .vfms g _ _ _ => g
  | .vmin g _ _ _ => g
  | .vmax g _ _ _ => g
  | .vabs g _ _ => g
  | .vneg g _ _ => g
  | .vand g _ _ _ => g
  | .vor g _ _ _ => g
  | .vxor g _ _ _ => g
  | .vshl g _ _ _ => g
  | .vshr g _ _ _ => g
  | .vsra g _ _ _ => g
  | .vqadd g _ _ _ => g
  | .vqsub g _ _ _ => g
  | .vmulh g _ _ _ => g
  | .vceq g _ _ _ => g
  | .vclt g _ _ _ => g
  | .vcle g _ _ _ => g
  | .vcltu g _ _ _ => g
  | .vsel g _ _ _ => g
  | .vmov g _ _ => g
  | .vbc g _ _ => g
  | .viota g _ => g
  | .vrowsh g _ _ _ => g
  | .vcolsh g _ _ _ => g
  | .vesh g _ _ _ => g
  | .vrot g _ _ _ => g
  | .vtrn g _ _ => g
  | .vcvt g _ _ _ _ => g
  | .vpack3 g _ _ => g
  | .vunp3 g _ _ => g
  | .vcmpr g _ _ => g
  | .vscl g _ _ _ => g
  | .vget g _ _ _ => g
  | .vput g _ _ _ => g
  | .fexp2 g _ _ => g
  | .flog2 g _ _ => g
  | .frecip g _ _ => g
  | .frsqrt g _ _ => g
  | .fsqrt g _ _ => g
  | .ftanh g _ _ => g
  | .fsigm g _ _ => g
  | .fsin g _ _ => g
  | .fcos g _ _ => g
  | .fdiv g _ _ _ => g
  | .qadd g _ _ _ => g
  | .qmax g _ _ _ => g
  | .qmin g _ _ _ => g
  | .qscan g _ _ _ => g
  | .qmov g _ _ => g
  | .qclr g _ => g
  | .pacq g _ => g
  | .pwin g _ => g
  | .pfset g _ _ _ => g
  | .pstep g _ _ _ _ _ _ => g
  | .psteps g _ _ _ _ _ _ => g
  | .pshift g _ => g
  | .pload g _ _ _ => g
  | .pret g _ _ _ _ => g
  | .prel g => g
  | .hsend g _ => g
  | .hadd g _ => g
  | .hclr g _ => g
  | .nlsend g _ _ => g
  | .nlrecv g _ _ => g
  | .quantumExpire .. => ⟨0, false⟩
  | .packetFill .. => ⟨0, false⟩
  | .sequentialPrefetch .. => ⟨0, false⟩
  | .remoteOperandRequest .. => ⟨0, false⟩
  | .tileWriteComplete .. => ⟨0, false⟩
  | .huskStripTransfer .. => ⟨0, false⟩
  | .nlStreamTransfer .. => ⟨0, false⟩
  | .linkDown .. => ⟨0, false⟩
  | .transferComplete .. => ⟨0, false⟩
  | .apertureStore .. => ⟨0, false⟩
  | .copyComplete .. => ⟨0, false⟩
  | .gatherRowArrive .. => ⟨0, false⟩
  | .heldStorePerform .. => ⟨0, false⟩
  | .reg .. => ⟨0, false⟩
  | .grant .. => ⟨0, false⟩
  | .revoke .. => ⟨0, false⟩
  | .fdata .. => ⟨0, false⟩
  | .read .. => ⟨0, false⟩
  | .fwd .. => ⟨0, false⟩
  | .data .. => ⟨0, false⟩
  | .wb .. => ⟨0, false⟩
  | .retry .. => ⟨0, false⟩
  | .gone .. => ⟨0, false⟩
  | .lostReply .. => ⟨0, false⟩
  | .bypassWrite .. => ⟨0, false⟩
  | .atomicAtHome .. => ⟨0, false⟩
  | .unpriv .. => ⟨0, false⟩
  | .unprivAck .. => ⟨0, false⟩
  | .hotLineReplicate .. => ⟨0, false⟩
  | .atomscSend .. => ⟨0, false⟩
  | .atomscArrive .. => ⟨0, false⟩
  | .atomscApply .. => ⟨0, false⟩
  | .atomscReply .. => ⟨0, false⟩
  | .walkComplete .. => ⟨0, false⟩
  | .regrowRequest .. => ⟨0, false⟩
  | .sliceStart .. => ⟨0, false⟩
  | .lzresMsg .. => ⟨0, false⟩
  | .lzans .. => ⟨0, false⟩
  | .lzpkt .. => ⟨0, false⟩
  | .lzack .. => ⟨0, false⟩
  | .lzabort .. => ⟨0, false⟩
  | .lzSlotTimeout .. => ⟨0, false⟩
  | .lzresQueueTimeout .. => ⟨0, false⟩
  | .lzresAnswerTimeout .. => ⟨0, false⟩
  | .lzpktResendTimeout .. => ⟨0, false⟩
  | .lzresResendTimeout .. => ⟨0, false⟩
  | .rd .. => ⟨0, false⟩
  | .rdrsp .. => ⟨0, false⟩
  | .wr .. => ⟨0, false⟩
  | .wrack .. => ⟨0, false⟩
  | .atomMsg .. => ⟨0, false⟩
  | .atomrsp .. => ⟨0, false⟩
  | .tlbinvMsg .. => ⟨0, false⟩
  | .tlback .. => ⟨0, false⟩
  | .nativeRequestTimeout .. => ⟨0, false⟩
  | .unlistedMessage .. => ⟨0, false⟩
  | .hostRead .. => ⟨0, false⟩
  | .hostWrite .. => ⟨0, false⟩
  | .hostSnoop .. => ⟨0, false⟩
  | .bisnpResponse .. => ⟨0, false⟩
  | .hostSnoopTimeout .. => ⟨0, false⟩
  | .spdmRequest .. => ⟨0, false⟩
  | .windowStore .. => ⟨0, false⟩
  | .launchSeal .. => ⟨0, false⟩
  | .bindRecord .. => ⟨0, false⟩
  | .classifierWindowEnd .. => ⟨0, false⟩
  | .launchComplete .. => ⟨0, false⟩
  | .jobCardReady .. => ⟨0, false⟩
  | .jobCardSteal .. => ⟨0, false⟩
  | .frameTickAdvance .. => ⟨0, false⟩
  | .releaseTick .. => ⟨0, false⟩
  | .deadlineSlip .. => ⟨0, false⟩
  | .slipEnd .. => ⟨0, false⟩
  | .powerSample .. => ⟨0, false⟩
  | .powerStallEnd .. => ⟨0, false⟩
  | .preemptRequest .. => ⟨0, false⟩
  | .preemptGrant .. => ⟨0, false⟩
  | .strandRestore .. => ⟨0, false⟩
  | .errorFreeze .. => ⟨0, false⟩
  | .coreHardwareStop .. => ⟨0, false⟩
  | .pllLossOfLock .. => ⟨0, false⟩
  | .powerOn .. => ⟨0, false⟩
  | .i3cReadBlackBox .. => ⟨0, false⟩
  | .i3cReadPowerSamples .. => ⟨0, false⟩
  | .i3cReadBringupStatus .. => ⟨0, false⟩
  | .i3cWritePowerCap .. => ⟨0, false⟩
  | .createAsid .. => ⟨0, false⟩
  | .bindQueue .. => ⟨0, false⟩
  | .unbindQueue .. => ⟨0, false⟩
  | .unbindQueueDone .. => ⟨0, false⟩
  | .mapAccessGroup .. => ⟨0, false⟩
  | .setRegion .. => ⟨0, false⟩
  | .setRights .. => ⟨0, false⟩
  | .definePartition .. => ⟨0, false⟩
  | .setProtection .. => ⟨0, false⟩
  | .defineReservationClass .. => ⟨0, false⟩
  | .defineHostRange .. => ⟨0, false⟩
  | .flipBias .. => ⟨0, false⟩
  | .biasFlipEnd .. => ⟨0, false⟩
  | .tearDown .. => ⟨0, false⟩
  | .scrubPage .. => ⟨0, false⟩
  | .restoreLink .. => ⟨0, false⟩
  | .updateFirmware .. => ⟨0, false⟩
  | .setNode .. => ⟨0, false⟩
  | .writeRouteEntry .. => ⟨0, false⟩
  | .queueStatus .. => ⟨0, false⟩
  | .unknownCommand .. => ⟨0, false⟩
  | .emptyBundle .. => ⟨0, false⟩
  | .reservedEncoding w => guardOf w
  | .slotZeroFillComplete .. => ⟨0, false⟩
  | .mailboxStore .. => ⟨0, false⟩
  | .cxlCacheResponse .. => ⟨0, false⟩
  | .snapfitQuery .. => ⟨0, false⟩
  | .powerLoss .. => ⟨0, false⟩

end Sys2Proof.Machine
end

