-- ==== Sys2Proof/Machine/Ops.lean ====
section
/-! DEFINITION. The named operations over the state: reaching cores and contexts, reading operands,
delivering results, the snapshot image, taking a trap and returning from one, and closing a bundle. -/

namespace Sys2Proof.Machine

/-! ## Cores and contexts -/

def State.core (s : State) (n : Nat) : Core := Map.get {} s.cores n

def State.setCore (s : State) (n : Nat) (c : Core) : State :=
  { s with cores := Map.put {} s.cores n c }

def Core.ctx (c : Core) (x : Nat) : Ctx := Map.get {} c.ctxs x

def Core.setCtx (c : Core) (x : Nat) (k : Ctx) : Core := { c with ctxs := Map.put {} c.ctxs x k }

def State.ctx (s : State) (w : Who) : Ctx := (s.core w.core).ctx w.ctx

def State.setCtx (s : State) (w : Who) (k : Ctx) : State :=
  s.setCore w.core ((s.core w.core).setCtx w.ctx k)

/-- The issuing core and context. -/
def State.who (s : State) : Who := ⟨s.cur.core, s.cur.ctx⟩

def State.myCore (s : State) : Core := s.core s.cur.core

def State.setMyCore (s : State) (c : Core) : State := s.setCore s.cur.core c

def State.me (s : State) : Ctx := s.ctx s.who

def State.setMe (s : State) (k : Ctx) : State := s.setCtx s.who k

def State.regs (s : State) : Regs := s.me.regs

def State.setRegs (s : State) (r : Regs) : State := s.setMe { s.me with regs := r }

def State.setCur (s : State) (c : Cursor) : State := { s with cur := c }

def State.setDev (s : State) (d : Device) : State := { s with dev := d }

/-- Put a message or an event among those that have yet to happen. -/
def State.post (s : State) (i : Instr) : State := { s with pending := s.pending ++ [i] }

/-- Put an event among those that have yet to happen, unless it is there already. -/
def State.postOnce (s : State) (i : Instr) : State := if i ∈ s.pending then s else s.post i

/-- Post each of a list. -/
def State.postAll (s : State) (l : List Instr) : State := { s with pending := s.pending ++ l }

/-- Every context that the state lists. -/
def State.allWho (s : State) : List Who :=
  s.cores.flatMap fun c => c.2.ctxs.map fun k => ⟨c.1, k.1⟩

/-! ## Places (R9 to R11) -/

/-- Dies of the part (R379). -/
def State.dies (s : State) : Nat := if s.dev.form = 2 then 1 else 4

/-- Rows of the core grid: 24 on the 7940-P and 7940-M, 12 on the 7940-D (R2, R9, R379). -/
def State.gridSize (s : State) : Nat := if s.dev.form = 2 then 12 else 24

/-- The core in row `r` and column `c` of the grid, its row, column, die and pod (R9). -/
def coreAt (r c : Nat) : Nat := r * 24 + c

def coreRow (n : Nat) : Nat := n / 24
def coreCol (n : Nat) : Nat := n % 24
def coreDie (n : Nat) : Nat := n / 24 / 12 * 2 + n % 24 / 12
def corePod (n : Nat) : Nat := n / 24 / 4 * 6 + n % 24 / 4

/-- The core at a pod position (row mod 4)·4 + (column mod 4) in the pod of `n` (R199). -/
def podMate (n pos : Nat) : Nat :=
  coreAt (coreRow n / 4 * 4 + pos / 4) (coreCol n / 4 * 4 + pos % 4)

/-- The neighbour of a core in a direction, when there is one (R177, R186, R379). -/
def State.neighbour (s : State) (n : Nat) (d : Dir) : Option Nat :=
  let r := coreRow n
  let c := coreCol n
  let g := s.gridSize
  if d = 0#2 then (if r = 0 then none else some (coreAt (r - 1) c))
  else if d = 1#2 then (if c + 1 < g then some (coreAt r (c + 1)) else none)
  else if d = 2#2 then (if r + 1 < g then some (coreAt (r + 1) c) else none)
  else (if c = 0 then none else some (coreAt r (c - 1)))

/-- The opposite direction. -/
def dirBack (d : Dir) : Dir := d + 2#2

/-! ## Reading operands -/

/-- Scalar `n`: s0 reads zero (R94). -/
def readS (r : Regs) (n : BitVec 6) : Dword := if n = 0#6 then 0 else Map.get 0 r.s n.toNat

/-- Predicate `n`: p0 reads true (R94). -/
def readP (r : Regs) (n : BitVec 3) : Bool := decide (n = 0#3) || r.p.getLsbD n.toNat

/-- The captured operand of the running slot in the snapshot image (R340): 0 s[a], 1 s[b], 2 s[d], 3
SHAPE. -/
def State.captured (s : State) (k : Nat) : Dword := Map.get 0 s.me.snap (272 + 4 * s.cur.slot + k)

/-- Operand s[a]: as captured in a replay, else as the bundle reads it (R342). -/
def State.srcA (s : State) (n : BitVec 6) : Dword :=
  if s.cur.replay then s.captured 0 else readS s.regs n

def State.srcB (s : State) (n : BitVec 6) : Dword :=
  if s.cur.replay then s.captured 1 else readS s.regs n

def State.srcD (s : State) (n : BitVec 6) : Dword :=
  if s.cur.replay then s.captured 2 else readS s.regs n

/-- SHAPE as it governs the op: as captured in a replay (R131, R342). -/
def State.shape (s : State) : Word :=
  if s.cur.replay then (s.captured 3).extractLsb' 0 32 else s.regs.shape

/-- The record is of the bundle at an address and context-cycle. -/
def Trapped.is (t : Trapped) (pc : Addr) (ccyc : Dword) : Bool := decide (t.pc = pc) && decide (t.ccyc = ccyc)

/-- The RMODE under which a bundle that is being replayed first issued, where the core has kept it (log entry 94). -/
def State.trappedHere (s : State) : Option (BitVec 3) :=
  if s.cur.replay then (s.me.trapped.find? fun t => t.is s.regs.pc s.regs.ccyc).map (·.rmode) else none

/-- RMODE as it governs the ops of the running bundle (R76). -/
def State.rmodeNow (s : State) : BitVec 3 := s.trappedHere.getD s.regs.rmode

/-- A vector operand: v, o, lv, or the all-zero register (R50, R125, R126). -/
def readV (r : Regs) (c : BitVec 7) : VReg :=
  let n := c.toNat
  if n < 64 then Map.get 0 r.v n
  else if n < 72 then Map.get 0 r.o (n - 64)
  else if n < 75 then Map.get 0 r.lv (n - 72)
  else 0

def writeV (r : Regs) (c : Nat) (x : VReg) : Regs :=
  if c < 64 then { r with v := Map.put 0 r.v c x }
  else if c < 72 then { r with o := Map.put 0 r.o (c - 64) x }
  else r

/-- Write scalar `n`; a write to s0 is discarded (R94). -/
def writeS (r : Regs) (n : Nat) (x : Dword) : Regs :=
  if n = 0 then r else { r with s := Map.put 0 r.s n x }

/-- Write predicate `n`; a write to p0 is discarded (R94). -/
def writeP (r : Regs) (n : Nat) (b : Bool) : Regs :=
  if n = 0 then r
  else { r with p := (r.p &&& ~~~(1#8 <<< n)) ||| ((if b then 1#8 else 0#8) <<< n) }

/-- The window size of the bound launch (R124), 0 for an unbound core. -/
def Core.win (c : Core) : Nat := match c.bind with | some b => b.w | none => 0

/-- The bound launch's values, or zeros on an unbound core (log entry 6). -/
def Core.binding (c : Core) : Bind :=
  match c.bind with
  | some b => b
  | none => ⟨0, 0, 0, 0, 0, 0, 0, 0, 0, 0, 0, 0, false, false⟩

/-- The context is ctxS (R92). -/
def State.isS (s : State) : Bool := decide (s.cur.ctx = 4)

/-- The context is a regrow context: ctx3 of a core bound with recipes (R93). -/
def State.isRegrow (s : State) : Bool :=
  decide (s.cur.ctx = 3) && s.myCore.binding.recipes

/-! ## Delivering results -/

/-- Deliver(s[d], x, L) (R100); a destination of s0 discards (R104). -/
def State.deliver (s : State) (d : BitVec 6) (x : Dword) (lat : Nat) : State :=
  if d = 0#6 then s
  else s.setCur { s.cur with outs := s.cur.outs ++ [⟨BitVec.ofNat 8 d.toNat, lat, x, 0⟩] }

/-- Deliver(p[d], b, 1) (R110, R111). -/
def State.deliverP (s : State) (d : BitVec 3) (b : Bool) : State :=
  if d = 0#3 then s
  else s.setCur { s.cur with
    outs := s.cur.outs ++ [⟨BitVec.ofNat 8 (0x80 + d.toNat), 1, (if b then 1 else 0), 0⟩] }

/-- Deliver(lc[N], n, 1) (R116). -/
def State.deliverLc (s : State) (l : BitVec 2) (x : Dword) : State :=
  s.setCur { s.cur with outs := s.cur.outs ++ [⟨BitVec.ofNat 8 (0xC0 + l.toNat), 1, x, 0⟩] }

/-- Deliver(t, w, 3) (R205). -/
def State.deliverT (s : State) (t : BitVec 5) (x : Dword) : State :=
  s.setCur { s.cur with outs := s.cur.outs ++ [⟨BitVec.ofNat 8 (0x40 + t.toNat), 3, x, 0⟩] }

/-- Deliver a vector result with its flags; `lv` names the X slot it counts for (R126). -/
def State.deliverV (s : State) (d : BitVec 7) (x : VReg) (lat : Nat) (fl : Flags) (lv : Option Nat) :
    State :=
  s.setCur { s.cur with vouts := s.cur.vouts ++ [⟨d, lat, x, fl, lv⟩] }

/-- A control-register write that governs the next bundle (R112). -/
def State.writeLate (s : State) (n : Nat) (x : Dword) : State :=
  s.setCur { s.cur with late := s.cur.late ++ [(n, x)] }

/-! ## What an op's body answers -/

/-- Trap causes (R335). -/
def cILLENC : Byte := 0x01
def cILLDEP : Byte := 0x02
def cBADTGT : Byte := 0x03
def cILLPKT : Byte := 0x04
def cFETCHF : Byte := 0x05
def cDATAF : Byte := 0x06
def cPROT : Byte := 0x07
def cALIGN : Byte := 0x08
def cTPOISON : Byte := 0x09
def cPLANEF : Byte := 0x0A
def cHUSKF : Byte := 0x0B
def cOWNLOST : Byte := 0x0C
def cRDEPTH : Byte := 0x0D
def cRFAIL : Byte := 0x0E
def cLZFAIL : Byte := 0x0F
def cSTRUCT : Byte := 0x10
def cPRIV : Byte := 0x11
def cTRETF : Byte := 0x12
def cDFAULT : Byte := 0x13
def cSEGERR : Byte := 0x14
def cGANGABORT : Byte := 0x15
def cSCSCOPE : Byte := 0x16
def cSWTRAP : Byte := 0x17
def cRSEALW : Byte := 0x18
def cSNAPFIT : Byte := 0x19

/-- What the body of a slot op answers: it takes effect; it faults; it blocks its bundle (R97); or it
consumes poison (R358). -/
inductive OpRes where
  | done (s : State)
  | trap (cause : Byte) (info : Dword)
  /-- A fault that leaves something done in the state, outside the registers. -/
  | trapIn (s : State) (cause : Byte) (info : Dword)
  | block (w : List Wait)
  | poison (src pa : Nat)
  /-- PROT reason 2 at `va`, refused by a target of die `die` (R306). -/
  | denied (die va : Nat)

/-- TRAPINFO with the op word in [31:0], its mask bit in [35:32] and a sub-reason in [39:36] (R66, R102,
R174, R335). -/
def State.opInfo (s : State) (sub : Nat) : Dword :=
  BitVec.ofNat 64 (s.cur.word.toNat + s.cur.slot * 2 ^ 32 + sub * 2 ^ 36)

/-- Slot-level ILLENC (R66). -/
def State.illenc (s : State) : OpRes := .trap cILLENC (s.opInfo 0)

/-- STRUCT with a sub-reason (R335). -/
def State.struct_ (s : State) (sub : Nat) : OpRes := .trap cSTRUCT (s.opInfo sub)

/-- PRIV (R353). -/
def State.priv (s : State) : OpRes := .trap cPRIV (s.opInfo 0)

/-- DATAF, FETCHF or PROT information: the reason and the address (R305). -/
def addrInfo (reason va : Nat) : Dword := BitVec.ofNat 64 (reason * 2 ^ 52 + va % 2 ^ 52)

/-- PROT with its reason (R305). -/
def prot (reason va : Nat) : OpRes := .trap cPROT (addrInfo reason va)

/-- ALIGN (R335). -/
def alignFault (ea : Nat) : OpRes := .trap cALIGN (BitVec.ofNat 64 (ea % 2 ^ 52))

/-- Go on with an op's result. -/
def OpRes.andThen (r : OpRes) (f : State → OpRes) : OpRes :=
  match r with
  | .done s => f s
  | .trap c i => .trap c i
  | .trapIn s c i => .trapIn s c i
  | .block w => .block w
  | .poison a b => .poison a b
  | .denied d v => .denied d v

/-! ## The black box (R366) -/

/-- Word 1 of an event (R366). -/
def eventWord (code asid core ctx detail : Nat) : Dword :=
  BitVec.ofNat 64
    (code * 2 ^ 56 + asid % 2 ^ 16 * 2 ^ 40 + core % 1024 * 2 ^ 30 + ctx % 8 * 2 ^ 27 + detail % 2 ^ 27)

/-- A ring with one more event; a frozen one only counts it (R366). -/
def BlackBox.add (b : BlackBox) (cycle w1 : Dword) : BlackBox :=
  if b.frozen then { b with lost := b.lost + 1 }
  else { b with events := (b.events ++ [(cycle, w1)]).drop ((b.events.length + 1) - 4096) }

/-- Record an event in a die's black box (R366). -/
def State.log (s : State) (die code asid core ctx detail : Nat) : State :=
  let b := Map.get {} s.dev.bbox die
  s.setDev { s.dev with
    bbox := Map.put {} s.dev.bbox die (b.add s.dev.cycle (eventWord code asid core ctx detail)) }

/-- Record an event of a context. -/
def State.logCtx (s : State) (w : Who) (code detail : Nat) : State :=
  s.log (coreDie w.core) code (s.core w.core).asid w.core w.ctx detail

/-- Freeze a die's ring (R366). -/
def State.freezeBox (s : State) (die : Nat) : State :=
  let b := Map.get {} s.dev.bbox die
  s.setDev { s.dev with bbox := Map.put {} s.dev.bbox die { b with frozen := true } }

/-! ## Strands, levels and gangs (R312, R319, R359) -/

/-- Fields of a level entry (R312). -/
def lvCount (d : Dword) : Nat := bitsOf d 15 0
def lvDomain (d : Dword) : Nat := bitsOf d 18 16
def lvScope (d : Dword) : BitVec 2 := d.extractLsb' 19 2
def lvGang (d : Dword) : Bool := d.getLsbD 21
def lvTimed (d : Dword) : Bool := d.getLsbD 22
def lvWheel (d : Dword) : Nat := bitsOf d 30 23

/-- The levels in use: the leading entries with a non-zero count. -/
def levelsOf (rc : LaunchRec) : List Dword := rc.levels.takeWhile (fun d => decide (lvCount d ≠ 0))

/-- Strands in one group of level `n`. -/
def groupSize (ls : List Dword) (n : Nat) : Nat := (ls.take (n + 1)).foldl (fun a d => a * lvCount d) 1

/-- The level-`n` index of strand `k`. -/
def lvlIndex (ls : List Dword) (n k : Nat) : Nat :=
  if n < ls.length then k / (if n = 0 then 1 else groupSize ls (n - 1)) % lvCount (ls.getD n 0) else 0

/-- Level `n` is gang: its own bit, or the launch's flag [3] (R311, R312). -/
def gangLevel (rc : LaunchRec) (n : Nat) : Bool :=
  let ls := levelsOf rc
  decide (n < ls.length) && (lvGang (ls.getD n 0) || rc.flags.getLsbD 3)

/-- The innermost gang level. -/
def innerGang (rc : LaunchRec) : Option Nat := (List.range 8).find? (gangLevel rc)

def State.launch (s : State) (n : Nat) : Launch := Map.get {} s.dev.launches n

def State.setLaunch (s : State) (n : Nat) (l : Launch) : State :=
  s.setDev { s.dev with launches := Map.put {} s.dev.launches n l }

/-- The strands of the level-`n` group of strand `k`. -/
def groupMembers (l : Launch) (n k : Nat) : List Nat :=
  let g := groupSize (levelsOf l.rc) n
  (List.range g).map fun i => k / g * g + i

/-- Where a strand runs. -/
def strandAt (l : Launch) (k : Nat) : Option Who := Map.get none l.at_ k

/-- A member of a gang is lost (R359): 1 SEGERR, 2 double fault, 3 hardware stop. Every other live
member of its innermost gang group has a GANGABORT pending. -/
def State.loseMember (s : State) (w : Who) (why : Nat) : State :=
  match (s.ctx w).strand with
  | none => s
  | some st =>
    let l := s.launch st.launch
    let s := s.setCtx w { s.ctx w with seg := { (s.ctx w).seg with rewinding := false } }
    let s := s.setLaunch st.launch { l with lost := l.lost ++ [(st.num, why)] }
    match innerGang l.rc with
    | none => s
    | some n =>
      let info := BitVec.ofNat 64
        (why * 2 ^ 20 + n * 2 ^ 16 + lvlIndex (levelsOf l.rc) n st.num)
      (groupMembers l n st.num).foldl (fun s k =>
        if k = st.num ∨ k ∈ l.ended then s
        else match strandAt l k with
          | none => s
          | some v =>
            let c := s.ctx v
            match c.gangAbort with
            | some _ => s
            | none => (s.setCtx v { c with gangAbort := some info }).logCtx v 0x0B why) s

/-- Reply statuses: 1 access table, 2 uncorrectable, 3 unpopulated, 4 LOST (R408), 100 ask again. -/
def stRetry : Nat := 100

/-- What a context has asked for is spent: its bundle asks again if it still needs it. -/
def State.unask (s : State) (w : Who) (p : Wait → Bool) : State :=
  let c := s.ctx w
  s.setCtx w { c with asked := c.asked.filter fun x => !p x }

/-- The same for every context of a core. -/
def State.unaskCore (s : State) (core : Nat) (p : Wait → Bool) : State :=
  let k := s.core core
  s.setCore core { k with ctxs := k.ctxs.map fun c =>
    (c.1, { c.2 with asked := c.2.asked.filter fun x => !p x }) }

/-! ## Slices (R291) -/

/-- The word lies in the tile. -/
def inTile (tile k : Nat) : Bool := decide (k / 16384 * 16384 = tile)

/-- A registration, or data on its way for one, of a word of the tile. -/
def ofTile (tile : Nat) (i : Instr) : Bool :=
  match i with
  | .reg m => inTile tile m.word
  | .grant m => inTile tile m.word
  | .revoke m => inTile tile m.word
  | .fdata m => inTile tile m.word
  | .wb m => inTile tile m.word
  | .gone m => inTile tile m.word
  | .bypassWrite m => inTile tile m.word
  | _ => false

/-- The tile's bytes at the homes read zero (R287, R291). -/
def State.zeroTile (s : State) (tile : Nat) : State :=
  { s with mem := s.mem.filter fun c => !inTile tile c.1 }

/-- The lines of a tile that a failed slice wrote are invalidated, at their homes and in the core (R291). -/
def State.invalidateTile (s : State) (tile core : Nat) : State :=
  let k := s.core core
  let k := { k with
    l1 := k.l1.filter fun p => !inTile tile p.1,
    regOut := k.regOut.filter fun p => !inTile tile p.1,
    ctxs := k.ctxs.map fun c => (c.1, { c.2 with
      dirty := c.2.dirty.filter fun a => !inTile tile a.word,
      acc := c.2.acc.filter fun a => match a.kind with
        | .regs ws => !ws.all (inTile tile)
        | .wbs ws => !ws.all (inTile tile)
        | _ => true }) }
  let s := (s.setCore core k).zeroTile tile
  let s := { s with pending := s.pending.filter fun i => !ofTile tile i }
  s.setDev { s.dev with
    owner := s.dev.owner.filter fun p => !inTile tile p.1,
    gone := s.dev.gone.filter fun g => !inTile tile g.word,
    homeWait := s.dev.homeWait.filter fun h => !inTile tile h.word }

/-- The recipe directory entry of a tile. -/
def State.recipe (s : State) (tile : Nat) : Option Recipe := s.dev.recipes.find? (fun r => r.tile = tile)

def State.setRecipe (s : State) (r : Recipe) : State :=
  s.setDev { s.dev with recipes := s.dev.recipes.map (fun x => if x.tile = r.tile then r else x) }

/-- The recipe sources of a record, by virtual address (R286). -/
def recipeSources (rc : List Byte) : List Nat :=
  (List.range 4).map (fun i => leNat ((rc.drop (0x10 + 8 * i)).take 8)) |>.filter (fun a => a ≠ 0)

/-- Release the pins that a regrow holds on its sources (R291, R292). -/
def State.unpinSources (s : State) (r : Recipe) : State :=
  s.setDev { s.dev with recipes := s.dev.recipes.map (fun x =>
    if x.tile ∈ r.pinned then { x with pins := x.pins - 1 } else x) }

/-- A wait for a tile's regrow. -/
def isTileWait (tile : Nat) (x : Wait) : Bool := match x with
  | .regrow t _ => decide (t = tile)
  | .pin _ t _ => decide (t = tile)
  | _ => false

/-- A regrow has failed (R291): the tile is ABSENT, its requests are gone, and every access that waits
for it, or for a tile whose regrow waits for it, is answered with the cause and its TRAPINFO; `fuel`
bounds the chain. -/
def State.failRegrow (s : State) (fuel tile : Nat) (cause : Byte) (info : Dword) : State :=
  match fuel with
  | 0 => s
  | fuel + 1 =>
    match s.recipe tile with
    | none => s
    | some r =>
      let s := if r.st = .growing then
          (match r.at_ with
           | some w => (s.unpinSources r).invalidateTile tile w.core
           | none => s.unpinSources r)
        else s
      let s := s.setRecipe { r with st := .absent, depth := 0, waiters := [], at_ := none }
      let a := Map.get {} s.dev.asids r.asid
      let s := s.setDev { s.dev with
        regrows := s.dev.regrows.filter (fun q => q.tile ≠ tile),
        asids := Map.put {} s.dev.asids r.asid { a with rgfail := a.rgfail + 1 } }
      let s := r.waiters.foldl (fun s (v : Who × Option XferId) =>
        match v.2 with
        | some x => s.setDev { s.dev with engFail := s.dev.engFail ++ [(x, tile)] }
        | none =>
          let c := s.ctx v.1
          s.setCtx v.1 { c with replies := c.replies ++
            (c.asked.filter (isTileWait tile)).map fun x => ⟨x, leBytes 8 info.toNat, cause.toNat⟩ }) s
      let outer := s.dev.recipes.filter (fun x =>
        decide (x.st = .queued) && decide (x.asid = r.asid) && decide (r.va ∈ recipeSources x.rc))
      outer.foldl (fun s x => s.failRegrow fuel x.tile cause info) s

/-- TRAPINFO of RFAIL or RDEPTH (R297). -/
def regrowInfo (kind depth va low : Nat) : Dword :=
  BitVec.ofNat 64 (kind * 2 ^ 60 + depth % 4 * 2 ^ 58 + va / 2 ^ 14 % 2 ^ 38 * 2 ^ 14 + low)

/-- The condition code of a wait for the plane. -/
def condPlane : Nat := 5

/-- The contexts of a core that run and wait for its plane. -/
def Core.planeWaiters (k : Core) : List Nat :=
  (k.ctxs.filter fun p => decide (p.2.life = .running) && p.2.waits.any fun w => match w with
    | .cond _ code => decide (code = condPlane)
    | _ => false).map (·.1)

/-- Release a plane: the contexts that wait for it come next (R163, R172). PSAT stays until the next acquisition or
PREL (R152, R173). -/
def Core.freePlane (k : Core) : Core :=
  { k with plane := { k.plane with holder := none, halted := false, waiters := k.planeWaiters } }

/-- Release a plane and discard its contents, PSAT with them (R173). -/
def Core.dropPlane (k : Core) : Core :=
  let k := k.freePlane
  { k with plane := { k.plane with sat := false } }

/-- A regrow context is reset (R291). What it has issued goes on, what a segment held included; the accesses of
`c` that have not been made stay in the M unit. -/
def Ctx.resetSlice (c : Ctx) : Ctx :=
  { c with
    life := .idle, slice := none, regs := {}, h := false, mask := false,
    sv := false, hold := false, waits := [], asked := [], replies := [], mq := c.mq ++ c.heldE, fences := [], heldE := [],
    seg := {}, ckpt := none, dirty := [], early := 0, bound := none, branch := none, after := none, replay := 0 }

/-- The slice of a regrow context fails with RFAIL of a kind (R291): the context is reset, its plane released, and its
requesters are answered. -/
def State.failSlice (s : State) (w : Who) (cause : Byte) (kind low : Nat) (info : Option Dword) : State :=
  let c := s.ctx w
  match c.slice with
  | none => s
  | some sl =>
    let s := s.setCtx w c.resetSlice
    let old := s.core w.core
    let k : Core := { old with
      lastSlice := s.dev.cycle,
      xfers := old.xfers.map fun t => if t.ctx = w.ctx then { t with held := false } else t }
    let s := s.setCore w.core (if k.plane.holder = some w.ctx then k.freePlane else k)
    let s := if c.resetSlice.mq.isEmpty ∨ (.heldStorePerform w) ∈ s.pending then s else s.post (.heldStorePerform w)
    let i := match info with
      | some i => i
      | none => regrowInfo kind (sl.depth - 1) sl.va low
    s.failRegrow 8 sl.tile cause i

/-! ## The snapshot image (R340) -/

/-- STATUS as a number (R334). -/
def Ctx.status (c : Ctx) : Nat :=
  (if c.h then 1 else 0) + (if c.mask then 2 else 0) + (if c.sv then 4 else 0) +
    (if c.hold then 8 else 0)

/-- The poison bytes of eight tile registers from `n` (R340). -/
def poisonBytes (r : Regs) (n : Nat) : Nat :=
  packBits 8 ((List.range 8).map fun i =>
    let p := (Map.get {} r.tile (n + i)).poison.toNat
    if p = 0 then 0 else 4 + p)

/-- The double words of one scalar-side queue entry (R340). -/
def queueWords (q : QEntry) : Nat × Nat :=
  (q.dst.toNat + q.left % 32 * 2 ^ 8 + 2 ^ 13 + q.flags.toNat * 2 ^ 16, q.val.toNat)

/-- Write a list of numbers as consecutive double words from index `k`. -/
def putWords (m : Map Dword) : Nat → List Nat → Map Dword
  | _, [] => m
  | k, x :: t => putWords (Map.put 0 m k (BitVec.ofNat 64 x)) (k + 1) t

/-- The header's fields that a trap or a pre-emption fills in (R340). -/
structure ImageHead where
  asid : Nat
  v : Bool
  kind : Nat
  who : Who
  cause : Byte
  info : Dword
  pc : Addr
  resume : Nat
  status : Nat
  mask : Nat
  draw : Word
  pbs : Nat
  win : Nat

/-- The scalar part of the image: its double words (R340). -/
def imageOf (h : ImageHead) (r : Regs) (capt : List (Nat × List Nat)) : Map Dword :=
  let m := putWords [] 0 [
    h.asid + (if h.v then 2 ^ 16 else 0) + h.kind * 2 ^ 17 + h.who.ctx * 2 ^ 19 + h.who.core * 2 ^ 22,
    h.cause.toNat, h.info.toNat, h.pc.toNat, h.resume, h.status, r.ccyc.toNat, h.pbs,
    h.mask + h.draw.toNat * 2 ^ 32,
    h.win + r.occA0 * 2 ^ 8 + r.occA1 * 2 ^ 16 + r.occF * 2 ^ 24]
  let g := r.grp
  let m := putWords m 16 ([g.count, g.s.toNat, g.pl.toNat, g.vo.toNat % 2 ^ 64, g.vo.toNat / 2 ^ 64,
    g.tf.toNat] ++ (List.range 8).map fun i => g.cr.toNat / 2 ^ (64 * i))
  let m := putWords m 32 ((List.range 63).map fun i => (Map.get 0 r.s (i + 1)).toNat)
  let m := putWords m 95 [r.p.toNat / 2 * 2]
  let m := putWords m 96 ((List.range 4).flatMap fun n =>
    [(Map.get 0 r.lc n).toNat, (Map.get 0 r.loopStart n).toNat, (Map.get 0 r.loopEnd n).toNat])
  let m := putWords m 108 [(r.loopOrd.map (2 ^ ·)).sum]
  let m := putWords m 112 [r.rmode.toNat, r.lfsr.toNat, r.fflags.toNat, r.shape.toNat,
    r.syncattr.toNat, r.invsel.toNat, r.pg.toNat, r.snapbase.toNat * 4096]
  let m := putWords m 120 ((List.range 16).map fun i => (Map.get 0 r.region i).toNat)
  let m := putWords m 136 ((List.range 32).map fun i => (Map.get {} r.tile i).desc.toNat)
  let m := putWords m 168 ((List.range 4).map fun i => poisonBytes r (8 * i))
  let m := putWords m 172 ((List.range 8).flatMap fun n =>
    let f := Map.get {} r.feed n
    [f.pos.toNat, f.inc0.toNat * 2 ^ 36, f.prog.toNat])
  let m := putWords m 208 (r.queue.flatMap fun q => [(queueWords q).1, (queueWords q).2])
  capt.foldl (fun m c => putWords m (272 + 4 * c.1) c.2) m

/-- Read a double word of an image. -/
def imgWord (m : Map Dword) (k : Nat) : Nat := (Map.get 0 m k).toNat

/-- The queue entries of an image that are valid (R340). -/
def imageQueue (m : Map Dword) : List QEntry :=
  (List.range 32).filterMap fun i =>
    let w := imgWord m (208 + 2 * i)
    if w / 2 ^ 13 % 2 = 1 then
      some ⟨BitVec.ofNat 8 w, w / 2 ^ 8 % 32, Map.get 0 m (209 + 2 * i), BitVec.ofNat 7 (w / 2 ^ 16)⟩
    else none

/-- The registers that the scalar part of an image restores, over the vector state of `r` (R342). The
loops' order is by start address: among loops that end on one bundle, the one that starts last was set
up last (R117, log entry 22). -/
def regsOfImage (m : Map Dword) (r : Regs) : Regs :=
  let tbl (k n : Nat) : Map Dword :=
    (List.range n).foldl (fun t i => Map.put 0 t i (Map.get 0 m (k + i))) []
  let addrs (k n : Nat) : Map Addr :=
    (List.range n).foldl (fun t i => Map.put 0 t i (BitVec.ofNat 52 (imgWord m (k + i)) &&& ~~~0x7F#52)) []
  let loops (k : Nat) : Map Addr :=
    (List.range 4).foldl (fun t i => Map.put 0 t i (BitVec.ofNat 52 (imgWord m (96 + 3 * i + k)))) []
  let st := imgWord m 108
  let starts := loops 1
  let act := (List.range 4).filter fun n => st / 2 ^ n % 2 = 1
  let occ := imgWord m 9
  { r with
    s := (List.range 63).foldl (fun t i => Map.put 0 t (i + 1) (Map.get 0 m (32 + i))) [],
    p := BitVec.ofNat 8 (imgWord m 95) &&& 0xFE#8,
    lc := (List.range 4).foldl (fun t i => Map.put 0 t i (Map.get 0 m (96 + 3 * i))) [],
    loopStart := starts,
    loopEnd := loops 2,
    loopOrd := act.mergeSort (fun a b => decide ((Map.get 0 starts b).toNat ≤ (Map.get 0 starts a).toNat)),
    ccyc := Map.get 0 m 6,
    queue := imageQueue m,
    rmode := BitVec.ofNat 3 (imgWord m 112),
    lfsr := BitVec.ofNat 32 (imgWord m 113),
    fflags := BitVec.ofNat 7 (imgWord m 114),
    shape := BitVec.ofNat 32 (imgWord m 115) &&& ~~~0xC0#32,
    syncattr := BitVec.ofNat 5 (imgWord m 116),
    invsel := BitVec.ofNat 8 (imgWord m 117),
    pg := BitVec.ofNat 23 (imgWord m 118),
    snapbase := BitVec.ofNat 40 (imgWord m 119 / 4096),
    region := addrs 120 16,
    tile := (List.range 32).foldl (fun t i =>
      let b := imgWord m (168 + i / 8) / 256 ^ (i % 8)
      Map.put {} t i ⟨Map.get 0 m (136 + i), if b / 4 % 2 = 1 then BitVec.ofNat 2 b else 0⟩) [],
    feed := (List.range 8).foldl (fun t i =>
      Map.put {} t i ⟨BitVec.ofNat 52 (imgWord m (172 + 3 * i)), BitVec.ofNat 24 (imgWord m (173 + 3 * i) / 2 ^ 36),
        Map.get 0 m (174 + 3 * i)⟩) [],
    occA0 := occ / 2 ^ 8 % 32,
    occA1 := occ / 2 ^ 16 % 32,
    occF := occ / 2 ^ 24 % 8,
    grp := {
      count := imgWord m 16 % 256,
      s := (Map.get 0 (tbl 17 1) 0),
      pl := (Map.get 0 (tbl 18 1) 0),
      vo := BitVec.ofNat 128 (imgWord m 19 + imgWord m 20 * 2 ^ 64),
      tf := (Map.get 0 (tbl 21 1) 0),
      cr := BitVec.ofNat 512 (packBits 64 ((List.range 8).map fun i => imgWord m (22 + i))) } }

/-! ## One context-cycle (R100) -/

/-- Apply one scalar-side result. -/
def applyQ (r : Regs) (q : QEntry) : Regs :=
  let r := { r with fflags := r.fflags ||| q.flags }
  let n := q.dst.toNat
  if n < 64 then writeS r n q.val
  else if n < 96 then
    { r with tile := Map.put {} r.tile (n - 64) { Map.get {} r.tile (n - 64) with desc := q.val } }
  else if 0x80 ≤ n ∧ n < 0x88 then writeP r (n - 0x80) (q.val.getLsbD 0)
  else if 0xC0 ≤ n ∧ n < 0xC4 then { r with lc := Map.put 0 r.lc (n - 0xC0) q.val }
  else r

/-- One context-cycle passes on the scalar side: what is due is delivered in issue order. -/
def tickScalar (r : Regs) : Regs :=
  let q := r.queue.map fun e => { e with left := e.left - 1 }
  let due := q.filter fun e => e.left = 0
  due.foldl applyQ { r with queue := q.filter fun e => e.left ≠ 0 }

/-- Deliver the due entries of the vector side, in issue order. A latch's writes are applied as the
longest run from the earliest (R147); a result that becomes its X slot's last result ends the claim of
every earlier op of that slot (R126). `keep` holds the entries that stay, `stuck` the latches whose run
has ended. -/
def deliverVector (r : Regs) (keep : List VEntry) (stuck : List Nat) : List VEntry → Regs
  | [] => { r with vqueue := keep }
  | e :: t =>
    let n := e.dst.toNat
    if 0x70 ≤ n ∧ (e.left ≠ 0 ∨ n - 0x70 ∈ stuck) then
      deliverVector r (keep ++ [e]) ((n - 0x70) :: stuck) t
    else if e.left ≠ 0 then deliverVector r (keep ++ [e]) stuck t
    else
      let r := { r with fflags := r.fflags ||| e.flags }
      if 0x70 ≤ n then
        deliverVector { r with q := Map.put 0 r.q (n - 0x70) e.val } keep stuck t
      else
        let r := writeV r n e.val
        match e.lv with
        | none => deliverVector r keep stuck t
        | some x =>
          let keep := keep.map fun k => if k.lv = some x then { k with lv := none } else k
          deliverVector { r with lv := Map.put 0 r.lv x e.val } keep stuck t

/-- One context-cycle passes on the vector side. -/
def tickVector (r : Regs) : Regs :=
  deliverVector r [] [] (r.vqueue.map fun e => { e with left := e.left - 1 })

/-- One context-cycle passes: both sides, CCYC and the occupancies. In handler mode the vector side is
frozen (R337). -/
def tickRegs (h : Bool) (r : Regs) : Regs :=
  let r := tickScalar r
  let r := if h then r else tickVector r
  { r with ccyc := r.ccyc + 1, occA0 := r.occA0 - 1, occA1 := r.occA1 - 1, occF := r.occF - 1 }

/-! ## The group rule (R45, R46) -/

/-- The register is in the open group's write set. -/
def Group.has (g : Group) (k : Nat) : Bool :=
  if k < 0x100 then g.s.getLsbD k
  else if k < 0x110 then g.pl.getLsbD (k - 0x100)
  else if k < 0x200 then g.pl.getLsbD (k - 0x110 + 8)
  else if k < 0x300 then g.vo.getLsbD (k - 0x200)
  else if k < 0x320 then g.tf.getLsbD (k - 0x300)
  else if k < 0x400 then g.tf.getLsbD (k - 0x320 + 32)
  else g.cr.getLsbD (k - 0x400)

/-- Add a register to the write set. -/
def Group.add (g : Group) (k : Nat) : Group :=
  if k < 0x100 then { g with s := g.s ||| (1 <<< k) }
  else if k < 0x110 then { g with pl := g.pl ||| (1 <<< (k - 0x100)) }
  else if k < 0x200 then { g with pl := g.pl ||| (1 <<< (k - 0x110 + 8)) }
  else if k < 0x300 then { g with vo := g.vo ||| (1 <<< (k - 0x200)) }
  else if k < 0x320 then { g with tf := g.tf ||| (1 <<< (k - 0x300)) }
  else if k < 0x400 then { g with tf := g.tf ||| (1 <<< (k - 0x320 + 32)) }
  else { g with cr := g.cr ||| (1 <<< (k - 0x400)) }

/-! ## Priority (R332) -/

/-- Codes of the conditions a bundle waits for without a request of its own. -/
def condTile : Nat := 1
def condChannel : Nat := 2
def condCb : Nat := 3
/-- An op waits for its link in a direction. -/
def condLink (d : Dir) : Nat := 128 + d.toNat
def condOrder : Nat := 7
def condGather : Nat := 8
def condRewind : Nat := 9
def condCard : Nat := 10
def condWheel : Nat := 11
def condRegs : Nat := 12
def condRelease : Nat := 13
/-- An earlier slot of the bundle makes an access that must be performed first (R270). -/
def condMask : Nat := 14
/-- LZWAIT on barrier `b` waits with code 0x400 + b. -/
def condBarrier : Nat := 0x400
/-- LZCLEAN of zone `z` waits with code 0x500 + z. -/
def condClean : Nat := 0x500

/-- An engine's read for the waiter waits on the regrow whose slice `w` runs (R289, R332). -/
def State.engineLends (s : State) (waiter w : Who) : Bool :=
  s.dev.recipes.any fun r =>
    decide (r.at_ = some w) && r.waiters.any fun v => decide (v.1 = waiter) && v.2.isSome

/-- The waiter's blocked bundle, or an engine's read for it, lends to the context `w` (R332). -/
def State.lendsTo (s : State) (waiter w : Who) : Bool :=
  if waiter = w then false
  else
    let c := s.ctx waiter
    s.engineLends waiter w || c.waits.any fun x =>
      match x with
      | .bar n =>
        match c.strand, (s.ctx w).strand with
        | some a, some b =>
          let l := s.launch a.launch
          decide (a.launch = b.launch) && decide (b.num ∈ groupMembers l n a.num) &&
            decide (Map.get 0 l.arrived (b.num * 8 + n) < Map.get 0 l.arrived (a.num * 8 + n))
        | _, _ => false
      | .cond _ code =>
        if code = condPlane then
          decide (waiter.core = w.core) && decide ((s.core w.core).plane.holder = some w.ctx)
        else if condBarrier ≤ code ∧ code < condClean then
          let k := s.core waiter.core
          let b := Map.get 0 k.ab (code - condBarrier)
          let z := Map.get {} k.zones (bitsOf b 61 60)
          decide (bitsOf b 63 62 = 1) && z.slots.any fun p =>
            decide (p.2.state = 1#3 ∨ p.2.state = 2#3) && decide (p.2.node = s.dev.node.toNat) &&
              decide (p.2.who = w)
        else false
      | .regrow tile _ =>
        match s.recipe tile with
        | some r => decide (r.at_ = some w)
        | none => false
      | .pin _ tile _ =>
        match s.recipe tile with
        | some r => decide (r.at_ = some w)
        | none => false
      | _ => false

/-- The contexts that lend to a context (R332); to ctxS the one whose hold it services (log entry 99). -/
def State.lenders (s : State) (w : Who) : List Who :=
  let k := s.core w.core
  (match if w.ctx = 4 then k.svc else none with
    | some x => [⟨w.core, x⟩]
    | none => []) ++ s.allWho.filter fun v => s.lendsTo v w

/-- Effective priority, with loans followed to a depth (R332). -/
def State.effPrio (s : State) : Nat → Who → Nat
  | 0, w => (s.ctx w).prio.toNat
  | n + 1, w => (s.lenders w).foldl (fun m v => max m (s.effPrio n v)) (s.ctx w).prio.toNat

/-- The contexts of a core that wait for the service of a hold (R343). -/
def Core.held (k : Core) : List Nat := (k.ctxs.filter fun c => c.2.hold && decide (c.2.life = .running)).map (·.1)

/-- The position of a context in the order of last issues: furthest back first, those that have never issued
before all others, by number (R98). -/
def Core.backness (k : Core) (x : Nat) : Nat :=
  match k.order.findIdx? (· = x) with
  | some i => i
  | none => 10 - x

/-- Context `b` comes before context `a` (R98). -/
def State.before (s : State) (core b a : Nat) : Bool :=
  let pb := s.effPrio 8 ⟨core, b⟩
  let pa := s.effPrio 8 ⟨core, a⟩
  let k := s.core core
  decide (pa < pb) || (decide (pa = pb) && decide (k.backness a < k.backness b))

/-! ## Taking a trap (R336 to R338) -/

/-- The captured operands of a slot of the bundle: s[a], s[b], s[d] and SHAPE as read at issue (R340). -/
def State.capture (s : State) (slot : Nat) (i : Option Instr) : Nat × List Nat :=
  let f := match i with
    | some i => scalarFields i
    | none => (0, 0, 0)
  let s' := s.setCur { s.cur with slot := slot }
  (slot, [(s'.srcA f.1).toNat, (s'.srcB f.2.1).toNat, (s'.srcD f.2.2).toNat, s'.shape.toNat])

/-- The captured operands of every slot of a bundle. -/
def State.captureAll (s : State) (ops : List (Nat × Word × Instr)) : List (Nat × List Nat) :=
  ops.map fun o => s.capture o.1 (some o.2.2)

/-- What a checkpoint taken with the registers `r` keeps (R356). -/
def Ctx.checkpoint (c : Ctx) (r : Regs) : Ckpt := ⟨r, c.trapcause, c.trapinfo, c.trappc⟩

/-- The captured operands that the buffer holds, of every slot (R340). -/
def Ctx.capturedAll (c : Ctx) : List (Nat × List Nat) :=
  (List.range 11).map fun n => (n, (List.range 4).map fun k => (Map.get 0 c.snap (272 + 4 * n + k)).toNat)

/-- The draw state at the start of the first block that the context's next issue takes: in a replay the recorded
one (R82, R342). -/
def Ctx.blockStart (c : Ctx) : Word :=
  if c.replay ≠ 0 then BitVec.ofNat 32 (imgWord c.snap 8 / 2 ^ 32) else c.regs.lfsr

/-- The resume address that a replay has yet to take, 0 outside one (R342). -/
def Ctx.resumeAt (c : Ctx) : Nat := if c.replay ≠ 0 then imgWord c.snap 4 else 0

/-- The registers with what the op in M0 of a blocked bundle has given already entered (log entry 25). -/
def Ctx.boundRegs (c : Ctx) : Regs :=
  match c.bound with
  | some b => { c.regs with queue := c.regs.queue ++ b.outs, vqueue := c.regs.vqueue ++ b.vouts }
  | none => c.regs

/-- Tell the management core (R338, R345, R362). -/
def State.tell (s : State) (t : Told) : State := s.setDev { s.dev with told := s.dev.told ++ [t] }

/-! ## Frozen address spaces (R362) -/

/-- The address space of a core is frozen (R362). -/
def State.frozenCore (s : State) (core : Nat) : Bool := (Map.get {} s.dev.asids (s.core core).asid).frozen

/-- Every running context of an address space stops issuing where it stands. -/
def State.freezeAsid (s : State) (asid : Nat) : State :=
  let stop (c : Ctx) : Ctx := if c.life = .running then { c with life := .frozen } else c
  let core (k : Core) : Core := if k.asid = asid then { k with ctxs := k.ctxs.map fun c => (c.1, stop c.2) } else k
  let s := { s with cores := s.cores.map fun (k : Nat × Core) => (k.1, core k.2) }
  let a : Asid := Map.get {} s.dev.asids asid
  s.setDev { s.dev with asids := Map.put {} s.dev.asids asid { a with frozen := true } }

/-- Record an event of the device on every die, and freeze the rings (R362, R363, R366, log entry 84). -/
def State.logDies (s : State) (code asid detail : Nat) : State :=
  (List.range s.dies).foldl (fun s d => (s.log d code asid 1023 7 detail).freezeBox d) s

/-- Address spaces freeze: recorded, and the management core is told (R362). -/
def State.freezeAll (s : State) (asids : List Nat) : State :=
  asids.foldl (fun s a => if (Map.get {} s.dev.asids a).bound then
    ((s.freezeAsid a).logDies 0x09 a 0).tell (.frozen a) else s) s

/-- Record the causes and informations of a double fault (R353, log entry 81). -/
def State.logDouble (s : State) (die : Nat) (x : Byte × Dword × Byte × Dword) : State :=
  let b := Map.get {} s.dev.bbox die
  if b.frozen then s
  else s.setDev { s.dev with bbox := Map.put {} s.dev.bbox die { b with doubles := b.doubles ++ [x] } }

/-- The context's double fault (R338): it stops and keeps its state, and the management core is told; the black
box records both causes and both informations (R353). -/
def State.doubleFault (s : State) (w : Who) (cause : Byte) (info : Dword) : State :=
  let c := s.ctx w
  let die := coreDie w.core
  let s := s.logCtx w 0x02 (c.trapcause.toNat * 256 + cause.toNat)
  let s := ((s.logDouble die (c.trapcause, c.trapinfo, cause, info)).freezeBox die).tell (.doubleFault w)
  let s := s.setCtx w { c with
    life := .stopped, trapcause := cDFAULT, waits := [], asked := [], replies := [] }
  s.loseMember w 2

/-- The trap vector's address (R337). -/
def Bind.trapPc (b : Bind) : Addr := BitVec.ofNat 52 (b.image + 2 * b.trapVec)

/-- The three pool boundaries as the image holds them (R340). -/
def Bind.pbs (b : Bind) : Nat := b.pb1 + b.pb2 * 2 ^ 21 + b.pb3 * 2 ^ 42

/-- What the fault of a bundle leaves for TRET (R336): the replay mask, the resume address, the draw
state, and the captured operands. -/
structure Resume where
  mask : Nat
  addr : Nat
  draw : Word
  capt : List (Nat × List Nat)

/-- The sub-reason that TRAPINFO gives with a cause, 0 where it gives none (R201, R297, R305, R335, R353, R358). -/
def subReason (cause : Byte) (info : Dword) : Nat :=
  if cause ∈ [cSTRUCT, cPLANEF, cHUSKF, cTRETF, cSCSCOPE, cSNAPFIT] then bitsOf info 39 36
  else if cause ∈ [cFETCHF, cDATAF, cPROT, cSEGERR] then bitsOf info 55 52
  else if cause = cTPOISON then bitsOf info 1 0
  else if cause = cRFAIL then bitsOf info 63 60
  else 0

/-- The detail of a trap's event: the cause and the sub-reason (R366, log entry 89). -/
def causeDetail (cause : Byte) (info : Dword) : Nat := cause.toNat + 256 * subReason cause info

/-- A plane that the context holds steps no more until it has returned from its handler (R347). -/
def State.haltPlane (s : State) (w : Who) : State :=
  let k := s.core w.core
  s.setCore w.core { k with plane :=
    { k.plane with halted := k.plane.halted || decide (k.plane.holder = some w.ctx) } }

/-- Enter the trap vector (R337). `img` are the registers the image records; `live` those that the
handler's first bundle reads. -/
def State.enterTrap (s : State) (w : Who) (cause : Byte) (info : Dword) (pc : Addr) (img live : Regs)
    (res : Resume) : State :=
  let c := s.ctx w
  let b := (s.core w.core).binding
  let snap := imageOf
    { asid := b.asid, v := false, kind := 0, who := w, cause := cause, info := info, pc := pc,
      resume := res.addr, status := c.status, mask := res.mask, draw := res.draw, pbs := b.pbs,
      win := b.w } img res.capt
  let s := s.setCtx w { c with
    snap := snap, trapcause := cause, trapinfo := info, trappc := pc, sv := true, mask := true, h := true,
    replay := 0, early := 0, bound := none, branch := none, waits := [], asked := [], replies := [],
    seg := { c.seg with waiting := false },
    regs := { live with pc := b.trapPc, queue := [], grp := {} } }
  (s.haltPlane w).logCtx w 0x01 (causeDetail cause info)

/-- End the service of a hold: the held context is as `f` makes it, and ctxS stops issuing (R343, R344). -/
def State.endService (s : State) (core : Nat) : State :=
  let k := s.core core
  let c := k.ctx 4
  s.setCore core { (k.setCtx 4 { c with life := .idle, waits := [], asked := [], replies := [] }) with svc := none }

/-- The cause of a slice is another regrow's failure, which goes on to its requesters: RDEPTH, or RFAIL of a kind that a
regrow ends with, and not one of the slice's own op (R291, R297). -/
def innerFailure (cause : Byte) (info : Dword) : Bool :=
  let kind := bitsOf info 63 60
  decide (cause = cRDEPTH) || (decide (cause = cRFAIL) && (decide (kind = 1) || decide (kind = 2) || decide (kind = 5)))

/-- A fault of the context `w`: a failed slice (R291), the held context's double fault for ctxS (R344),
a double fault (R338), or a trap (R337). -/
def State.takeTrap (s : State) (w : Who) (cause : Byte) (info : Dword) (pc : Addr) (img live : Regs)
    (res : Resume) : State :=
  let c := s.ctx w
  if w.ctx = 4 then
    match (s.core w.core).svc with
    | some x =>
      let s := s.logCtx w 0x01 (causeDetail cause info)
      let s := s.endService w.core
      let v : Who := ⟨w.core, x⟩
      let s := s.setCtx v { s.ctx v with hold := false, xlhold := 0 }
      s.doubleFault v cause info
    | none => s.doubleFault w cause info
  else if c.slice.isSome then
    if innerFailure cause info then s.failSlice w cause 0 0 (some info)
    else s.failSlice w cRFAIL 1 cause.toNat none
  else
    if (c.mask && decide (cause ≠ cTRETF)) || decide ((s.core w.core).binding.trapVec = 0) then
      s.doubleFault w cause info
    else
      let s := if cause = cSEGERR then s.loseMember w 1 else s
      s.enterTrap w cause info pc img live res

/-- A fault met before any slot takes effect (causes 1 to 7 of R65): no slot commits and context-cycle
k is not consumed (R336). -/
def State.bundleTrap (s : State) (cause : Byte) (info : Dword) (pc : Addr) (res : Resume) : State :=
  s.takeTrap s.who cause info pc s.regs s.regs res

/-! ## Closing a bundle -/

/-- The context whose trap, translation and identity registers, and whose channels, the running context uses: for
ctxS the one whose hold it services (R103, R213, R307, R334). -/
def State.viewCtx (s : State) : Ctx :=
  if s.cur.ctx = 4 then
    match s.myCore.svc with
    | some x => s.myCore.ctx x
    | none => s.me
  else s.me

/-- Apply one control-register write that governs the next bundle (R112). Writes to the gather queue's
table and to CERR go to their homes outside the saved registers. -/
def State.applyLate (s : State) (n : Nat) (x : Dword) : State :=
  let r := s.regs
  if n = 0x040 then s.setRegs { r with shape := x.extractLsb' 0 32 &&& ~~~0xC0#32 }
  else if n = 0x041 then s.setRegs { r with fflags := x.extractLsb' 0 7 }
  else if n = 0x042 then s.setRegs { r with rmode := x.extractLsb' 0 3 }
  else if n = 0x043 then
    let l : Word := x.extractLsb' 0 32
    s.setRegs { r with lfsr := if l = 0 then 1 else l }
  else if 0x010 ≤ n ∧ n ≤ 0x013 then s.setRegs { r with lc := Map.put 0 r.lc (n - 0x010) x }
  else if n = 0x080 then s.setRegs { r with pg := x.extractLsb' 0 23 }
  else if n = 0x0E0 then s.setMe { s.me with gqt := x &&& ~~~0x3F#64 }
  else if n = 0x0E3 then
    let k := s.myCore
    let m := s.viewCtx.chmask
    s.setMyCore { k with cerr := (k.cerr &&& ~~~m) ||| (x.extractLsb' 0 16 &&& m) }
  else if n = 0x140 then s.setRegs { r with syncattr := x.extractLsb' 0 5 }
  else if n = 0x141 then s.setRegs { r with invsel := x.extractLsb' 0 8 }
  else if 0x148 ≤ n ∧ n ≤ 0x157 then
    let a : Addr := x.extractLsb' 0 52 &&& ~~~0x7F#52
    s.setRegs { r with region := Map.put 0 r.region (n - 0x148) a }
  else if n = 0x1E3 then s.setRegs { r with snapbase := x.extractLsb' 12 40 }
  else s

/-- The end-of-pass rule over the active loops that end on this bundle, innermost first (R117): the
registers and the address that follows. -/
def endOfPass (r : Regs) (pc succ : Addr) : List Nat → Regs × Addr
  | [] => (r, succ)
  | n :: t =>
    if Map.get 0 r.loopEnd n = pc then
      let v := Map.get 0 r.lc n
      if v.toNat ≤ 1 then
        endOfPass { r with lc := Map.put 0 r.lc n 0, loopOrd := r.loopOrd.filter (· ≠ n) } pc succ t
      else
        ({ r with lc := Map.put 0 r.lc n (v - 1) }, Map.get 0 r.loopStart n)
    else endOfPass r pc succ t

/-- A context has issued or become blocked: the yields that waited for it no longer do (R123). -/
def Core.unyield (k : Core) (x : Nat) : Map (List Nat) :=
  (k.yielded.map fun p => (p.1, p.2.filter (· ≠ x))).filter fun p => !p.2.isEmpty && decide (p.1 ≠ x)

/-- A context of the core has issued. -/
def Core.issued (k : Core) (x : Nat) (cycle : Dword) : Core :=
  { k with
    order := x :: k.order.filter (· ≠ x),
    yielded := (k.unyield x).filter fun p => decide (p.1 ≠ 4),
    runStart := (if k.port = some x then k.runStart else cycle),
    port := some x }

/-- The slot runs in this issue: all do, but in a replay only those of the mask (R342). -/
def State.runs (s : State) (slot : Nat) : Bool := !s.cur.replay || s.me.replay.getLsbD slot

/-- The bundle's ops whose slots did not fault enter their results (R100): queue entries, late writes,
draws. -/
def State.enterResults (s : State) : State :=
  let c := s.cur
  let r := s.regs
  let s := s.setRegs { r with
    queue := r.queue ++ c.outs, vqueue := r.vqueue ++ c.vouts, lfsr := c.lfsr }
  let s := c.late.foldl (fun s p => s.applyLate p.1 p.2) s
  let r := s.regs
  s.setRegs { r with feed := c.feeds.foldl (fun m p => Map.put {} m p.1 p.2) r.feed }

/-- The bundle and the writes of all its ops join the open group, or its STOP closes the group (R45, R46). -/
def State.enterGroup (s : State) (writes : List Nat) : State :=
  let r := s.regs
  let g := writes.foldl Group.add { r.grp with count := r.grp.count + 1 }
  s.setRegs { r with grp := if s.cur.stop then {} else g }

/-- The registers with the loop state that the bundle's C slot leaves (R116, R119). -/
def State.loopRegs (s : State) : Regs :=
  match s.cur.loops with
  | some (a, b, o) => { s.regs with loopStart := a, loopEnd := b, loopOrd := o }
  | none => s.regs

/-- Where the context goes after the bundle, and the loop state that results (R115 to R119). -/
def State.nextPc (s : State) : Regs × Addr :=
  let r := s.loopRegs
  match s.cur.jump with
  | some a => (r, a)
  | none => endOfPass r r.pc s.cur.succ r.loopOrd

end Sys2Proof.Machine
end

