-- ==== Sys2Proof/Machine/Mem.lean ====
section
/-! DEFINITION. Pool bytes, physical memory at its homes, access tables, translation, and the reads and
writes that engines make at homes. -/

namespace Sys2Proof.Machine

/-! ## The pool (R196 to R198) -/

def Core.poolByte (k : Core) (o : Nat) : Byte := Map.get 0 k.pool o

def Core.poolRead (k : Core) (o n : Nat) : List Byte := (List.range n).map fun i => k.poolByte (o + i)

/-- The bytes [pos, pos + n) of a table of bytes whose entries before `pos` have been dropped. -/
def walkBytes : Nat → Nat → Map Byte → List Byte
  | 0, _, _ => []
  | n + 1, pos, [] => 0 :: walkBytes n (pos + 1) []
  | n + 1, pos, (j, b) :: t =>
    if j = pos then b :: walkBytes n (pos + 1) t else 0 :: walkBytes n (pos + 1) ((j, b) :: t)

/-- Pool bytes, read in one walk of the table. -/
def Core.poolSpan (k : Core) (lo n : Nat) : List Byte :=
  walkBytes n lo (k.pool.dropWhile fun p => decide (p.1 < lo))

/-- Bytes written into a table of bytes from key `o`. -/
def putBytes (m : Map Byte) (o : Nat) : List Byte → Map Byte
  | [] => m
  | b :: t => putBytes (Map.put 0 m o b) (o + 1) t

def Core.poolWrite (k : Core) (o : Nat) (bs : List Byte) : Core := { k with pool := putBytes k.pool o bs }

/-- Offset of the constant table: PB3 + D (R33, R34). -/
def Bind.constBase (b : Bind) : Nat := b.pb3 + (48 * b.n + 63) / 64 * 64

/-- Constant-table entry `i` (R109). -/
def Core.constant (k : Core) (i : Nat) : Dword :=
  BitVec.ofNat 64 (leNat (k.poolRead (k.binding.constBase + 8 * i) 8))

/-- Whether the virtual address lies in the pool window (R197). -/
def inWindow (va : Nat) : Bool := decide (va < 2 ^ 21)

/-- Whether the virtual address lies in the block-transfer aperture (R220). -/
def inAperture (va : Nat) : Bool := decide (2 ^ 21 ≤ va) && decide (va < 2 ^ 21 + 2 ^ 16)

/-- The first offending address of a window access of `n` bytes, if any (R197). -/
def windowFault (b : Bind) (va n : Nat) : Option Nat :=
  let limit := if va < b.pb1 then b.pb1 else if va < b.pb2 then b.pb2 else va
  if va + n ≤ limit then none else some (max va limit)

/-! ## Physical memory (R11, R251, R298) -/

def State.isLocal (s : State) (pa : Nat) : Bool := decide (pa / 2 ^ 44 = s.dev.node.toNat)

/-- The model's key of a physical address: the local address, or 2^52 above an address on another node. -/
def State.key (s : State) (pa : Nat) : Nat := if s.isLocal pa then pa % 2 ^ 44 else pa + 2 ^ 52

/-- The physical address of a key. -/
def State.unkey (s : State) (k : Nat) : Nat := if k < 2 ^ 52 then k + s.dev.node.toNat * 2 ^ 44 else k - 2 ^ 52

/-- A local address in populated storage (R298, R379). -/
def State.populated (s : State) (l : Nat) : Bool :=
  decide (l % 2 ^ 36 < 64 * 10 ^ 9) && decide (l / 2 ^ 36 < (if s.dev.form = 2 then 2 else 8))

/-- A local address in the agent apertures (R298). -/
def isAgent (l : Nat) : Bool := decide (2 ^ 39 ≤ l) && decide (l < 2 ^ 44)

/-- The die whose HBM holds a local address, and the home slice on it (R251). -/
def homeDie (k : Nat) : Nat := if k < 2 ^ 39 then k / 2 ^ 36 / 2 else 0
def homeSlice (k : Nat) : Nat := homeDie k * 144 + k / 128 % 144

/-- A word of memory at its home: local memory, or the bridge's copy of a line of host memory. -/
def State.wordAt (s : State) (k : Nat) : Word :=
  if k < 2 ^ 52 then
    BitVec.ofNat 32 (leNat ((List.range 4).map fun i => Map.get unwritten s.mem (k + i)))
  else
    match Map.get none s.dev.hostLines (k / 128) with
    | some l => BitVec.ofNat 32 (leNat ((l.bytes.drop (k % 128)).take 4))
    | none => 0

/-- Write a word at its home. -/
def State.putWord (s : State) (k : Nat) (w : Word) : State :=
  let bs := leBytes 4 w.toNat
  if k < 2 ^ 52 then
    { s with mem := putBytes s.mem k bs }
  else
    match Map.get none s.dev.hostLines (k / 128) with
    | some l =>
      let o := k % 128
      let l : HostLine := { l with bytes := l.bytes.take o ++ bs ++ l.bytes.drop (o + 4) }
      s.setDev { s.dev with hostLines := Map.put none s.dev.hostLines (k / 128) (some l) }
    | none => s

/-- Merge the bytes of `d` that `mask` selects over `w` (R253). -/
def mergeWord (w d : Word) (mask : BitVec 4) : Word :=
  let m : Word := BitVec.ofNat 32 (packBits 8 ((List.range 4).map fun i => if mask.getLsbD i then 255 else 0))
  (w &&& ~~~m) ||| (d &&& m)

/-- The next grant number of a line (R251). -/
def State.bumpGrant (s : State) (k : Nat) : State × Word :=
  let g := Map.get 0 s.dev.grant (k / 128) + 1
  (s.setDev { s.dev with grant := Map.put 0 s.dev.grant (k / 128) g }, g)

def State.grantOf (s : State) (k : Nat) : Word := Map.get 0 s.dev.grant (k / 128)

/-- The registration of the word at `k` (R251). -/
def State.ownerOf (s : State) (k : Nat) : Option Owner := Map.get none s.dev.owner (k / 4 * 4)

def State.setOwner (s : State) (k : Nat) (o : Option Owner) : State :=
  s.setDev { s.dev with owner := Map.put none s.dev.owner (k / 4 * 4) o }

def ownLost : Nat := 0x3FF
def ownBridge : Nat := 0x3FE

/-! ## Words of an L1 -/

/-- The L1 word of a core (R252). -/
def Core.word (k : Core) (a : Nat) : L1Word := Map.get {} k.l1 a

def Core.setWord (k : Core) (a : Nat) (w : L1Word) : Core := { k with l1 := Map.put {} k.l1 a w }

/-- The L1 word is poisoned (R354). -/
def Core.isBad (k : Core) (a : Nat) : Bool := decide ((3, a) ∈ k.poison)

/-- The L1 word holds data that are bad, or data that are not. -/
def Core.markWord (k : Core) (a : Nat) (bad : Bool) : Core :=
  let rest := k.poison.filter (· ≠ (3, a))
  { k with poison := if bad then (3, a) :: rest else rest }

/-- Bad data are written at a word's home: it cannot be read from then on (R354). -/
def State.markHome (s : State) (a : Nat) (bad : Bool) : State :=
  if bad then s.setDev { s.dev with badMem := a :: s.dev.badMem.filter (· ≠ a) } else s

/-- Every context of a core. -/
def allCtxs : List Nat := [0, 1, 2, 3, 4]

/-- The read of a message, wherever it stands on its way, changed. -/
def mapRead (f : ReadMsg → ReadMsg) : Instr → Instr
  | .read m => .read (f m)
  | .fwd m => .fwd { m with read := f m.read }
  | .data m => .data { m with read := f m.read }
  | .retry m => .retry (f m)
  | .lostReply (.read m) => .lostReply (.read (f m))
  | i => i

/-- The words that reads of the core on their way will install are not for the contexts to use (R273, R274; log entry
102). -/
def State.hideFills (s : State) (core : Nat) (sel : ReadMsg → Bool) (ctxs : List Nat) : State :=
  let f (m : ReadMsg) : ReadMsg :=
    if m.who.core = core ∧ sel m then { m with hidden := (m.hidden ++ ctxs).eraseDups } else m
  { s with
    pending := s.pending.map (mapRead f),
    dev := { s.dev with bisnp := s.dev.bisnp.map fun b => { b with serve := b.serve.map (mapRead f) } } }

/-- The same of one word, for every context. -/
def State.hideWord (s : State) (core k : Nat) : State := s.hideFills core (fun m => decide (m.word = k)) allCtxs

/-! ## Access tables (R306) -/

/-- The targets that a request for the key meets: table key and the die that records a refusal. -/
def targetsOf (k : Nat) : List (Nat × Nat) :=
  if 2 ^ 52 ≤ k then [(4 * 65536, 0)]
  else if isAgent k then [(3 * 65536 + (if k < 2 ^ 43 then 0 else 1), 0)]
  else [(k / 2 ^ 36, homeDie k), (65536 + homeSlice k, homeDie k)]

/-- The group of (node, ASID) has right `r` on the address at one target. -/
def Table.right (t : Table) (node asid a r : Nat) : Bool :=
  let g := (Map.get 0 t.groups (node * 65536 + asid)).toNat
  let w := Map.get 0 t.rights g
  t.regions.any fun p => decide (p.2.1 ≤ a) && decide (a < p.2.2) && w.getLsbD (4 * p.1 + r)

/-- Rights an access needs: 0 read, 1 write, 2 launch, 3 landing. Stores at a launch window need the launch
right, at the mailbox the write right (R306, R309, R383). -/
def rightsOf (a : Access) (k : Nat) : List Nat :=
  match a with
  | .fetch => [2]
  | .read => [0]
  | .write => if isAgent k && decide (k < 2 ^ 43) then [2] else [1]
  | .atomic => [0, 1]

/-- The die of the first target that refuses the access, if any (R305 check 6, R306). -/
def State.refusedBy (s : State) (node asid k : Nat) (rights : List Nat) : Option Nat :=
  let a := if k < 2 ^ 52 then k else k - 2 ^ 52
  ((targetsOf k).find? fun t =>
    !(rights.all fun r => (Map.get {} s.dev.tables t.1).right node asid a r)).map (·.2)

/-- Record an access refusal (R306, R366). -/
def State.logRefusal (s : State) (die asid : Nat) : State := s.log die 0x0F asid 1023 7 2

/-- Record the refusal of a request that a target of a die turned away, where one did. -/
def State.logRefusedBy (s : State) (die : Option Nat) (asid : Nat) : State :=
  match die with
  | some d => s.logRefusal d asid
  | none => s

/-! ## Translation (R300 to R305) -/

/-- log2 of the page size of a leaf at a level (R300). -/
def pageBits (level : Nat) : Nat := if level = 0 then 16 else if level = 1 then 21 else 30

def TlbEntry.covers (e : TlbEntry) (asid va : Nat) : Bool :=
  decide (e.asid = asid) && decide (e.va / 2 ^ pageBits e.level = va / 2 ^ pageBits e.level)

/-- The physical address that an entry gives. -/
def TlbEntry.paOf (e : TlbEntry) (va : Nat) : Nat := e.pa + va % 2 ^ pageBits e.level

/-- Page classes (R300). -/
def clsPrivate : BitVec 3 := 0
def clsHost : BitVec 3 := 2
def clsRecipe : BitVec 3 := 3
def clsQuarantined : BitVec 3 := 4

/-- The ports of the part: Ethernet ports, or Ngufer Link ports (R379). -/
def State.portsOf (s : State) (eth : Bool) : Nat :=
  if eth then (if s.dev.form = 2 then 8 else 32) else if s.dev.form = 2 then 9 else 36

/-- The ports of a route entry that are up (R375). -/
def State.upPorts (s : State) (r : Route) : List Nat :=
  r.ports.filter fun p => decide (p < s.portsOf (r.kind = 1#2)) &&
    decide (p ∉ (if r.kind = 1#2 then s.dev.ethDown else s.dev.portsDown))

/-- The node of a route entry can be reached (R375); before NODE is set only hosts can be. -/
def State.reachable (s : State) (r : Route) : Bool :=
  (s.dev.nodeSet || decide (r.kind = 2#2)) && r.valid && !(s.upPorts r).isEmpty

/-- The node of an address is reached over Ngufer Link: kind 0, or 2 for a host (R375). -/
def State.nodeKind (s : State) (pa : Nat) : Option (BitVec 2) :=
  let r := Map.get {} s.dev.routes (pa / 2 ^ 44)
  if s.reachable r then some r.kind else none

/-- The address is on another 7940 (R374). -/
def State.isRemote (s : State) (pa : Nat) : Bool :=
  !s.isLocal pa && decide (s.nodeKind pa ≠ some 2)

/-- Why an access to a translated address fails checks 3 to 5 of R305: cause kind (false DATAF, true
PROT) and reason. -/
def State.leafFault (s : State) (e : TlbEntry) (va : Nat) (a : Access) : Option (Bool × Nat) :=
  let ok := match a with
    | .fetch => e.x
    | .read => e.r
    | .write => e.w
    | .atomic => e.r && e.w
  let pa := e.paOf va
  if !ok then some (true, 1)
  else if e.cls = clsQuarantined then some (true, 3)
  else if e.cls = clsRecipe ∧ a = .fetch then some (true, 5)
  else if s.isLocal pa then
    let l := pa % 2 ^ 44
    if s.populated l || (isAgent l) then none else some (false, 3)
  else
    match s.nodeKind pa with
    | some k =>
      if k = 2 then (if e.cls = clsHost then none else some (true, 5))
      else if k = 0 then none
      else some (false, 3)
    | none => some (false, 3)

/-- Where an access goes. -/
structure Place where
  va : Nat
  pa : Nat
  key : Nat
  cls : BitVec 3
  deriving DecidableEq, Repr, Inhabited

/-- The entry of a core's L1 TLB for an address (R302). -/
def Core.tlbFind (k : Core) (va : Nat) : Option TlbEntry := k.tlb.find? (fun e => e.covers k.asid va)

/-- DATAF, or FETCHF for a fetch, with a reason and the address (R305). -/
def dataFault (a : Access) (reason va : Nat) : OpRes :=
  .trap (if a = .fetch then cFETCHF else cDATAF) (addrInfo reason va)

/-- Translate and check one address for a context: checks 1 to 5 of R305. -/
def State.translate (s : State) (w : Who) (va : Nat) (a : Access) : Except OpRes Place :=
  if 2 ^ 52 ≤ va then .error (dataFault a 3 va)
  else
    match (s.core w.core).tlbFind va with
    | some e =>
      match s.leafFault e va a with
      | some (true, r) => .error (prot r va)
      | some (false, r) => .error (dataFault a r va)
      | none => .ok ⟨va, e.paOf va, s.key (e.paOf va), e.cls⟩
    | none =>
      match (s.ctx w).replies.find? (fun r => r.wait = .walk va a) with
      | some r =>
        if r.status = stRetry then .error (.block [.walk va a])
        else if r.status = 0x102 then .error (prot 2 va)
        else .error (dataFault a r.status va)
      | none => .error (.block [.walk va a])

/-- The addresses at which an access of `n` bytes enters a new 64 KiB page. -/
def pagesOf (va n : Nat) : List Nat :=
  if n = 0 then []
  else
    let first := va / 65536
    (List.range ((va + n - 1) / 65536 - first + 1)).map fun i =>
      if i = 0 then va else (first + i) * 65536

/-- Collect the results of a list of checks, the first failure answering for all. -/
def exAll {α β ε : Type} (f : α → Except ε β) : List α → Except ε (List β)
  | [] => .ok []
  | x :: t =>
    match f x with
    | .error e => .error e
    | .ok y =>
      match exAll f t with
      | .error e => .error e
      | .ok ys => .ok (y :: ys)

/-- Translate every page of an access of `n` bytes: the pieces, each with its place and its size. -/
def State.translateSpan (s : State) (w : Who) (va n : Nat) (a : Access) :
    Except OpRes (List (Place × Nat)) :=
  exAll (fun v =>
    match s.translate w v a with
    | .error e => .error e
    | .ok p => .ok (p, min (va + n) ((v / 65536 + 1) * 65536) - v)) (pagesOf va n)

/-! ## What an engine meets at a home -/

/-- How one engine access ends: what it gives, what it needs first, or its error (R226: 2 translation, 3
permission, 4 uncorrectable or LOST). -/
inductive EngRes (α : Type) where
  | ok (x : α)
  | need (n : Need)
  | err (code : Nat)

def EngRes.bind {α β : Type} (r : EngRes α) (f : α → EngRes β) : EngRes β :=
  match r with
  | .ok x => f x
  | .need n => .need n
  | .err c => .err c

/-- Run over a list, in order. -/
def engAll {α β : Type} (f : α → EngRes β) : List α → EngRes (List β)
  | [] => .ok []
  | x :: t => (f x).bind fun y => (engAll f t).bind fun ys => .ok (y :: ys)

/-- Who an engine works for: its core, its ASID, and the recipe tile whose slice it belongs to. -/
structure Agent where
  core : Nat
  ctx : Nat
  asid : Nat
  id : XferId
  deriving DecidableEq, Repr, Inhabited

/-- A part of an engine's work: part 0 is the whole; the parts of a copy are the reads and the writes of its
elements, each with requests of its own (R223). -/
def Agent.part (g : Agent) (n : Nat) : Agent := { g with id := { g.id with ch := g.id.ch + 32 * n } }

/-- The recipe entry whose tile holds the key (R285). -/
def State.tileAt (s : State) (k : Nat) : Option Recipe :=
  s.dev.recipes.find? (fun r => r.tile = k / 16384 * 16384)

/-- The context runs the slice of the tile (R287). -/
def State.slices (s : State) (w : Who) (tile : Nat) : Bool :=
  match (s.ctx w).slice with
  | some sl => decide (sl.tile = tile)
  | none => false

/-- The private-page entry that holds the key (R261). -/
def State.privAt (s : State) (k : Nat) : Option (Nat × Nat) :=
  s.dev.priv.find? fun p =>
    decide (p.1 / 4 * 4 ≤ k) && decide (k < p.1 / 4 * 4 + 2 ^ pageBits (p.1 % 4))

/-- The host-visible range of a local key (R368). -/
def State.hostRangeAt (s : State) (k : Nat) : Option HostRange :=
  (s.dev.ranges.filterMap (·.2)).find? fun r => decide (r.base ≤ k) && decide (k < r.base + r.size)

/-- The page of a local key is under host bias (R369). -/
def State.hostBias (s : State) (k : Nat) : Bool :=
  (s.hostRangeAt k).isSome && Map.get false s.dev.bias (k / 4096)

/-- A host has answered a back-invalidate of the half whose use is still to come; BISnpInv serves for a read too (R369). -/
def Device.answered (d : Device) (half : Nat) (inv : Bool) : Bool :=
  decide ((half, true) ∈ d.snooped) || (!inv && decide ((half, false) ∈ d.snooped))

/-- The page of the key is being flipped (R371). -/
def State.flipping (s : State) (k : Nat) : Bool :=
  s.dev.flips.any fun f => f.started && decide (f.page / 4096 = k / 4096)

/-- A request for the word waits for the end of a flip; one that had asked the host before the flip began and has its
answer is completed under the old bias (R371). -/
def State.flipHolds (s : State) (k : Nat) (inv : Bool) : Bool :=
  s.flipping k && !(s.hostBias k && s.dev.answered (k / 64) inv)

/-- The home of the word lies on a die that has stopped (R381). -/
def State.homeStopped (s : State) (k : Nat) : Bool := decide (k < 2 ^ 52) && s.dev.deadDies.getLsbD (homeDie k)

/-- A message about the word is on its way, so that no one at rest holds its value. -/
def State.inTransit (s : State) (k : Nat) : Bool :=
  s.dev.homeWait.any (fun h => h.word = k) ||
  s.dev.gone.any (fun g => g.word = k) ||
  s.pending.any fun i =>
    match i with
    | .revoke m => decide (m.word = k)
    | .fdata m => decide (m.word = k)
    | .wb m => decide (m.word = k)
    | .grant m => decide (m.word = k)
    | .gone m => decide (m.word = k)
    | .lostReply (.fdata w _) => decide (w = k)
    | _ => false

/-- The home of a word's line has not heard yet that the word's tile is dropped, and serves the sealed value (R288). -/
def Recipe.lateAt (r : Recipe) (k : Nat) : Bool :=
  (decide (r.st = .absent) || decide (r.st = .queued)) && decide (k / 128 ∈ r.late)

/-- A word of the bytes that a tile was last published with. -/
def Recipe.pubWord (r : Recipe) (k : Nat) : Word :=
  BitVec.ofNat 32 (leNat ((List.range 4).map fun i => Map.get unwritten r.pub (k + i)))

/-- The value that a waiting access of the context reads of a tile which has been published for it and dropped since
(R292). -/
def State.published (s : State) (w : Who) (k : Nat) : Option Word :=
  match s.tileAt k with
  | none => none
  | some r =>
    if r.st = .declared ∨ r.st = .sealed ∨ s.slices w r.tile then none
    else if (s.ctx w).replies.any fun x => decide (x.wait = .regrow r.tile r.va) && decide (x.status = 0) then
      some (r.pubWord k)
    else none

/-- Read one word at device scope, installing nothing (R217, R255). -/
def State.engWord (s : State) (g : Agent) (k : Nat) : EngRes Word :=
  let gate : Option Nat := match s.tileAt k with
    | some r =>
      if (r.st = .absent ∨ r.st = .queued ∨ r.st = .growing) ∧ ¬ s.slices ⟨g.core, g.ctx⟩ r.tile ∧
          ¬ r.lateAt k then
        some r.tile else none
    | none => none
  match gate with
  | some t =>
    if (g.id, t) ∈ s.dev.engFail then .err 4
    else if (g.id, t) ∈ s.dev.engPub then .ok (((s.tileAt k).map fun r => r.pubWord k).getD 0)
    else
      match s.published ⟨g.core, g.ctx⟩ k with
      | some x => .ok x
      | none => .need (.regrow t)
  | none =>
    if s.flipHolds k false || s.homeStopped k then .need .wait
    else if 2 ^ 52 ≤ k ∧ Map.get none s.dev.hostLines (k / 128) = none then
      .need (.hostLine (k / 128) false)
    else if s.hostBias k && !s.dev.answered (k / 64) false then .need (.snoop (k / 64) false)
    else if k / 4 * 4 ∈ s.dev.badMem then .err 4
    else
      match s.privAt k with
      | some (p, o) =>
        if o = g.core then
          let w := (s.core o).word k
          if w.st = .P then (if (s.core o).isBad k then .err 4 else .ok w.data) else .ok (s.wordAt k)
        else .need (.unpriv p o)
      | none =>
        if s.inTransit k then .need .wait
        else
          match s.ownerOf k with
          | none => .ok (s.wordAt k)
          | some o =>
            if o.agent = ownLost then .err 4
            else if o.agent = ownBridge then .need (.snoop (k / 64) true)
            else
              let w := (s.core o.agent).word k
              if w.st = .O then (if (s.core o.agent).isBad k then .err 4 else .ok w.data) else .need .wait

/-- Read `n` bytes from a key, by words. -/
def State.engBytes (s : State) (g : Agent) (k n : Nat) : EngRes (List Byte) :=
  let first := k / 4
  let count := (k + n + 3) / 4 - first
  (engAll (fun i => s.engWord g ((first + i) * 4)) (List.range count)).bind fun ws =>
    .ok (((ws.flatMap fun w => leBytes 4 w.toNat).drop (k % 4)).take n)

/-- A word's place at the home is free of an owner; the value that stood there comes back merged (R257).
The core `x` loses the word. -/
def State.takeBack (s : State) (k : Nat) (x : Nat) : State :=
  let w := (s.core x).word k
  let s := s.markHome k ((s.core x).isBad k)
  let s := s.setCore x (((s.core x).setWord k { w with st := .I, mask := 0, got := none, fdata := none }).markWord k
    false)
  (s.putWord k w.data).setOwner k none

/-- The replicas of the word's line are recalled (R263). -/
def State.recall (s : State) (k : Nat) : State :=
  s.setDev { s.dev with replicas := s.dev.replicas.filter (· ≠ k / 128), hot := Map.del s.dev.hot (k / 128) }

/-- Drop a core's V copy of a word (R257), and those that are on their way (R274). -/
def State.dropV (s : State) (core k : Nat) : State :=
  let s := s.hideWord core k
  let w := (s.core core).word k
  if w.st = .V then s.setCore core (((s.core core).setWord k {}).markWord k false) else s

/-- A core's P word goes home, and the core drops it (R256, R257). -/
def State.sendHome (s : State) (core k : Nat) : State :=
  let w := (s.core core).word k
  if w.st = .P then
    ((s.hideWord core k).setCore core (((s.core core).setWord k {}).markWord k false)).putWord k w.data |>.markHome k
      ((s.core core).isBad k)
  else s.hideWord core k

/-- The word's data, at its home or in its owner's L1, are not to be corrected (R354). -/
def State.badAt (s : State) (k : Nat) : Bool :=
  decide (k ∈ s.dev.badMem) || match s.ownerOf k with
    | some o => (s.core o.agent).isBad k
    | none => false

/-- The bridge holds the line of host memory with ownership (R372). -/
def State.hostOwned (s : State) (k : Nat) : Bool :=
  match Map.get none s.dev.hostLines (k / 128) with
  | some l => l.owned
  | none => false

/-- Write the bytes of one word that `mask` selects at its home, as a bypassing write (R257). -/
def State.engWrite (s : State) (g : Agent) (k : Nat) (d : Word) (mask : BitVec 4) : EngRes State :=
  let refused : Bool := match s.tileAt k with
    | some r =>
      let own := s.slices ⟨g.core, g.ctx⟩ r.tile
      if (s.ctx ⟨g.core, g.ctx⟩).slice.isSome then !own else decide (r.st ≠ .declared)
    | none => false
  if refused then .err 3
  else if s.flipHolds k true || s.homeStopped k then .need .wait
  else if decide (2 ^ 52 ≤ k) && !(s.hostOwned k) then .need (.hostLine (k / 128) true)
  else if s.hostBias k && !s.dev.answered (k / 64) true then .need (.snoop (k / 64) true)
  else
    match s.privAt k with
    | some (p, o) =>
      if o = g.core then
        let s := s.sendHome o k
        if k / 4 * 4 ∈ s.dev.badMem ∧ mask ≠ 15#4 then .err 4
        else
          let (s, _) := (s.recall k).bumpGrant k
          let s := s.setDev { s.dev with badMem := s.dev.badMem.filter (· ≠ k / 4 * 4) }
          .ok (s.putWord k (mergeWord (s.wordAt k) d mask))
      else .need (.unpriv p o)
    | none =>
      if s.inTransit k then .need .wait
      else
        let go (s : State) : EngRes State :=
          if k / 4 * 4 ∈ s.dev.badMem ∧ mask ≠ 15#4 then .err 4
          else
            let s := s.setDev { s.dev with badMem := s.dev.badMem.filter (· ≠ k / 4 * 4) }
            let (s, _) := (s.recall k).bumpGrant k
            let s := s.putWord k (mergeWord (s.wordAt k) d mask)
            .ok (s.dropV g.core k)
        match s.ownerOf k with
        | none => go s
        | some o =>
          if o.agent = ownLost then
            if mask = 15#4 then
              go ((s.setOwner k none).log (homeDie k) 0x10 g.asid 1023 7 1) else .err 4
          else if o.agent = ownBridge then .need (.snoop (k / 64) true)
          else if ((s.core o.agent).word k).st = .O then go (s.takeBack k o.agent)
          else .need .wait

/-- The words that bytes at a key touch: key, data, mask. -/
def wordsOf (k : Nat) (bs : List Byte) : List (Nat × Word × BitVec 4) :=
  let first := k / 4
  let n := bs.length
  (List.range ((k + n + 3) / 4 - first)).map fun i =>
    let a := (first + i) * 4
    let byte (j : Nat) : Nat := if k ≤ a + j ∧ a + j < k + n then (bs.getD (a + j - k) 0).toNat else 0
    (a, BitVec.ofNat 32 (packBits 8 ((List.range 4).map byte)),
      BitVec.ofNat 4 (packBits 1 ((List.range 4).map fun j =>
        if k ≤ a + j ∧ a + j < k + n then 1 else 0)))

/-- Write bytes at a key, word by word. -/
def engWriteWords (g : Agent) : List (Nat × Word × BitVec 4) → State → EngRes State
  | [], s => .ok s
  | (a, d, m) :: t, s => (s.engWrite g a d m).bind (engWriteWords g t)

def State.engPut (s : State) (g : Agent) (k : Nat) (bs : List Byte) : EngRes State :=
  engWriteWords g (wordsOf k bs) s

/-! ## Walks (R300 to R304) -/

/-- How a walk ends. -/
inductive Walked where
  | leaf (e : TlbEntry)
  | svc
  | bad (reason : Nat)
  /-- The access table of a target refuses an entry's read, on a die of this device or on another device, whose
  answer is recorded as it comes (R306). -/
  | refused (die : Option Nat)
  | need (n : Need)

/-- The answer to an engine's native request, once it has come (R374, R376). -/
def State.natAnswer (s : State) (g : Agent) (pa : Nat) : Option (Nat × List Byte) :=
  (s.dev.natGot.find? fun x => decide (x.1 = g.id) && decide (x.2.1 = pa)).map fun x => (x.2.2.1, x.2.2.2)

/-- A page-table entry on another device is read over the native flows (R301, R376). Status 2 and 4 are an
uncorrectable entry (reason 4), status 3 an unpopulated one. -/
def State.remoteEntry (s : State) (g : Agent) (pa : Nat) : Except Walked Dword :=
  match s.natAnswer g pa with
  | none => .error (.need (.native 1 pa 8 []))
  | some (0, bs) => .ok (BitVec.ofNat 64 (leNat bs))
  | some (1, _) => .error (.refused none)
  | some (3, _) => .error (.bad 3)
  | some _ => .error (.bad 4)

/-- Read a page-table entry as a device-scope read of the ASID (R301). -/
def State.readEntry (s : State) (g : Agent) (pa : Nat) : Except Walked Dword :=
  let k := s.key pa
  if s.isRemote pa && decide (s.nodeKind pa = some 0) then s.remoteEntry g pa
  else if s.isRemote pa || (s.isLocal pa && !(s.populated k)) then .error (.bad 3)
  else
    match s.refusedBy s.dev.node.toNat g.asid k [0] with
    | some die => .error (.refused (some die))
    | none =>
      match s.engBytes g k 8 with
      | .ok bs => .ok (BitVec.ofNat 64 (leNat bs))
      | .need n => .error (.need n)
      | .err _ => .error (.bad 4)

/-- Index of an address in a table of a level (R300). -/
def walkIndex (va level : Nat) : Nat :=
  if level = 3 then va / 2 ^ 39 else if level = 0 then va / 2 ^ 16 % 32
  else va / 2 ^ (12 + 9 * level) % 512

/-- Alignment of a level's table (R300). -/
def tableAlign (level : Nat) : Nat := if level = 3 then 65536 else if level = 0 then 256 else 4096

/-- One entry of a walk: the next table's address, or how the walk ends (R300). -/
def State.walkEntry (s : State) (g : Agent) (va level table : Nat) : Except Walked Nat :=
  match s.readEntry g (table + 8 * walkIndex va level) with
  | .error r => .error r
  | .ok e =>
    if !e.getLsbD 63 then .error (if e.getLsbD 58 then .svc else .bad 1)
    else
      let leaf := e.getLsbD 62
      let cls : BitVec 3 := e.extractLsb' 59 3
      if e.getLsbD 58 || decide (bitsOf e 54 52 ≠ 0) || (leaf && decide (level = 3)) ||
          (!leaf && decide (level = 0)) then .error (.bad 2)
      else if leaf then
        let a := bitsOf e 51 16 * 65536
        if 5 ≤ cls.toNat ∨ a % 2 ^ pageBits level ≠ 0 then .error (.bad 2)
        else .error (.leaf ⟨g.asid, va / 2 ^ pageBits level * 2 ^ pageBits level, level, cls,
          e.getLsbD 57, e.getLsbD 56, e.getLsbD 55, a⟩)
      else if cls ≠ 0 ∨ bitsOf e 51 0 % tableAlign (level - 1) ≠ 0 then .error (.bad 2)
      else .ok (bitsOf e 51 0)

/-- The walk from a level down; level 0 always ends it (R300). -/
def State.walkFrom (s : State) (g : Agent) (va : Nat) : Nat → Nat → Walked
  | 0, table =>
    match s.walkEntry g va 0 table with
    | .error r => r
    | .ok _ => .bad 2
  | l + 1, table =>
    match s.walkEntry g va (l + 1) table with
    | .ok next => s.walkFrom g va l next
    | .error r => r

/-- The page-table root of an ASID on this device (R299). -/
def State.root (s : State) (asid : Nat) : Nat := (Map.get {} s.dev.asids asid).root

/-- The whole walk for an address. -/
def State.walk (s : State) (g : Agent) (va : Nat) : Walked := s.walkFrom g va 3 (s.root g.asid)

/-! ## Tables that address spaces share (R362) -/

/-- The entry whose read ends a walk from a level down. -/
def State.lastEntry (s : State) (g : Agent) (va : Nat) : Nat → Nat → Nat
  | 0, table => table + 8 * walkIndex va 0
  | l + 1, table =>
    match s.walkEntry g va (l + 1) table with
    | .ok next => s.lastEntry g va l next
    | .error _ => table + 8 * walkIndex va (l + 1)

/-- The bytes of a level's table (R300). -/
def tableBytes (level : Nat) : Nat := if level = 3 then 65536 else if level = 0 then 256 else 4096

/-- The entry at `pa` belongs to a table that is reached from a table of a level (R300). -/
def State.tableHolds (s : State) (g : Agent) (pa : Nat) : Nat → Nat → Bool
  | 0, table => decide (table ≤ pa) && decide (pa < table + tableBytes 0)
  | l + 1, table =>
    (decide (table ≤ pa) && decide (pa < table + tableBytes (l + 1))) ||
      (List.range (tableBytes (l + 1) / 8)).any fun i =>
        match s.engBytes g (s.key (table + 8 * i)) 8 with
        | .ok bs =>
          let e := BitVec.ofNat 64 (leNat bs)
          e.getLsbD 63 && !e.getLsbD 62 && s.tableHolds g pa l (bitsOf e 51 0)
        | _ => false

/-- The address spaces that share the entry at which a walk has met an uncorrectable error: none where the entry is
of one address space alone (R362). -/
def State.sharedWalk (s : State) (g : Agent) (va : Nat) : List Nat :=
  let pa := s.lastEntry g va 3 (s.root g.asid)
  if s.badAt (s.key pa / 4 * 4) || s.badAt (s.key pa / 4 * 4 + 4) then
    let as := (s.dev.asids.filter fun a => a.2.bound && decide (a.1 ≠ g.asid) &&
      s.tableHolds { g with asid := a.1 } pa 3 a.2.root).map (·.1)
    if as.isEmpty then [] else g.asid :: as
  else []

/-! ## TLBs (R302) -/

/-- Put an entry into a TLB of a size, as the one used last; a full TLB drops its least recently used entry
(R302). -/
def installTlb (t : List TlbEntry) (e : TlbEntry) (size : Nat) : List TlbEntry :=
  let t := t.filter (· ≠ e)
  (if t.length < size then t else t.drop 1) ++ [e]

/-- The pool double words of a span hold poison (R354). -/
def Core.poolPoison (k : Core) (lo n : Nat) : Bool :=
  k.poison.any fun p => decide (p.1 = 4) && decide (8 * p.2 < lo + n) && decide (lo < 8 * p.2 + 8)

/-- The entry that covers an address has been used last. -/
def touchTlb (t : List TlbEntry) (asid va : Nat) : List TlbEntry :=
  match t.find? (fun e => e.covers asid va) with
  | some e => t.filter (· ≠ e) ++ [e]
  | none => t

/-- How an engine's walk of the page has failed (R303). -/
def State.engWalkFail (s : State) (g : Agent) (va : Nat) : Option (Bool × Nat × Option Nat) :=
  (s.dev.engWalks.find? fun e => decide (e.id = g.id) && decide (e.va / 65536 = va / 65536)).bind (·.fail)

/-- The leaf of a page in the L1 TLB of a core, or in its pod's TLB. -/
def State.tlbLeaf (s : State) (core asid va : Nat) : Option TlbEntry :=
  match (s.core core).tlbFind va with
  | some e => some e
  | none => (Map.get [] s.dev.podTlb (corePod core)).find? fun e => e.covers asid va

/-- The engine works for a core of the device; another agent of the device walks by itself. -/
def Agent.ofCore (g : Agent) : Bool := decide (g.core < 576)

/-- The translation that an engine uses: L1 TLB, pod TLB, then a walk by the pod's walkers (R225, R301, R303). -/
def State.engEntry (s : State) (g : Agent) (va : Nat) : EngRes TlbEntry :=
  if g.ofCore then
    match s.tlbLeaf g.core g.asid va with
    | some e => .ok e
    | none =>
      match s.engWalkFail g va with
      | some f => .err (if f.1 then 3 else 2)
      | none => .need (.walk va)
  else
    match s.walk g va with
    | .leaf e => .ok e
    | .svc => .err 2
    | .refused _ => .err 3
    | .bad _ => .err 2
    | .need n => .need n

/-- Translate for an engine. The check is R305's: error 2 for a translation fault, 3 for rights, class and access
table. -/
def State.engPlace (s : State) (g : Agent) (va : Nat) (a : Access) : EngRes Place :=
  if 2 ^ 52 ≤ va then .err 2
  else
    (s.engEntry g va).bind fun e =>
      match s.leafFault e va a with
      | some (true, _) => .err 3
      | some (false, _) => .err 2
      | none =>
        let pa := e.paOf va
        let p : Place := ⟨va, pa, s.key pa, e.cls⟩
        if s.isRemote pa then .ok p
        else if (s.refusedBy s.dev.node.toNat g.asid p.key (rightsOf a p.key)).isSome then .err 3
        else .ok p

/-- The die of the target whose access table turns an engine's access to a line away (R306). -/
def State.lineRefused (s : State) (g : Agent) (va : Nat) (a : Access) : Option Nat :=
  if 2 ^ 52 ≤ va ∨ inWindow va ∨ inAperture va then none
  else
    match s.engEntry g va with
    | .ok e =>
      let pa := e.paOf va
      if (s.leafFault e va a).isSome || s.isRemote pa then none
      else s.refusedBy s.dev.node.toNat g.asid (s.key pa) (rightsOf a (s.key pa))
    | .err _ =>
      if g.ofCore then (s.engWalkFail g va).bind fun f => f.2.2
      else
        match s.walk g va with
        | .refused die => die
        | _ => none
    | .need _ => none

/-! ## What is used last (R302) -/

/-- A page's translation has been used: it is the latest of the core's TLB, into which a pod's entry comes (R302,
R303). -/
def State.usePage (s : State) (core asid va : Nat) : State :=
  let k := s.core core
  match k.tlbFind va with
  | some _ => s.setCore core { k with tlb := touchTlb k.tlb asid va }
  | none =>
    let p := corePod core
    match (Map.get [] s.dev.podTlb p).find? fun e => e.covers asid va with
    | some e =>
      let s := s.setCore core { k with tlb := installTlb k.tlb e 512 }
      s.setDev { s.dev with podTlb := Map.put [] s.dev.podTlb p (touchTlb (Map.get [] s.dev.podTlb p) asid va) }
    | none => s

/-- An engine has used the translations of a span. -/
def State.useSpan (s : State) (g : Agent) (va n : Nat) : State :=
  if !g.ofCore || inWindow va || inAperture va then s
  else (pagesOf va n).foldl (fun s v => s.usePage g.core g.asid v) s

/-- V copies of a core's words at virtual addresses [lo, lo + n) are dropped, as an eviction may drop them at any time,
once an engine of the core has read the words: a later load must not return an older value (R256, R274; log entry
102). -/
def State.forgetSpan (s : State) (core lo n : Nat) : State :=
  if inWindow lo then s
  else
    let inside (va : Nat) : Bool := decide (lo < va + 4) && decide (va < lo + n)
    let s := s.hideFills core (fun m => inside m.va) allCtxs
    let k := s.core core
    s.setCore core { k with l1 := k.l1.filter fun p => !(decide (p.2.st = .V) && inside p.2.va) }

/-- The pieces of a span, cut at the 128-byte lines and places of its pages. -/
def linesOf (va n : Nat) : List (Nat × Nat) :=
  if n = 0 then []
  else
    let first := va / 128
    (List.range ((va + n - 1) / 128 - first + 1)).map fun i =>
      let v := if i = 0 then va else (first + i) * 128
      (v, min (va + n) ((first + i + 1) * 128) - v)

/-- The same for a span. -/
def State.spanRefused (s : State) (g : Agent) (va n : Nat) (a : Access) : Option Nat :=
  (linesOf va n).findSome? fun p => s.lineRefused g p.1 a

/-- The refusal of a transfer is recorded on the target's die (R306); on the requester's own die the record of the
transfer's error 3 (R226) is that one. -/
def State.engRefused (s : State) (g : Agent) (die : Option Nat) : State :=
  if die = some (coreDie g.core) then s else s.logRefusedBy die g.asid

/-- An engine's access to a span has failed with error `e`: what a table turned away, and what was not to be
corrected, is recorded (R306, R355). -/
def State.engFailed (s : State) (g : Agent) (va n : Nat) (a : Access) (e : Nat) : State :=
  let s := s.logRefusedBy (s.spanRefused g va n a) g.asid
  if e = 4 then s.log (coreDie g.core) 0x09 g.asid g.core g.ctx 5 else s

/-- The engine's error for a native status (R226, R376). -/
def natError (status : Nat) : Nat :=
  if status = 1 then 3 else if status = 3 then 2 else 4

/-- The bytes of an agent aperture as a load sees them (R309, R373, R383). -/
def State.agentRead (s : State) (k n : Nat) : List Byte :=
  (List.range n).map fun i =>
    let a := k + i
    if 2 ^ 43 ≤ a then (if a < 2 ^ 43 + 4096 then Map.get 0 s.dev.mbox.bytes (a - 2 ^ 43) else 0)
    else
      let o := a - 2 ^ 39
      let q := Map.get {} s.dev.queues (o / 4096)
      if q.bound then Map.get 0 q.window (o % 4096) else 0

/-- A store to an agent aperture goes on its way (R309, R383). -/
def State.agentStore (s : State) (k asid : Nat) (bs : List Byte) : State :=
  let m : ApStore := ⟨if k < 2 ^ 43 then k % 4096 else k - 2 ^ 43, bs, s.dev.node.toNat, asid, false⟩
  s.post (if k < 2 ^ 43 then .windowStore ((k - 2 ^ 39) / 4096) m else .mailboxStore m)

/-- Read one line's worth of a virtual span for an engine. -/
def State.engReadVa (s : State) (g : Agent) (va n : Nat) : EngRes (List Byte) :=
  (engAll (fun (p : Nat × Nat) =>
    (s.engPlace g p.1 .read).bind fun q =>
      if s.isRemote q.pa then
        match s.natAnswer g q.pa with
        | some (0, bs) => .ok bs
        | some (st, _) => .err (natError st)
        | none => .need (.native 1 q.pa p.2 [])
      else if isAgent q.key then .ok (s.agentRead q.key p.2)
      else s.engBytes g q.key p.2) (linesOf va n)).bind fun l => .ok l.flatten

/-- Write bytes at a virtual address for an engine, line by line. -/
def engWriteLines (g : Agent) : List (Nat × List Byte) → State → EngRes State
  | [], s => .ok s
  | (va, bs) :: t, s =>
    (s.engPlace g va .write).bind fun q =>
      if s.isRemote q.pa then
        match s.natAnswer g q.pa with
        | some (0, _) => engWriteLines g t s
        | some (st, _) => .err (natError st)
        | none => .need (.native 3 q.pa bs.length bs)
      else if isAgent q.key then engWriteLines g t (s.agentStore q.key g.asid bs)
      else (s.engPut g q.key bs).bind (engWriteLines g t)

def State.engWriteVa (s : State) (g : Agent) (va : Nat) (bs : List Byte) : EngRes State :=
  engWriteLines g ((linesOf va bs.length).map fun p => (p.1, (bs.drop (p.1 - va)).take p.2)) s

/-! ## Whole address spaces (R261, R363, R384) -/

/-- The dispatcher as an engine: no core of the device. -/
def dispAgent (id asid : Nat) : Agent := ⟨1021, 0, asid, ⟨1021, 21, BitVec.ofNat 32 id⟩⟩

/-- The eight bytes of a page-table entry, here or on another device. -/
def State.entryBytes (s : State) (g : Agent) (pa : Nat) : EngRes (List Byte) :=
  if s.isRemote pa then
    match s.natAnswer g pa with
    | some (0, bs) => .ok bs
    | some (st, _) => .err (natError st)
    | none => .need (.native 1 pa 8 [])
  else s.engBytes g (s.key pa) 8

/-- A page-table entry is written, here or on another device; the write of the latter is asked for once, under the
engine's second part. -/
def State.putEntry (s : State) (g : Agent) (pa : Nat) (bs : List Byte) : EngRes State :=
  if s.isRemote pa then
    match s.natAnswer (g.part 1) pa with
    | some (0, _) => .ok s
    | some (st, _) => .err (natError st)
    | none => .need (.native 3 pa 8 bs)
  else s.engPut g (s.key pa) bs

/-- Entries of a table of a level (R300). -/
def tableCount (level : Nat) : Nat := if level = 3 then 8192 else if level = 0 then 32 else 512

/-- A valid entry of a table with its address; what cannot be read maps nothing. -/
def State.validEntry (s : State) (g : Agent) (table i : Nat) : EngRes (Option (Nat × Dword)) :=
  match s.readEntry g (table + 8 * i) with
  | .ok e => .ok (if e.getLsbD 63 then some (table + 8 * i, e) else none)
  | .error (.need n) => .need n
  | .error _ => .ok none

/-- The leaf entries of a table of a level: address, entry and level (R300). -/
def State.leavesOf (s : State) (g : Agent) : Nat → Nat → EngRes (List (Nat × Dword × Nat))
  | level, table =>
    (engAll (s.validEntry g table) (List.range (tableCount level))).bind fun es =>
      let es := es.filterMap id
      let leaves := (es.filter fun e => e.2.getLsbD 62 && decide (level ≠ 3)).map fun e => (e.1, e.2, level)
      match level with
      | 0 => .ok leaves
      | l + 1 =>
        (engAll (fun (e : Nat × Dword) => s.leavesOf g l (bitsOf e.2 51 0))
          (es.filter fun e => !e.2.getLsbD 62)).bind fun ls => .ok (leaves ++ ls.flatten)

/-- Every leaf of an address space. -/
def State.leaves (s : State) (asid : Nat) : EngRes (List (Nat × Dword × Nat)) :=
  s.leavesOf (dispAgent 0 asid) 3 (s.root asid)

end Sys2Proof.Machine
end

