-- ==== Sys2Proof/Machine/Access.lean ====
section
/-! DEFINITION. The accesses of a context: order, loads, stores, registration, acquires and releases. -/

namespace Sys2Proof.Machine

/-! ## Order (R270 to R273, R282) -/

/-- An outstanding access is performed at a scope, 0 core to 3 sys (R272). -/
def AccKind.doneAt (scope : Nat) : AccKind → Bool
  | .regs _ => decide (scope < 2)
  | .native _ => decide (scope < 3)
  | .landing _ => decide (scope < 3)
  | .copyOut _ => decide (scope < 3)
  | .atHome _ => false
  | .wbs _ => false
  | .xfer _ => false
  | .gather _ => false

/-- A store that waits for its grants; a later access to its bytes need not wait, as the L1 holds them
(R252). -/
def AccKind.inL1 : AccKind → Bool
  | .regs _ => true
  | _ => false

/-- The packets of a bulk copy: no access waits for them (R220). -/
def AccKind.loose : AccKind → Bool
  | .copyOut _ => true
  | _ => false

def overlaps (lo hi lo' hi' : Nat) : Bool := decide (lo < hi') && decide (lo' < hi)

/-- The op reaches only another device: it counts as performed below sys as soon as it has issued (R272). -/
def Late.far : Late → Bool
  | .write ps _ => !ps.isEmpty && ps.all (·.far)
  | .landing _ => true
  | _ => false

/-- Every access of the context before place `seq`, of the classes in `bm`, is performed at `scope`. -/
def Ctx.performed (c : Ctx) (seq : Nat) (bm : Half) (scope : Nat) : Bool :=
  c.acc.all (fun a => decide (seq ≤ a.seq) || !bm.getLsbD a.cls || a.kind.doneAt scope) &&
  c.mq.all (fun h => decide (seq ≤ h.seq) || !bm.getLsbD h.cls || (decide (scope < 3) && h.op.far)) &&
  (decide (scope < 3) || c.dirty.all fun d => decide (seq ≤ d.seq) || !bm.getLsbD d.cls)

/-- Every earlier access of every class. -/
def Ctx.allPerformed (c : Ctx) (scope : Nat) : Bool := c.performed c.seq 0xFFFF scope

/-- A fence in force holds an access of class `cls` at place `seq` (R282). -/
def Ctx.fenced (c : Ctx) (seq cls : Nat) : Bool :=
  c.fences.any fun f =>
    decide (f.seq ≤ seq) && f.am.getLsbD cls && !c.performed f.seq f.bm f.scope.toNat

/-- An access of class `cls` to bytes [lo, hi) at place `seq` must wait for an access before place
`before` (R270). `l1` says that it goes through the core's L1, where the bytes of a store that registers
stand already; an engine's access and an atomic at the home wait for the grants. -/
def Ctx.mustWait (c : Ctx) (l1 : Bool) (before seq cls lo hi : Nat) : Bool :=
  (c.acc.any fun a => decide (a.seq < before) && !a.kind.loose &&
    (decide (a.cls = cls) || (overlaps a.lo a.hi lo hi && !(l1 && a.kind.inL1)))) ||
  (c.mq.any fun h => decide (h.seq < before) && (decide (h.cls = cls) || overlaps h.lo h.hi lo hi)) ||
  c.fenced seq cls

/-- The next place in program order. -/
def State.takeSeq (s : State) (w : Who) : State × Nat :=
  let c := s.ctx w
  (s.setCtx w { c with seq := c.seq + 1 }, c.seq)

def State.addAcc (s : State) (w : Who) (a : Acc) : State :=
  let c := s.ctx w
  s.setCtx w { c with acc := c.acc ++ [a] }

/-- An access of the running op must wait for one of an earlier bundle (R270). -/
def State.orderHeld (s : State) (l1 : Bool) (cls lo hi : Nat) : Bool :=
  s.me.mustWait l1 s.cur.seq0 s.cur.seq0 cls lo hi

/-- The same of a load that goes through the L1. -/
def State.loadHeld (s : State) (cls lo hi : Nat) : Bool := s.orderHeld true cls lo hi

/-- An access of the running op must wait for one that an earlier slot of its bundle makes (R270, log entry
24). -/
def State.maskHeld (s : State) (l1 : Bool) (cls lo hi : Nat) : Bool :=
  s.me.mustWait l1 s.me.seq s.me.seq cls lo hi

/-- The running op blocks on a condition of its own. -/
def State.blockOn (s : State) (code : Nat) : OpRes := .block [.cond s.cur.slot code]

/-! ## Regions and acquires (R262) -/

/-- The line of a virtual address lies in region `n`. -/
def inRegion (r : Regs) (n va : Nat) : Bool :=
  let b := (Map.get 0 r.region (2 * n)).toNat
  let l := (Map.get 0 r.region (2 * n + 1)).toNat
  decide (b ≤ va / 128 * 128) && decide (va / 128 * 128 < l)

/-- The address lies in a region that the mask selects; mask 0 selects everything. -/
def inMask (r : Regs) (mask : Byte) (va : Nat) : Bool :=
  decide (mask = 0) || (List.range 8).any fun n => mask.getLsbD n && inRegion r n va

/-- Drop V words of a core's L1 that the mask selects (R262, R267). -/
def State.dropVs (s : State) (core : Nat) (r : Regs) (mask : Byte) : State :=
  let k := s.core core
  s.setCore core { k with l1 := k.l1.filter fun p => !(decide (p.2.st = .V) && inMask r mask p.2.va) }

/-- The invalidation of an acquire above core scope by a context (R262, R280). What is on its way for the selected words
may be older than what the acquire makes visible, so that the context does not use it (R273; log entry 102). -/
def State.acquire (s : State) (w : Who) : State :=
  let r := (s.ctx w).regs
  (s.hideFills w.core (fun m => inMask r r.invsel m.va) [w.ctx]).dropVs w.core r r.invsel

/-! ## Recipe tiles (R287 to R290) -/

/-- An access that reaches the home of a recipe tile which is not present: it starts or joins the regrow,
fails with it, or would close a circle. One that waited for RDONE goes on (R292). -/
def State.recipeGate (s : State) (w : Who) (k va : Nat) : Option OpRes :=
  match s.tileAt k with
  | none => none
  | some r =>
    if r.st = .declared ∨ r.st = .sealed ∨ s.slices w r.tile ∨ r.lateAt k then none
    else
      match (s.ctx w).replies.find? (fun x =>
          decide (x.wait = .regrow r.tile r.va)) with
      | some x =>
        if x.status = 0 then none else some (.trap (BitVec.ofNat 8 x.status) (BitVec.ofNat 64 (leNat x.bytes)))
      | none =>
        match (s.ctx w).slice with
        | some sl =>
          if r.st ≠ .absent ∧ r.depth ≤ sl.depth then
            some (.trap cRDEPTH (regrowInfo 0 (r.depth - 1) va 0))
          else some (.block [.regrow r.tile r.va])
        | none => some (.block [.regrow r.tile r.va])

/-- A write, atomic or OWN that a recipe tile's state forbids (R288, R291). -/
def State.recipeWrite (s : State) (w : Who) (k va : Nat) : Option OpRes :=
  match s.tileAt k with
  | none => none
  | some r =>
    let bad := if (s.ctx w).slice.isSome then !s.slices w r.tile else decide (r.st ≠ .declared)
    if bad then some (.trap cRSEALW (BitVec.ofNat 64 (va / 16384 * 16384))) else none

/-! ## Atomics -/

/-- The new value of an atomic of `w` bits, none when it writes nothing (R266, R281). -/
def atomNew (op : AtomOp) (w : Nat) (old b c : Nat) : Option Nat :=
  let sgn (x : Nat) : Int := if x.testBit (w - 1) then (x : Int) - 2 ^ w else x
  match op with
  | .add => some ((old + b) % 2 ^ w)
  | .and => some (old &&& b)
  | .or => some (old ||| b)
  | .xor => some (old ^^^ b)
  | .smin => some (if sgn b < sgn old then b else old)
  | .smax => some (if sgn old < sgn b then b else old)
  | .umin => some (min old b)
  | .umax => some (max old b)
  | .swap => some b
  | .cas => if old = c then some b else none
  | .load => none

/-- An atomic of `n` bytes on pool bytes: the core and the old value (R198, R266). -/
def Core.poolAtom (k : Core) (o n : Nat) (op : AtomOp) (b c : Nat) : Core × Nat :=
  let old := leNat (k.poolRead o n)
  match atomNew op (8 * n) old b c with
  | some x => (k.poolWrite o (leBytes n x), old)
  | none => (k, old)

/-- An atomic of `n` bytes on P words: the core and the old value (R266). -/
def Core.privateAtom (k : Core) (a n : Nat) (op : AtomOp) (b c : Nat) : Core × Nat :=
  let at_ (i : Nat) : L1Word := k.word (a + 4 * i)
  let old := packBits 32 ((List.range (n / 4)).map fun i => (at_ i).data.toNat)
  match atomNew op (8 * n) old b c with
  | none => (k, old)
  | some x =>
    ((List.range (n / 4)).foldl (fun (k : Core) i =>
      k.setWord (a + 4 * i) { k.word (a + 4 * i) with data := BitVec.ofNat 32 (x / 2 ^ (32 * i)), dirty := true }) k,
      old)

/-- An acquiring atomic in the core itself, and its invalidation: the bytes of the old value (R198, R266,
R273). -/
def State.atomHere (s : State) (w : Who) (pool : Bool) (m : AtomicMsg) : State × List Byte :=
  let n := if m.wide then 8 else 4
  let k := s.core w.core
  let (k, old) := if pool then k.poolAtom m.pa n m.op m.b.toNat m.c.toNat
    else k.privateAtom m.pa n m.op m.b.toNat m.c.toNat
  ((s.setCore w.core k).acquire w, leBytes n old)

/-! ## Loads -/

/-- The answer to a wait of the context, if one has come. -/
def Ctx.reply (c : Ctx) (x : Wait) : Option Reply := c.replies.find? (fun r => decide (r.wait = x))

/-- The fault of a status that came back for an access (R408). An answer from another device names no word: the first
that was asked for stands for it (R358). -/
def statusFault (status va pa : Nat) : OpRes :=
  if status = 1 then prot 2 va
  else if status = 2 then .poison 5 (pa / 4 * 4)
  else if status = 4 then .trap cOWNLOST (BitVec.ofNat 64 (pa % 2 ^ 52))
  else dataFault .read 3 va

/-- The word is one of a tile that another context's slice grows: only that context may read it (R287). -/
def State.growingElse (s : State) (w : Who) (k : Nat) : Bool :=
  match s.tileAt k with
  | some r => decide (r.st = .growing) && !s.slices w r.tile
  | none => false

/-- One word of a load: its value, or why it is not there. `need` are the bytes wanted; `fresh` treats a V
word as a miss (R280). -/
def State.loadWord (s : State) (w : Who) (p : Place) (need : BitVec 4) (fresh : Bool) : Except OpRes Word :=
  let k := p.key / 4 * 4
  let c := s.ctx w
  let x := (s.core w.core).word k
  let via : Wait := .lda s.cur.slot k p.va
  let miss : Except OpRes Word :=
    match s.refusedBy s.dev.node.toNat (s.core w.core).asid k [0] with
    | some d => .error (.denied d p.va)
    | none =>
      match s.recipeGate w k p.va, s.published w k with
      | some r, _ => .error r
      | none, some v => .ok v
      | none, none =>
        let ask : Wait := if fresh ∨ s.hostBias k then via else .word k (p.va / 4 * 4)
        match c.reply ask with
        | some r =>
          if r.status = 0 then
            (if ask = via then .ok (BitVec.ofNat 32 (leNat r.bytes)) else .error (.block [ask]))
          else if r.status = stRetry then .error (.block [ask])
          else .error (statusFault r.status p.va (s.unkey k))
        | none => .error (.block [ask])
  if x.st = .I ∨ (x.st = .V ∧ (fresh ∨ w.ctx ∈ x.hidden)) ∨ (x.st ≠ .V ∧ s.growingElse w k) then miss
  else if (3, k) ∈ (s.core w.core).poison then .error (.poison 3 (s.unkey k))
  else if x.st = .pending ∧ need &&& ~~~x.mask ≠ 0 then .error (.block [.word k (p.va / 4 * 4)])
  else .ok x.data

/-- All the pieces of a load: the values, else the first fault, else every wait. -/
def collectWords (l : List (Except OpRes Word)) : Except OpRes (List Word) :=
  match l.find? (fun r => match r with
      | .error (.block _) => false
      | .error _ => true
      | .ok _ => false) with
  | some (.error r) => .error r
  | _ =>
    let waits := l.flatMap fun r => match r with
      | .error (.block ws) => ws
      | _ => []
    if waits.isEmpty then
      .ok (l.map fun r => match r with
        | .ok x => x
        | .error _ => 0)
    else .error (.block waits)

/-- The bytes of one line's piece of a load. -/
def State.loadPiece (s : State) (w : Who) (p : Place) (n : Nat) (fresh : Bool) : Except OpRes (List Byte) :=
  if s.isRemote p.pa then
    let x : Wait := .native s.cur.slot 1 p.pa n 0 []
    match (s.ctx w).reply x with
    | some r => if r.status = 0 then .ok r.bytes else .error (statusFault r.status p.va p.pa)
    | none => .error (.block [x])
  else if isAgent p.key then
    match s.refusedBy s.dev.node.toNat (s.core w.core).asid p.key [0] with
    | some d => .error (.denied d p.va)
    | none => .ok (s.agentRead p.key n)
  else
    let first := p.key / 4
    let count := (p.key + n + 3) / 4 - first
    let one (i : Nat) : Except OpRes Word :=
      let a := (first + i) * 4
      let need := BitVec.ofNat 4 (packBits 1 ((List.range 4).map fun j =>
        if p.key ≤ a + j ∧ a + j < p.key + n then 1 else 0))
      s.loadWord w { p with key := a, va := p.va + a - p.key, pa := p.pa + a - p.key } need fresh
    match collectWords ((List.range count).map one) with
    | .ok ws => .ok (((ws.flatMap fun x => leBytes 4 x.toNat).drop (p.key % 4)).take n)
    | .error r => .error r

/-- Bytes of earlier stores of the bundle, or of the open segment, laid over a load's bytes (R270, R357). -/
def overlay (va : Nat) (bs : List Byte) (ws : List Write) : List Byte :=
  ws.foldl (fun bs x => bs.zipIdx.map fun p =>
    if x.va ≤ va + p.2 ∧ va + p.2 < x.va + x.bytes.length then x.bytes.getD (va + p.2 - x.va) 0 else p.1) bs

/-- The stores that wait in the M unit, or in a segment's buffer, whose bytes a load reads. -/
def Ctx.waitingWrites (c : Ctx) : List Write :=
  (c.heldE ++ c.mq).flatMap fun h => match h.op with
    | .write parts _ => parts
    | _ => []

/-- Join the pieces of a load: the first fault that is no block, else every wait. -/
def joinPieces (l : List (Except OpRes (List Byte))) : Except OpRes (List Byte) :=
  match l.find? (fun r => match r with
      | .error (.block _) => false
      | .error _ => true
      | .ok _ => false) with
  | some (.error r) => .error r
  | _ =>
    let waits := l.flatMap fun r => match r with
      | .error (.block ws) => ws
      | _ => []
    if waits.isEmpty then
      .ok (l.flatMap fun r => match r with
        | .ok x => x
        | .error _ => [])
    else .error (.block waits)

/-- A window access of `n` bytes, checked (R197), or an aperture access, refused (R220). -/
def State.windowCheck (s : State) (va n : Nat) : Option OpRes :=
  if inWindow va then (windowFault s.myCore.binding va n).map (prot 4)
  else if inAperture va then some (prot 6 va)
  else none

/-- Read `n` bytes at a virtual address for the running op (R265, R197). -/
def State.load (s : State) (va n : Nat) (fresh : Bool) : Except OpRes (List Byte) :=
  let w := s.who
  match s.windowCheck va n with
  | some r => .error r
  | none =>
    let raw : Except OpRes (List Byte) :=
      if inWindow va then
        match (List.range n).find? (fun i => (4, (va + i) / 8) ∈ s.myCore.poison) with
        | some i => .error (.poison 4 ((va + i) / 8 * 8))
        | none => .ok (s.myCore.poolRead va n)
      else
        match exAll (fun (q : Nat × Nat) =>
            match s.translate w q.1 .read with
            | .ok p => .ok (p, q.2)
            | .error e => .error e) (linesOf va n) with
        | .error r => .error r
        | .ok ps => joinPieces (ps.map fun p => s.loadPiece w p.1 p.2 fresh)
    match raw with
    | .ok bs => .ok (overlay va bs s.me.waitingWrites)
    | .error r => .error r

/-! ## Stores -/

/-- The first word of a store that a home would refuse: LOST and only partly written (R260). -/
def State.lostPart (s : State) (core k : Nat) (bs : List Byte) : Option Nat :=
  ((wordsOf k bs).find? fun x =>
    decide (x.2.2 ≠ 15#4) &&
      (decide (((s.core core).word x.1).st = .I) || decide (((s.core core).word x.1).st = .V)) &&
      (match s.ownerOf x.1 with
       | some o => decide (o.agent = ownLost)
       | none => false)).map (·.1)

/-- The words of a piece are all held by the core, so that its store reaches no target. -/
def State.allOwned (s : State) (core k : Nat) (bs : List Byte) : Bool :=
  (wordsOf k bs).all fun x =>
    let st := ((s.core core).word x.1).st
    decide (st = .O) || decide (st = .P) || decide (st = .pending)

/-- The checks of one line of a store that come after its translation: the recipe rules, the access tables and LOST
words (R260, R288, R305). -/
def State.storePlace (s : State) (p : Place) (part : List Byte) : Except OpRes Write :=
  let w := s.who
  let ok : Except OpRes Write := .ok ⟨p.va, some p.pa, p.cls, part, s.isRemote p.pa⟩
  if s.isRemote p.pa then ok
  else
    match s.recipeWrite w p.key p.va with
    | some r => .error r
    | none =>
      match (if s.allOwned w.core p.key part then none
          else s.refusedBy s.dev.node.toNat s.myCore.asid p.key (rightsOf .write p.key)) with
      | some d => .error (.denied d p.va)
      | none =>
        match (if isAgent p.key then none else s.lostPart w.core p.key part) with
        | some k => .error (.trap cOWNLOST (BitVec.ofNat 64 (s.unkey k)))
        | none => ok

/-- Check a store of `bs` at a virtual address and give its parts, before any byte is written: the window rule, then
checks 1 to 5 of R305 on every line, then what is checked at the targets (R204, R265). -/
def State.storeParts (s : State) (va : Nat) (bs : List Byte) : Except OpRes (List Write) :=
  match s.windowCheck va bs.length with
  | some r => .error r
  | none =>
    if inWindow va then .ok [⟨va, none, 0, bs, false⟩]
    else
      let lines := linesOf va bs.length
      match exAll (fun (q : Nat × Nat) => s.translate s.who q.1 .write) lines with
      | .error r => .error r
      | .ok ps =>
        exAll (fun (x : (Nat × Nat) × Place) => s.storePlace x.2 ((bs.drop (x.1.1 - va)).take x.1.2)) (lines.zip ps)

/-- A fresh native tag (R376). -/
def State.newTag (s : State) : State × Nat :=
  (s.setDev { s.dev with nextTag := (s.dev.nextTag + 1) % 65536 }, s.dev.nextTag % 65536)

/-- The port that an access to another device takes: one of its route entry's that are up, by its line address (R375). -/
def State.accessPort (s : State) (pa : Nat) : Nat :=
  let up := s.upPorts (Map.get {} s.dev.routes (pa / 2 ^ 44))
  up.getD (Config.portHash (pa / 128) % up.length) 0

/-- Send a native request (R374, R376): recorded as outstanding and put on its way. -/
def State.sendNative (s : State) (asid kind pa va len : Nat) (aux : BitVec 12) (data : List Byte) (w : Who)
    (seq cls : Nat) (wait : Option Wait) (engine : Option XferId) : State × Nat :=
  let (s, tag) := s.newTag
  let m : NatMsg := ⟨BitVec.ofNat 8 kind, s.dev.node, BitVec.ofNat 8 (pa / 2 ^ 44),
    BitVec.ofNat 16 asid, BitVec.ofNat 16 tag, 0, BitVec.ofNat 52 (pa % 2 ^ 44),
    if kind = 5 then aux else BitVec.ofNat 12 (len - 1), data⟩
  let r : NatReq := ⟨tag, w, kind, pa / 2 ^ 44, va, pa, seq, cls, s.dev.cycle, wait, engine, len, s.accessPort pa⟩
  (s.setDev { s.dev with natReqs := s.dev.natReqs ++ [r], sent := s.dev.sent ++ [m] }, tag)

/-- Write the bytes of one word into the L1, registering it when it is neither O nor P (R252, R253). None:
no registration entry is free (R254). -/
def State.storeWord (s : State) (w : Who) (va : Nat) (x : Nat × Word × BitVec 4) : Option State :=
  let k := s.core w.core
  let old := k.word x.1
  let merged := mergeWord old.data x.2.1 x.2.2
  match old.st with
  | .O => some (s.setCore w.core (k.setWord x.1 { old with data := merged, va := va }))
  | .P => some (s.setCore w.core (k.setWord x.1 { old with data := merged, va := va, dirty := true }))
  | .pending =>
    some (s.setCore w.core (k.setWord x.1 { old with data := merged, mask := old.mask ||| x.2.2 }))
  | _ =>
    if 128 ≤ k.regOut.length then none
    else
      let new : L1Word := { st := .pending, data := mergeWord 0 x.2.1 x.2.2, grant := old.grant, va := va, mask := x.2.2 }
      let k := { k with regOut := k.regOut ++ [(x.1, w.ctx)] }
      some (((s.setCore w.core ((k.setWord x.1 new).markWord x.1 false)).hideWord w.core x.1).post
        (.reg ⟨x.1, decide (x.2.2 = 15#4), w.core⟩))

def storeWords (w : Who) (va k : Nat) : List (Nat × Word × BitVec 4) → State → Option State
  | [], s => some s
  | x :: t, s =>
    match s.storeWord w (va + x.1 - k) x with
    | none => none
    | some s => storeWords w va k t s

/-- Make one part of a store (R253, R309, R369, R374); none when it cannot be made yet. -/
def State.storePart (s : State) (w : Who) (seq cls : Nat) (p : Write) : Option State :=
  match p.pa with
  | none => some (s.setCore w.core ((s.core w.core).poolWrite p.va p.bytes))
  | some pa =>
    let k := s.key pa
    let hi := p.va + p.bytes.length
    if s.isRemote pa then
      let (s, tag) := s.sendNative (s.core w.core).asid 3 pa p.va p.bytes.length 0 p.bytes w seq cls none none
      some (s.addAcc w ⟨seq, cls, p.va, hi, .native tag⟩)
    else if isAgent k then
      some (s.agentStore k (s.core w.core).asid p.bytes)
    else
      let ws := wordsOf k p.bytes
      if s.flipping k then none
      else if s.hostBias k then
        let s := s.postAll (ws.map fun x => .bypassWrite ⟨x.1, x.2.1, x.2.2, w, seq⟩)
        some (s.addAcc w ⟨seq, cls, p.va, hi, .atHome ws.length⟩)
      else if p.cls = clsPrivate ∧ ws.any (fun x => ((s.core w.core).word x.1).st = .I) then none
      else
        match storeWords w p.va k ws s with
        | none => none
        | some s =>
          let out := (ws.map (·.1)).filter fun a => ((s.core w.core).word a).st = .pending
          let c := s.ctx w
          let own := (ws.map (·.1)).filter fun a => c.dirty.all fun d => d.word ≠ a ∨ d.cls ≠ cls
          let s := s.setCtx w { c with dirty := c.dirty ++ own.map fun a => ⟨a, seq, cls⟩ }
          if out.isEmpty then some s else some (s.addAcc w ⟨seq, cls, p.va, hi, .regs out⟩)

def storeAll (w : Who) (seq cls : Nat) : List Write → State → Option State
  | [], s => some s
  | p :: t, s =>
    match s.storePart w seq cls p with
    | none => none
    | some s => storeAll w seq cls t s

/-- How many of a store's words, in order, the core's free registration entries allow (R254). -/
def entriesAllow (k : Core) : Nat → List (Nat × Word × BitVec 4) → Nat
  | _, [] => 0
  | free, x :: t =>
    if (k.word x.1).st = .I ∨ (k.word x.1).st = .V then
      match free with
      | 0 => 0
      | n + 1 => entriesAllow k n t + 1
    else entriesAllow k free t + 1

/-- The part of a store that the free registration entries allow, and what is left of it (R254). -/
def State.splitPart (s : State) (w : Who) (p : Write) : Option (Write × Write) :=
  match p.pa with
  | none => none
  | some pa =>
    let k := s.key pa
    let ws := wordsOf k p.bytes
    let c := s.core w.core
    let n := entriesAllow c (128 - c.regOut.length) ws
    if n = 0 ∨ ws.length ≤ n then none
    else
      let o := (k / 4 + n) * 4 - k
      some ({ p with bytes := p.bytes.take o }, ⟨p.va + o, some (pa + o), p.cls, p.bytes.drop o, p.far⟩)

/-- Make as much of a store as can be made, and give what is left of it. -/
def storeSome (w : Who) (seq cls : Nat) : List Write → State → State × List Write
  | [], s => (s, [])
  | p :: t, s =>
    match s.storePart w seq cls p with
    | some s => storeSome w seq cls t s
    | none =>
      match s.splitPart w p with
      | none => (s, p :: t)
      | some (a, b) =>
        match s.storePart w seq cls a with
        | some s => (s, b :: t)
        | none => (s, p :: t)

/-- How many new registration entries the parts of a store need (R253, R254). -/
def State.entriesNeeded (s : State) (core : Nat) (ps : List Write) : Nat :=
  (ps.map fun p => match p.pa with
    | some pa => ((wordsOf (s.key pa) p.bytes).filter fun x =>
        decide (((s.core core).word x.1).st = .I) || decide (((s.core core).word x.1).st = .V)).length
    | none => 0).sum

/-- The lowest and the end address of a list of parts. -/
def partsLo (ps : List Write) : Nat := ps.foldl (fun m p => min m p.va) (2 ^ 52)
def partsHi (ps : List Write) : Nat := ps.foldl (fun m p => max m (p.va + p.bytes.length)) 0

/-- Queue an op in the M unit, and see that it will be performed (R219, R270). -/
def State.holdOp (s : State) (w : Who) (h : Held) : State :=
  let c := s.ctx w
  let s := s.setCtx w { c with mq := c.mq ++ [h] }
  if (.heldStorePerform w) ∈ s.pending then s else s.post (.heldStorePerform w)

/-- The words of a store to a private page that its core does not hold (R261). -/
def State.privateMisses (s : State) (core : Nat) (ps : List Write) : List (Nat × Nat) :=
  ps.flatMap fun p =>
    match p.pa with
    | none => []
    | some pa =>
      if p.cls = clsPrivate ∧ s.isLocal pa then
        let k := s.key pa
        ((wordsOf k p.bytes).filter fun x => ((s.core core).word x.1).st = .I).map fun x =>
          (x.1, p.va + x.1 - k)
      else []

/-- The private page of a core's translation that holds the word: its base plus level (R261). -/
def State.privateOf (s : State) (core k : Nat) : Option Nat :=
  let here (e : TlbEntry) : Bool :=
    decide (e.cls = clsPrivate) && decide (e.asid = (s.core core).asid) &&
      decide (s.key e.pa ≤ k) && decide (k < s.key e.pa + 2 ^ pageBits e.level)
  (((s.core core).tlb ++ Map.get [] s.dev.podTlb (corePod core)).find? here).map fun e => s.key e.pa + e.level

/-- The read that a message carries. -/
def readIn : Instr → Option ReadMsg
  | .read m => some m
  | .fwd m => some m.read
  | .data m => some m.read
  | .retry m => some m
  | .lostReply (.read m) => some m
  | _ => none

/-- Ask for words to be filled into a core's L1 as V or P (R255, R268). A read already on its way is
joined, if the context may use what it installs. -/
def State.askFill (s : State) (w : Who) (k va : Nat) : State :=
  let going := (s.pending ++ s.dev.bisnp.filterMap (·.serve)).any fun i =>
    match readIn i with
    | some m => decide (m.word = k) && decide (m.who.core = w.core) && decide (m.why = .fill) && decide (w.ctx ∉ m.hidden)
    | none => false
  if going then s else s.post (.read ⟨k, w, .fill, va, s.privateOf w.core k, []⟩)

/-- Register one word of an OWN without changing it; a word of a private page is filled instead (R261, R267).
None: no registration entry is free (R254). -/
def State.ownWord (s : State) (w : Who) (x : Nat × Nat × Bool) : Option State :=
  let k := s.core w.core
  let old := k.word x.1
  if x.2.2 then some (s.askFill w x.1 x.2.1)
  else if old.st ≠ .I ∧ old.st ≠ .V then some s
  else if 128 ≤ k.regOut.length then none
  else
    let k := { k with regOut := k.regOut ++ [(x.1, w.ctx)] }
    let new : L1Word := { st := .pending, grant := old.grant, va := x.2.1 }
    some (((s.setCore w.core ((k.setWord x.1 new).markWord x.1 false)).hideWord w.core x.1).post
      (.reg ⟨x.1, false, w.core⟩))

/-- Register words of an OWN as far as entries are free, and give those that are left. -/
def ownSome (w : Who) : List (Nat × Nat × Bool) → State → State × List (Nat × Nat × Bool)
  | [], s => (s, [])
  | x :: t, s =>
    match s.ownWord w x with
    | some s => ownSome w t s
    | none => (s, x :: t)

/-- The running op's store: held by an open rewindable segment, made at once, or queued in the M unit (R219,
R254, R270, R357). One that needs more registration entries than are free blocks its bundle; one that needs
more than there are in all waits until all are free, and its rest waits in the M unit (log entry 80). `hold`
says that a segment would hold it. -/
def State.store (s : State) (cls : Nat) (ps : List Write) (hold : Bool) : OpRes :=
  let w := s.who
  let (s, seq) := s.takeSeq w
  let lo := partsLo ps
  let hi := partsHi ps
  let h : Held := ⟨seq, cls, lo, hi, .write ps none⟩
  let c := s.ctx w
  if hold then .done (s.setCtx w { c with heldE := c.heldE ++ [h] })
  else if c.mustWait true seq seq cls lo hi then .done (s.holdOp w h)
  else
    match storeAll w seq cls ps s with
    | some s => .done s
    | none =>
      match s.privateMisses w.core ps with
      | [] =>
        let (t, rest) := storeSome w seq cls ps s
        if 128 < (s.core w.core).regOut.length + min 128 (s.entriesNeeded w.core ps) ∨ rest = ps then
          s.blockOn condRegs
        else .done (t.holdOp w ⟨seq, cls, partsLo rest, partsHi rest, .write rest none⟩)
      | miss => .done (miss.foldl (fun s m => s.askFill w m.1 m.2) (s.holdOp w h))

/-! ## System-scope write-back (R272) -/

/-- The words that a system-scope release of the context writes back are at rest. -/
def State.flushReady (s : State) (w : Who) : Bool :=
  (s.ctx w).dirty.all fun d => decide (((s.core w.core).word d.word).st ≠ .pending) && !s.inTransit d.word &&
    (decide (d.word < 2 ^ 52) || s.hostOwned d.word)

/-- The tile of a word is growing: V copies that its slice leaves are for the slice alone (R287; log entry 102). -/
def State.growingTile (s : State) (k : Nat) : Bool :=
  match s.tileAt k with
  | some r => decide (r.st = .growing)
  | none => false

/-- The contexts that may not use a V copy which a core makes of a word now. -/
def State.hiddenNow (s : State) (k : Nat) : List Nat := if s.growingTile k then [0, 1, 2, 4] else []

/-- Write back one O word, which becomes V (R272), or one dirty P word, which stays P. -/
def State.writeBack (s : State) (core k : Nat) (keep : Bool) : State :=
  let c := s.core core
  let x := c.word k
  if x.st = .O then
    let s := ((s.putWord k x.data).setOwner k none).markHome k (c.isBad k)
    s.setCore core (if keep then (s.core core).setWord k { x with st := .V, mask := 0, hidden := s.hiddenNow k }
      else ((s.core core).setWord k { x with st := .I, mask := 0 }).markWord k false)
  else if x.st = .P ∧ x.dirty then
    ((s.putWord k x.data).markHome k (c.isBad k)).setCore core (c.setWord k { x with dirty := false })
  else s

/-- The dirty P words of a core. -/
def Core.dirtyPs (k : Core) : List Nat :=
  k.l1.filterMap fun p => if p.2.st = .P ∧ p.2.dirty then some p.1 else none

/-- A wait of a system-scope release. -/
def isSysrel : Wait → Bool
  | .sysrel _ => true
  | _ => false

/-- The system actions on the context's words and the core's dirty P words (R272); the release that waits for
them has its answer. -/
def State.sysFlush (s : State) (w : Who) : State :=
  let s := ((s.ctx w).dirty.map (·.word) ++ (s.core w.core).dirtyPs).foldl (fun s k => s.writeBack w.core k true) s
  let c := s.ctx w
  s.setCtx w { c with
    dirty := [],
    replies := c.replies.filter (fun r => !isSysrel r.wait) ++
      (c.asked.filter isSysrel).map fun x => ⟨x, [], 0⟩ }

/-- The context or its core has words that a system-scope release writes back (R272). -/
def State.wet (s : State) (w : Who) : Bool :=
  !(s.ctx w).dirty.isEmpty || !(s.core w.core).dirtyPs.isEmpty

/-- The context waits for accesses at sys scope: see that its words are written back. -/
def State.askFlush (s : State) (w : Who) : State :=
  if !s.wet w ∨ (.heldStorePerform w) ∈ s.pending then s
  else s.post (.heldStorePerform w)

/-- Something waits at sys scope for the context's words to be written back. -/
def Ctx.wantsFlush (c : Ctx) : Bool :=
  c.fences.any (fun f => decide (f.scope = 3#2) && decide (f.am ≠ 0) && !c.performed f.seq f.bm 3) ||
  c.mq.any (fun h => match h.op with
     | .write _ (some sc) => decide (sc = 3#2)
     | _ => false) ||
  c.waits.any isSysrel

/-- The running op waits until every access that its context made before the bundle is performed at a scope,
and at sys until the core's P words are written back (R97, R272, R277, R281, R292, R294, R308, R319, R352; log
entry 10). -/
def State.waitPerformed (s : State) (scope : Nat) : Option OpRes :=
  if s.me.performed s.cur.seq0 0xFFFF scope &&
      (decide (scope < 3) || s.myCore.dirtyPs.isEmpty || (s.me.reply (.sysrel s.cur.slot)).isSome) then none
  else if scope = 3 then some (.block [.sysrel s.cur.slot])
  else some (s.blockOn condOrder)

/-- A failed store to another device that an op waiting at sys reports (R408), with the state that has
cleared it. -/
def State.storeFailure (s : State) (bm : Half) : Option OpRes :=
  let c := s.me
  match c.storeFail.filter (fun f => bm.getLsbD f.2.1) with
  | [] => none
  | f :: t =>
    let (_, _, cause, info) := t.foldl (fun a b => if b.1 < a.1 then b else a) f
    if cause = cSEGERR then some (.poison 5 (info.toNat % 2 ^ 52))
    else
      some (.trapIn (s.setMe { c with storeFail := c.storeFail.filter fun g => !bm.getLsbD g.2.1 }) cause info)

/-- A store to another device of a class in `bm`, made before the bundle, is outstanding. -/
def State.farStores (s : State) (bm : Half) : Bool :=
  (s.me.acc.any fun a => bm.getLsbD a.cls && decide (a.seq ≤ s.cur.seq0) && match a.kind with
    | .native _ => true
    | _ => false) ||
  s.me.mq.any fun h => bm.getLsbD h.cls && decide (h.seq ≤ s.cur.seq0) && match h.op with
    | .write ps _ => ps.any (·.far)
    | _ => false

/-- An op that waits for the context's stores at a scope is the one to report that a store to another device has failed:
at sys it goes on once those it waits for are answered (R408; log entry 105). -/
def State.reporting (s : State) (sys : Bool) (bm : Half) (f : State → OpRes) : OpRes :=
  if !sys then f s
  else
    match s.storeFailure bm with
    | some r => r
    | none => if s.farStores bm then s.blockOn condOrder else f s

end Sys2Proof.Machine
end

