-- ==== Sys2Proof/Machine/Land.lean ====
section
/-! DEFINITION. Landing zones: slots, barriers, tears, grants, and the packets of a sender (R234 to R250). -/

namespace Sys2Proof.Machine

/-! ## Zones (R234, R249) -/

def Zone.valid (z : Zone) : Bool := z.cfg.getLsbD 35
def Zone.count (z : Zone) : Nat := z.cfg.toNat / 2 ^ 21 % 64 + 1
def Zone.size (z : Zone) : Nat := (z.cfg.toNat / 2 ^ 13 % 256 + 1) * 256
def Zone.base (z : Zone) : Nat := z.cfg.toNat % 2 ^ 13 * 256

def Core.zone (k : Core) (n : Nat) : Zone := Map.get {} k.zones n
def Core.setZone (k : Core) (n : Nat) (z : Zone) : Core := { k with zones := Map.put {} k.zones n z }
def Zone.slot (z : Zone) (n : Nat) : LzSlot := Map.get {} z.slots n
def Zone.setSlot (z : Zone) (n : Nat) (l : LzSlot) : Zone := { z with slots := Map.put {} z.slots n l }

/-- The slot is in RESV or FILL. -/
def LzSlot.live (l : LzSlot) : Bool := decide (l.state = 1#3) || decide (l.state = 2#3)

/-- A count that stops at 2^56 − 1 (R242). -/
def sat56 (n : Nat) : Nat := min n (2 ^ 56 - 1)

/-- An AB word (R249). -/
def abWord (state zone pending : Nat) : Dword := BitVec.ofNat 64 (state * 2 ^ 62 + zone * 2 ^ 60 + pending)

def abState (w : Dword) : Nat := bitsOf w 63 62
def abZone (w : Dword) : Nat := bitsOf w 61 60
def abPending (w : Dword) : Nat := bitsOf w 55 0

def Core.barrier (k : Core) (b : Nat) : Dword := Map.get 0 k.ab b
def Core.setBarrier (k : Core) (b : Nat) (w : Dword) : Core := { k with ab := Map.put 0 k.ab b w }

/-- The bytes that barrier `b` has counted are spent, in every zone (R242). -/
def Core.spend (k : Core) (b : Nat) : Core :=
  { k with zones := k.zones.map fun p => (p.1, { p.2 with
      slots := p.2.slots.map fun q => (q.1, { q.2 with inBar := Map.del q.2.inBar b }) }) }

/-! ## Messages of a landing (R376) -/

/-- The landing word of a message. -/
def landingWord (off slot zone rn core : Nat) : Nat :=
  off + slot * 2 ^ 17 + zone * 2 ^ 23 + rn * 2 ^ 25 + core * 2 ^ 41

/-- The core, zone, slot and rn of a handle (R237), and its node and count. -/
def handleCore (h : Dword) : Nat := bitsOf h 35 26
def handleZone (h : Dword) : Nat := bitsOf h 37 36
def handleSlot (h : Dword) : Nat := bitsOf h 43 38
def handleRn (h : Dword) : Nat := bitsOf h 59 44
def handleNode (h : Dword) : Nat := bitsOf h 25 18
def handleCount (h : Dword) : Nat := bitsOf h 16 0

/-- The handle's checks of GRANTED, the zero bit and the count (R240). -/
def handleOk (h : Dword) (count : Nat) : Bool :=
  decide (bitsOf h 63 60 = 0) && !h.getLsbD 17 && decide (handleCount h = count)

/-- A native message of the landing kinds. -/
def State.landMsg (s : State) (kind dst asid tag : Nat) (aux : BitVec 12) (word : Nat) (data : List Byte) :
    State :=
  s.setDev { s.dev with sent := s.dev.sent ++ [⟨BitVec.ofNat 8 kind, s.dev.node, BitVec.ofNat 8 dst,
    BitVec.ofNat 16 asid, BitVec.ofNat 16 tag, 0, BitVec.ofNat 52 word, aux, data⟩] }

/-- The route to a node: none, or whether it is over Ethernet (R237, R375). -/
def State.landRoute (s : State) (node : Nat) : Option Bool :=
  let r := Map.get {} s.dev.routes node
  if s.reachable r && decide (r.kind ≠ 2#2) then some (decide (r.kind = 1#2)) else none

/-- The port that a landing path takes among those of an entry that are up (R238, R375). -/
def State.landPort (s : State) (r : Route) (core zone : Nat) : Option Nat :=
  let up := s.upPorts r
  if up.isEmpty then none else some (up.getD (Config.portHash (core * 4 + zone) % up.length) 0)

/-- The port to pin a path to or from a node to (R238). -/
def State.pinPort (s : State) (node core zone : Nat) : Option (Bool × Nat) :=
  let r := Map.get {} s.dev.routes node
  if node = s.dev.node.toNat then none else (s.landPort r core zone).map fun p => (decide (r.kind = 1#2), p)

/-- Two handles name one reservation. -/
def sameLanding (a b : Dword) : Bool := decide (bitsOf a 59 18 = bitsOf b 59 18)

/-- The reservation that a handle names, if it was granted to this device. -/
def State.heldLanding (s : State) (h : Dword) : Option LzHeld := s.dev.lzHeld.find? fun x => sameLanding x.handle h

/-! ## Acknowledgements -/

/-- Acknowledge to the sender of a packet (R240, R376). -/
def State.ackPacket (s : State) (m : LzPkt) (count status : Nat) : State :=
  if m.node = s.dev.node.toNat then s.post (.lzack ⟨m.send, count, status⟩)
  else if (s.landRoute m.node).isSome then
    s.landMsg 0x0A m.node m.asid m.send.id.toNat (BitVec.ofNat 12 count)
      (landingWord 0 m.slot m.zone m.rn.toNat m.core) (leBytes 16 status)
  else s.log (coreDie m.core) 0x11 m.asid m.core 7 m.zone

/-- Tell the sender of a slot that it has torn (R241). -/
def State.ackTear (s : State) (core zone slot : Nat) (l : LzSlot) : State :=
  if l.node = s.dev.node.toNat then
    match s.dev.lzSends.find? (fun x => decide (handleNode x.handle = l.node) &&
        decide (handleCore x.handle = core) && decide (handleZone x.handle = zone) &&
        decide (handleSlot x.handle = slot) && decide (handleRn x.handle = l.rn.toNat)) with
    | some x => s.post (.lzack ⟨x.x, l.pkts, 2⟩)
    | none => s
  else if (s.landRoute l.node).isSome then
    s.landMsg 0x0A l.node (s.core core).asid 0 (BitVec.ofNat 12 l.pkts)
      (landingWord 0 slot zone l.rn.toNat core) (leBytes 16 2)
  else s

/-! ## Tears and grants -/

/-- A slot tears (R235, R242). -/
def State.tearSlot (s : State) (core zone slot cause : Nat) : State :=
  let k := s.core core
  let z := k.zone zone
  let l := z.slot slot
  if !l.live then s
  else
    let k := (List.range 8).foldl (fun k b =>
      let w := k.barrier b
      let n := Map.get 0 l.inBar b
      if 0 < n ∧ abState w ≠ 0 then k.setBarrier b (abWord 3 (abZone w) (sat56 (abPending w + n))) else k) k
    let z := { z with acc := z.acc - min z.acc l.inAcc }
    let l' : LzSlot := { l with state := 4, cause := BitVec.ofNat 3 cause, inAcc := 0, inBar := [], cleaning := false }
    let s := s.setCore core (k.setZone zone (z.setSlot slot l'))
    s.ackTear core zone slot l

/-- Answer a reservation (R237, R238). An answer without a route, or whose path has gone down, is dropped. -/
def State.answerRes (s : State) (r : LzQueued) (handle : Dword) (refused : Bool) : State :=
  let q := r.req
  if q.node = s.dev.node.toNat then s.post (.lzans ⟨q.who, q.slot, handle, refused, q.tag⟩)
  else
    let h : Dword := if refused then handle ||| 0xF000000000000000#64 else handle
    let s := s.setDev { s.dev with
      lzAnswered := (s.dev.lzAnswered.filter fun a => a.1.tag ≠ q.node * 65536 + q.tag) ++
        [(⟨q.who, q.slot, h, refused, q.node * 65536 + q.tag⟩, s.dev.cycle)] }
    if !r.cut && (s.landRoute q.node).isSome then
      s.landMsg 0x08 q.node q.asid q.tag (h.extractLsb' 52 12) (h.toNat % 2 ^ 52) []
    else s.log (coreDie q.core) 0x11 q.asid q.core 7 q.zone

/-- The handle of an answer (R237). -/
def State.handleOf (s : State) (q : LzReq) (status rn slot : Nat) : Dword :=
  let node := if q.tag = 65536 ∧ q.node ≠ s.dev.node.toNat then q.node else s.dev.node.toNat
  BitVec.ofNat 64 (status * 2 ^ 60 + rn * 2 ^ 44 + slot * 2 ^ 38 + q.zone * 2 ^ 36 + q.core * 2 ^ 26 +
    node * 2 ^ 18 + q.count)

/-- The lowest FREE slot of a zone. -/
def Zone.freeSlot (z : Zone) : Option Nat :=
  (List.range z.count).find? fun n => decide ((z.slot n).state = 0#3)

/-- Grant a slot (R235, R237, R242). -/
def State.grantSlot (s : State) (r : LzQueued) (slot : Nat) : State :=
  let q := r.req
  let k := s.core q.core
  let z := k.zone q.zone
  let l : LzSlot := {
    state := 1, rn := z.counter, count := q.count, since := s.dev.cycle, node := q.node, who := q.who,
    port := r.port }
  let z' := { (z.setSlot slot l) with counter := z.counter + 1 }
  (s.setCore q.core (k.setZone q.zone z')).answerRes r (s.handleOf q 0 z.counter.toNat slot) false

/-- Grant the queued reservations of a zone for which a slot is FREE, in arrival order (R238, R246). -/
def grantQueued (core zone : Nat) : List LzQueued → State → State
  | [], s => s
  | q :: rest, s =>
    if q.req.zone ≠ zone then grantQueued core zone rest s
    else
      match ((s.core core).zone zone).freeSlot with
      | none => s
      | some n =>
        let k := s.core core
        let s := s.setCore core { k with lzq := k.lzq.erase q }
        grantQueued core zone rest (s.grantSlot q n)

def State.grantWaiting (s : State) (core zone : Nat) : State := grantQueued core zone (s.core core).lzq s

/-- The landing right of a node's ASID on a zone of a core (R234, R306). -/
def State.landRight (s : State) (core zone node asid : Nat) : Bool :=
  let t := Map.get {} s.dev.tables (2 * 65536 + core)
  let g := (Map.get 0 t.groups (node * 65536 + asid)).toNat
  (Map.get 0 t.rights g).getLsbD (4 * zone + 3)

/-- The core's zones and barriers are reclaimed (R250). -/
def State.reclaimZones (s : State) (core : Nat) : State :=
  let s := (List.range 4).foldl (fun s z =>
    (List.range ((s.core core).zone z).count).foldl (fun s n => s.tearSlot core z n 4) s) s
  let s := (s.core core).lzq.foldl (fun s q => s.answerRes q (s.handleOf q.req 2 0 0) false) s
  s.setCore core { s.core core with zones := [], lzq := [], ab := [] }

/-! ## Sending (R236, R240) -/

/-- Cut bytes for a contiguous range into packets of at most 256 bytes; `fuel` bounds their number. -/
def chunks256 : Nat → Nat → List Byte → List (Nat × List Byte)
  | 0, _, _ => []
  | _, _, [] => []
  | n + 1, off, bs => (off, bs.take 256) :: chunks256 n (off + 256) (bs.drop 256)

/-- Send one packet on its way. -/
def State.sendPacket (s : State) (m : LzPkt) (dst : Nat) : State :=
  if dst = s.dev.node.toNat then s.post (.lzpkt m)
  else s.landMsg 0x09 dst m.asid m.send.id.toNat (BitVec.ofNat 12 m.seq)
    (landingWord m.off m.slot m.zone m.rn.toNat m.core) m.bytes

/-- The first packet of a transfer within the device leaves. -/
def State.startLanding (s : State) (l : LzSend) : State :=
  match l.pkts with
  | [] => s.post (.lzack ⟨l.x, l.base, 0⟩)
  | m :: _ => s.post (.lzpkt m)

/-- A transfer within the device has ended: the next one of its reservation leaves. -/
def State.nextLanding (s : State) (l : LzSend) : State :=
  if handleNode l.handle ≠ s.dev.node.toNat then s
  else
    match s.dev.lzSends.find? fun y => sameLanding y.handle l.handle with
    | some y => s.startLanding y
    | none => s

/-- Send pieces into the slot that a handle names: the packets go one after another, in order, along the pinned
path, numbered within the reservation. Within the device the next one leaves when the last is acknowledged. -/
def State.sendLanding (s : State) (x : XferId) (asid : Nat) (h : Dword) (pieces : List (Nat × List Byte)) : State :=
  let cut := pieces.flatMap fun p => chunks256 (p.2.length / 256 + 1) p.1 p.2
  let dst := handleNode h
  let held := s.heldLanding h
  let base := (held.map (·.sent)).getD 0
  let eth := match held with
    | some r => (r.port.map (·.1)).getD false
    | none => (s.landRoute dst).getD false
  let pkts : List LzPkt := cut.zipIdx.map fun q =>
    ⟨s.dev.node.toNat, asid, handleCore h, handleZone h, handleSlot h, BitVec.ofNat 16 (handleRn h), q.1.1, base + q.2,
      q.1.2, x, decide (dst ≠ s.dev.node.toNat) && eth⟩
  let l : LzSend := ⟨x, h, base, pkts, base, s.dev.cycle, eth⟩
  let first := !s.dev.lzSends.any fun y => sameLanding y.handle h
  let s := s.setDev { s.dev with
    lzSends := s.dev.lzSends ++ [l],
    lzHeld := s.dev.lzHeld.map fun r => if sameLanding r.handle h then { r with sent := r.sent + pkts.length } else r }
  if dst = s.dev.node.toNat then (if first then s.startLanding l else s)
  else if (match held with
      | some r => !r.cut
      | none => (s.landRoute dst).isSome) then pkts.foldl (fun s m => s.sendPacket m dst) s
  else s.post (.lzack ⟨x, base, 1⟩)

end Sys2Proof.Machine
end

