-- ==== Sys2Proof/Machine/Engine.lean ====
section
/-! DEFINITION. What engines and waits share: completing a transfer, starting what an access needs, the
requests a blocked bundle sends, segments, barriers, and the end of a strand. -/

namespace Sys2Proof.Machine

/-! ## Channel identifiers (R214, R226) -/

/-- An access that waits for an earlier one of an overlapping footprint, so that both take effect in issue
order (R202). -/
def Core.scoreWaits (k : Core) (key : Nat) : Bool :=
  k.score.any fun e => decide (e.key = key) &&
    k.score.any fun f => decide (f.key < key) && (e.write || f.write) && overlaps f.lo f.hi e.lo e.hi

/-- CDONE moves across an unbroken run of completed identifiers. -/
def advanceDone : Nat → Nat → Word → List (Nat × Word) → Word × List (Nat × Word)
  | 0, _, d, l => (d, l)
  | n + 1, ch, d, l =>
    if (ch, d) ∈ l then advanceDone n ch (d + 1) (l.filter (· ≠ (ch, d))) else (d, l)

/-- The context is a regrow context between slices: the errors of a slice's transfers that end now are ignored
(R291). -/
def Core.afterSlice (k : Core) (x : Nat) : Bool := decide (x = 3) && decide (k.depth ≠ 0) && (k.ctx 3).slice.isNone

/-- Complete an identifier, with an error code or 0 (R214, R226). -/
def State.completeXfer (s : State) (x : XferId) (err : Nat) : State :=
  let k := s.core x.core
  match k.xfers.find? (fun t => decide (t.ch = x.ch) && decide (t.id = x.id)) with
  | none => s
  | some t =>
    let err := if k.afterSlice t.ctx then 0 else err
    let (d, l) := advanceDone 65 x.ch (Map.get 0 k.cdone x.ch) (k.xdone ++ [(x.ch, x.id)])
    let k := { k with
      xfers := k.xfers.filter (· ≠ t),
      score := k.score.filter (fun e => e.key ≠ t.key),
      xdone := l,
      cdone := Map.put 0 k.cdone x.ch d,
      cerr := if err = 0 then k.cerr else k.cerr ||| (1#16 <<< x.ch) }
    let s := s.setCore x.core k
    let w : Who := ⟨x.core, t.ctx⟩
    let c := s.ctx w
    let s := s.setCtx w { c with
      acc := c.acc.filter (fun a => a.kind ≠ .xfer x ∧ a.kind ≠ .landing x ∧ a.kind ≠ .copyOut x),
      gqAddr := c.gqAddr.filter (· ≠ .scatter x) }
    let owner : Who := if c.chmask.getLsbD x.ch then w
      else ⟨x.core, (((s.core x.core).ctxs.find? fun p => p.2.chmask.getLsbD x.ch).map (·.1)).getD t.ctx⟩
    let o := s.ctx owner
    let s := s.setCtx owner { o with
      celast := if err = 0 then o.celast
        else BitVec.ofNat 44 (err * 2 ^ 40 + x.ch * 2 ^ 36 + x.id.toNat) }
    if err = 3 then s.logCtx w 0x0F 3 else if err = 4 then s.logCtx w 0x09 4 else s

/-- Transfers outstanding on a channel (R214). -/
def Core.outstanding (k : Core) (ch : Nat) : Nat := (Map.get 0 k.cnext ch - Map.get 0 k.cdone ch).toNat

/-- Take the channel's next identifier (R214). -/
def State.takeId (s : State) (core ch : Nat) : State × Word :=
  let k := s.core core
  let id := Map.get 0 k.cnext ch
  (s.setCore core { k with cnext := Map.put 0 k.cnext ch (id + 1) }, id)

/-- A counter that saturates in 32 bits. -/
def satInc (n : Nat) : Nat := if n < 2 ^ 32 - 1 then n + 1 else n

/-! ## TLBs and walkers (R302, R303) -/

/-- A wait for a walk of the page. -/
def isWalk (va : Nat) (x : Wait) : Bool := match x with
  | .walk a _ => decide (a / 65536 = va / 65536)
  | _ => false

/-- Install a leaf in the core's TLB and its pod's (R302). -/
def State.installLeaf (s : State) (core : Nat) (e : TlbEntry) : State :=
  let k := s.core core
  let s := s.setCore core { k with tlb := installTlb k.tlb e 512 }
  let p := corePod core
  s.setDev { s.dev with podTlb := Map.put [] s.dev.podTlb p (installTlb (Map.get [] s.dev.podTlb p) e 8192) }

/-- The walks in progress in a pod, at most four. -/
def State.walking (s : State) (pod : Nat) : List Walk :=
  s.pending.filterMap fun i => match i with
    | .walkComplete w => if corePod w.who.core = pod then some w else none
    | _ => none

/-- Two misses that one walk serves (R303). -/
def Walk.same (a b : Walk) : Bool := decide (a.asid = b.asid) && decide (a.va / 65536 = b.va / 65536)

/-- The contexts of a pod that wait for a walk. -/
def State.walkWaiters (s : State) (w : Walk) : List Who :=
  ((List.range 16).map (podMate w.who.core)).flatMap fun m =>
    let k := s.core m
    if k.asid ≠ w.asid then []
    else (k.ctxs.filter fun c => c.2.asked.any (isWalk w.va)).map fun c => ⟨m, c.1⟩

/-- The engines of a pod that wait for a walk. -/
def State.walkEngines (s : State) (w : Walk) : List EngWalk :=
  s.dev.engWalks.filter fun e => e.fail.isNone && decide (e.asid = w.asid) && decide (e.va / 65536 = w.va / 65536) &&
    decide (corePod e.id.core = corePod w.who.core)

/-- The priority of a walk: the highest effective one of the contexts that wait for it, for themselves or with an
engine. -/
def State.walkPrio (s : State) (w : Walk) : Nat :=
  (s.walkWaiters w ++ (s.walkEngines w).map (·.who)).foldl (fun m v => max m (s.effPrio 8 v)) 0

/-- The walk that is served next: of the highest priority, and among those the oldest. -/
def State.nextWalk (s : State) : List Walk → Option Walk
  | [] => none
  | w :: t => some (t.foldl (fun a b => if s.walkPrio a < s.walkPrio b then b else a) w)

/-- Give free walkers of a pod the walks that wait (R303); `n` bounds how many. -/
def State.startWalks (s : State) (pod : Nat) : Nat → State
  | 0 => s
  | n + 1 =>
    let q := Map.get [] s.dev.walkq pod
    if 4 ≤ (s.walking pod).length then s
    else
      match s.nextWalk q with
      | none => s
      | some w =>
        ((s.setDev { s.dev with walkq := Map.put [] s.dev.walkq pod (q.erase w) }).post
          (.walkComplete w)).startWalks pod n

/-- Walks that a context has caused count in XLMISS [63:32] (R307). -/
def countWalk (c : Ctx) : Ctx :=
  { c with xlmiss := BitVec.ofNat 64 (c.xlmiss.toNat % 2 ^ 32 + satInc (c.xlmiss.toNat / 2 ^ 32) * 2 ^ 32) }

/-- L1 TLB misses count in XLMISS [31:0] (R307). -/
def countMiss (c : Ctx) : Ctx :=
  { c with xlmiss := BitVec.ofNat 64 (satInc (c.xlmiss.toNat % 2 ^ 32) + c.xlmiss.toNat / 2 ^ 32 * 2 ^ 32) }

/-- A context misses its L1 TLB: the pod TLB has the leaf, or a walk of the page is joined, or one joins the
pod's queue of 64; a miss that finds it full waits at its core (R303). -/
def State.missTlb (s : State) (w : Who) (va : Nat) (a : Access) : State :=
  let k := s.core w.core
  let pod := corePod w.core
  let walk : Walk := ⟨k.asid, va, a, w⟩
  let q := Map.get [] s.dev.walkq pod
  match (Map.get [] s.dev.podTlb pod).find? (fun e => e.covers k.asid va) with
  | some e => (s.setCtx w (countMiss (s.ctx w))).installLeaf w.core e
  | none =>
    if (s.walking pod ++ q).any walk.same then s.setCtx w (countMiss (s.ctx w))
    else if 64 ≤ q.length then s.unask w (isWalk va)
    else
      ((s.setCtx w (countWalk (countMiss (s.ctx w)))).setDev
        { s.dev with walkq := Map.put [] s.dev.walkq pod (q ++ [walk]) }).startWalks pod 4

/-- A walk of the page is in progress in the pod, or waits in its queue. -/
def State.walkGoing (s : State) (w : Walk) : Bool :=
  (s.walking (corePod w.who.core) ++ Map.get [] s.dev.walkq (corePod w.who.core)).any w.same

/-- An engine misses both TLBs: a walk of the page is joined, or one joins the pod's queue; a miss that finds it full
waits (R225, R303). -/
def State.engMiss (s : State) (g : Agent) (va : Nat) : State :=
  let pod := corePod g.core
  let walk : Walk := ⟨g.asid, va, .read, ⟨g.core, g.ctx⟩⟩
  let q := Map.get [] s.dev.walkq pod
  let known := s.dev.engWalks.any fun e => decide (e.id = g.id) && decide (e.va / 65536 = va / 65536)
  let s := if known then s
    else s.setDev { s.dev with engWalks := s.dev.engWalks ++ [⟨g.id, ⟨g.core, g.ctx⟩, g.asid, va, none⟩] }
  if s.walkGoing walk ∨ 64 ≤ q.length then s
  else (s.setDev { s.dev with walkq := Map.put [] s.dev.walkq pod (q ++ [walk]) }).startWalks pod 4

/-! ## Dropping translations (R261, R308, R363, R376) -/

/-- The entries of an ASID, in every TLB of the device, that `p` selects. -/
def State.tlbEntries (s : State) (asid : Nat) (p : TlbEntry → Bool) : List TlbEntry :=
  ((s.cores.flatMap fun c => c.2.tlb) ++ s.dev.podTlb.flatMap fun t => t.2).filter fun e =>
    decide (e.asid = asid) && p e

/-- Drop the entries of an ASID that `p` selects from every TLB of the device; walks in progress install
nothing. -/
def State.dropTlb (s : State) (asid : Nat) (p : TlbEntry → Bool) : State :=
  let keep (e : TlbEntry) : Bool := !(decide (e.asid = asid) && p e)
  let going := s.pending.filterMap fun i => match i with
    | .walkComplete w => if w.asid = asid ∧ w ∉ s.dev.walks then some w else none
    | _ => none
  let s := { s with cores := s.cores.map fun (c : Nat × Core) => (c.1, { c.2 with tlb := c.2.tlb.filter keep }) }
  s.setDev { s.dev with
    podTlb := (s.dev.podTlb.map fun (t : Nat × List TlbEntry) => (t.1, t.2.filter keep)).filter fun t => !t.2.isEmpty,
    walks := s.dev.walks ++ going }

/-- The bytes [lo, hi) lie partly in a page that one of the entries maps. -/
def throughAny (es : List TlbEntry) (lo hi : Nat) : Bool :=
  es.any fun e => let n := 2 ^ pageBits e.level; overlaps lo hi (e.va / n * n) (e.va / n * n + n)

/-- The outstanding accesses of an ASID, and its packet fills, that were translated through one of the entries (R308). -/
def State.through (s : State) (asid : Nat) (es : List TlbEntry) : List (Who × Nat) × List Fill :=
  let cores := s.cores.filter fun k => decide (k.2.asid = asid)
  (cores.flatMap fun k => k.2.ctxs.flatMap fun c =>
      (((c.2.acc.filter fun a => throughAny es a.lo a.hi).map (·.seq)) ++
        (c.2.mq.filter fun h => throughAny es h.lo h.hi).map (·.seq)).map fun q => (⟨k.1, c.1⟩, q),
    s.pending.filterMap fun i => match i with
      | .packetFill f =>
        if (s.core f.core).asid = asid ∧ throughAny es f.va (f.va + 64) then some f else none
      | _ => none)

/-- Drop translations, and note what their drop waits for (R308). -/
def State.startDrop (s : State) (w : Who) (slot asid : Nat) (acks : List (Nat × Nat)) (p : TlbEntry → Bool) : State :=
  let (accs, fills) := s.through asid (s.tlbEntries asid p)
  let s := s.dropTlb asid p
  s.setDev { s.dev with tlbWaits :=
    (s.dev.tlbWaits.filter fun t => decide (t.who ≠ w) || decide (t.slot ≠ slot)) ++ [⟨w, slot, acks, accs, fills⟩] }

/-- A drop of translations is performed: all answers have come, and no access that went through a dropped entry is
outstanding (R308). -/
def State.dropDone (s : State) (t : TlbWait) : Bool :=
  t.acks.isEmpty &&
    t.accs.all (fun a => let c := s.ctx a.1
      !(c.acc.any fun x => decide (x.seq = a.2)) && !(c.mq.any fun x => decide (x.seq = a.2))) &&
    t.fills.all fun f => decide ((.packetFill f) ∉ s.pending)

/-- The record of a drop, and the state without it. -/
def State.dropWait (s : State) (w : Who) (slot : Nat) : TlbWait :=
  (s.dev.tlbWaits.find? fun t => decide (t.who = w) && decide (t.slot = slot)).getD default

def State.endDrop (s : State) (w : Who) (slot : Nat) : State :=
  s.setDev { s.dev with tlbWaits := s.dev.tlbWaits.filter fun t => decide (t.who ≠ w) || decide (t.slot ≠ slot) }

/-! ## What an engine needs -/

/-- The agent that a context's engine acts as. -/
def State.agent (s : State) (w : Who) (ch : Nat) (id : Word) : Agent :=
  ⟨w.core, w.ctx, (s.core w.core).asid, ⟨w.core, ch, id⟩⟩

/-- Start what an access made at a home needs (R225, R289, R369, R372, R374). -/
def State.meetNeed (s : State) (g : Agent) (va : Nat) (n : Need) : State :=
  let w : Who := ⟨g.core, g.ctx⟩
  match n with
  | .wait => s
  | .walk a => s.engMiss g a
  | .snoop half inv =>
    if s.dev.bisnp.any (fun b => decide (b.half = half) && (b.inv || !inv)) then s
    else s.setDev { s.dev with bisnp := s.dev.bisnp ++ [⟨half, inv, none, s.dev.cycle⟩] }
  | .hostLine line owned =>
    if (line, owned) ∈ s.dev.hostAsk then s
    else s.setDev { s.dev with hostAsk := s.dev.hostAsk ++ [(line, owned)] }
  | .regrow tile =>
    match s.recipe tile with
    | none => s
    | some r =>
      if (w, some g.id) ∈ r.waiters ∨ s.pending.any (fun i => match i with
          | .regrowRequest q => decide (q.tile = tile) && decide (q.engine = some g.id)
          | _ => false) then s
      else
        let depth := match (s.ctx w).slice with
          | some sl => sl.depth + 1
          | none => 1
        s.post (.regrowRequest ⟨tile, r.va, g.asid, depth, w, some g.id⟩)
  | .unpriv page owner =>
    if owner = ownLost ∨ (.unpriv page owner) ∈ s.pending ∨ (.unprivAck page owner) ∈ s.pending then s
    else s.post (.unpriv page owner)
  | .native kind pa len data =>
    if s.dev.natReqs.any (fun r => decide (r.engine = some g.id) && decide (r.pa = pa)) then s
    else (s.sendNative g.asid kind pa va len 0 data w 0 0 none (some g.id)).1

/-- The part belongs to the engine. -/
def XferId.partOf (x y : XferId) : Bool := decide (x.core = y.core) && decide (x.ch % 32 = y.ch % 32) && decide (x.id = y.id)

/-- An engine has done its work: its answers and marks are spent. -/
def State.engDone (s : State) (g : Agent) : State :=
  s.setDev { s.dev with
    natGot := s.dev.natGot.filter (fun x => !x.1.partOf g.id),
    engFail := s.dev.engFail.filter (fun x => !x.1.partOf g.id),
    engPub := s.dev.engPub.filter (fun x => !x.1.partOf g.id),
    engWalks := s.dev.engWalks.filter (fun x => !x.id.partOf g.id),
    snooped := [] }

/-- An engine has moved a piece: a regrow that has failed for it stays failed for the rest of its image (R291). -/
def State.engPiece (s : State) (g : Agent) : State :=
  (s.engDone g).setDev { (s.engDone g).dev with engFail := s.dev.engFail }

/-! ## Segments (R356 to R358) -/

/-- The open segment still holds egress. -/
def Seg.holds (g : Seg) : Bool := g.opened && g.rw && !g.lost

/-- How a transfer on a channel counts among its context's accesses: a landing is performed only at sys
(R240). -/
def Core.accKind (k : Core) (x : XferId) : AccKind :=
  match k.xfers.find? (fun t => decide (t.ch = x.ch) && decide (t.id = x.id)) with
  | some t => (match t.kind with
    | .tstx .. => .landing x
    | _ => .xfer x)
  | none => .xfer x

/-- Perform one held entry as if it issued now, in its class order (R219, R357). -/
def State.releaseOne (s : State) (w : Who) (h : Held) : State :=
  let (s, seq) := s.takeSeq w
  let go (s : State) (x : XferId) (i : Instr) : State :=
    let k := s.core x.core
    let s := s.setCore x.core { k with xfers := k.xfers.map fun t =>
      if t.ch = x.ch ∧ t.id = x.id then { t with held := false, seq := seq } else t }
    if (s.ctx w).mustWait false seq seq h.cls h.lo h.hi then s.holdOp w { h with seq := seq }
    else (s.addAcc w ⟨seq, h.cls, h.lo, h.hi, k.accKind x⟩).post i
  match h.op with
  | .write _ _ => s.holdOp w { h with seq := seq }
  | .aperture x => go s x (.apertureStore x)
  | .transfer x => go s x (.transferComplete x)
  | .landing x => go s x (.transferComplete x)
  | .own _ => s.holdOp w { h with seq := seq }

/-- Release the held entries in issue order (R357, R360). -/
def State.releaseHeld (s : State) (w : Who) : State :=
  let c := s.ctx w
  c.heldE.foldl (fun s h => s.releaseOne w h) (s.setCtx w { c with heldE := [] })

/-- An op that ends rewindability is about to proceed (R357). -/
def State.endRewindOf (s : State) (w : Who) : State :=
  let c := s.ctx w
  if c.seg.holds then
    let s := s.releaseHeld w
    s.setCtx w { s.ctx w with seg := { c.seg with lost := true } }
  else s

def State.endRewind (s : State) : State := s.endRewindOf s.who

/-- An op that ends rewindability: the held entries are released, and then the op goes on (R357). -/
def State.unheld (s : State) (f : State → OpRes) : OpRes :=
  if s.me.seg.holds then .block [.cond s.cur.slot condRelease] else f s

/-- Whether an egress op of the running context is held; a 65th entry ends rewindability first (R357). -/
def State.segHold (s : State) : State × Bool :=
  if s.me.seg.holds then
    if s.me.heldE.length < 64 then (s, true) else (s.endRewind, false)
  else (s, false)

/-- Rewind the context to its checkpoint; its registers are written, so that none of them is poisoned any more
(R354, R358). -/
def State.rewind (s : State) (w : Who) (r : Ckpt) : State :=
  let c := s.ctx w
  let held := c.heldE
  let s := s.setCtx w { c with
    regs := r.regs, trapcause := r.trapcause, trapinfo := r.trapinfo, trappc := r.trappc,
    heldE := [], waits := [], asked := [], replies := [], replay := 0, early := 0, bound := none,
    branch := none, after := none,
    seg := { c.seg with rewinds := c.seg.rewinds + 1, rewinding := true } }
  let k := s.core w.core
  let s := s.setCore w.core { k with poison := k.poison.filter fun p =>
    !((decide (p.1 = 1) || decide (p.1 = 2)) && decide (p.2 / 1024 = w.ctx)) }
  let s := held.foldl (fun s h => match h.op with
    | .aperture x => s.completeXfer x 0
    | .transfer x => s.completeXfer x 0
    | .landing x => s.completeXfer x 0
    | .write _ _ => s
    | .own _ => s) s
  s.logCtx w 0x0A c.seg.rewinds

/-- The resume that a fault of fetch or decode leaves: the bundle is fetched afresh (R336); a replay is left as it
stands (log entry 28). -/
def State.freshResume (s : State) (pc : Addr) : Resume :=
  let c := s.me
  if c.replay ≠ 0 then ⟨c.replay.toNat, c.resumeAt, c.blockStart, c.capturedAll⟩
  else ⟨0, pc.toNat, c.regs.lfsr, []⟩

/-- SEGERR of the running bundle: none of its slots commits (R358), but for an op in M0 that has been performed
already (log entry 25). -/
def State.segError (s : State) (src pa : Nat) : State :=
  let c := s.me
  let run := s.cur.ops.filter fun o => s.runs o.1 && !c.early.getLsbD o.1
  let res : Resume := if s.cur.ops.isEmpty then s.freshResume c.regs.pc
    else ⟨(run.map fun o => 2 ^ o.1).sum, c.resumeAt, c.blockStart, s.captureAll s.cur.ops⟩
  (s.setRegs c.boundRegs).bundleTrap cSEGERR
    (BitVec.ofNat 64 (src * 2 ^ 52 + (if src = 1 ∨ src = 2 ∨ src = 6 then 0 else pa % 2 ^ 52))) c.regs.pc res

/-- The classes whose failed stores the running bundle reports: those of its FENCE's before-mask, else all (R408). -/
def State.reportedClasses (s : State) : Half :=
  match s.cur.ops.head? with
  | some (0, _, .fence _ a _) => (s.srcA a).extractLsb' 0 16
  | _ => 0xFFFF

/-- A bundle of the running context consumes poison (R358). -/
def State.consume (s : State) (src pa : Nat) : State :=
  let s := s.logCtx s.who 0x09 src
  let s := if src = 5 ∧ s.me.storeFail.any (fun f => decide (f.2.2.1 = cSEGERR) && decide (f.2.2.2.toNat % 2 ^ 52 = pa)) then
      s.setMe { s.me with storeFail := s.me.storeFail.filter fun f => !s.reportedClasses.getLsbD f.2.1 }
    else s
  let c := s.me
  match c.ckpt with
  | some r =>
    if c.seg.holds && decide (c.seg.rewinds < 2) && !c.h && decide (s.cur.ctx ≠ 4) then
      s.rewind s.who r
    else s.segError src pa
  | none => s.segError src pa

/-! ## Barriers (R319, R326) -/

/-- A strand has arrived at its latest BAR of level `n`, or has ended. -/
def Launch.arrivedAt (l : Launch) (n count k : Nat) : Bool :=
  decide (k ∈ l.ended) || decide (count ≤ Map.get 0 l.arrived (k * 8 + n))

/-- The timetabled group of a strand at a level trips (R326). -/
def State.tripGroup (s : State) (launch n k : Nat) : State :=
  let l := s.launch launch
  let g := k / groupSize (levelsOf l.rc) n
  s.setLaunch launch { l with tt := l.tt.map fun t =>
    if t.level = n ∧ t.index = g then { t with tripped := true } else t }

/-- Some live strand waits at its latest BAR of level `n`, and every member of its group has arrived or ended. -/
def Launch.barTrips (l : Launch) (n k : Nat) : Bool :=
  let ms := groupMembers l n k
  ms.any fun m =>
    let a := Map.get 0 l.arrived (m * 8 + n)
    decide (m ∉ l.ended) && decide (Map.get 0 l.passed (m * 8 + n) < a) && ms.all (l.arrivedAt n a)

/-- A strand has ended: a timetabled group of it counts as tripped when every member has ended, or when the end
trips the BAR at which the others wait (R319, R326). -/
def State.tripEnded (s : State) (launch k : Nat) : State :=
  let l := s.launch launch
  l.tt.foldl (fun s t =>
    if t.index = k / groupSize (levelsOf l.rc) t.level ∧
        ((groupMembers l t.level k).all (fun m => decide (m ∈ l.ended)) ∨ l.barTrips t.level k) then
      s.tripGroup launch t.level k else s) s

/-- Arrive at a BAR (R319). -/
def State.arrive (s : State) (w : Who) (n : Nat) : State :=
  match (s.ctx w).strand with
  | none => s
  | some st =>
    let l := s.launch st.launch
    let key := st.num * 8 + n
    let count := Map.get 0 l.arrived key + 1
    let l := { l with arrived := Map.put 0 l.arrived key count }
    let s := s.setLaunch st.launch l
    if (groupMembers l n st.num).all (l.arrivedAt n count) then s.tripGroup st.launch n st.num else s

/-- A timetabled group of the strand has not been released in this frame, or has tripped (R326). -/
def State.gated (s : State) (c : Ctx) : Bool :=
  match c.strand with
  | none => false
  | some st =>
    let l := s.launch st.launch
    l.tt.any fun t => decide (t.index = st.num / groupSize (levelsOf l.rc) t.level) && (!t.released || t.tripped)

/-! ## The requests of a blocked bundle (R97) -/

/-- A wait whose request has an effect of its own; it is sent when nothing else holds the bundle (log entry
25). -/
def Wait.acts : Wait → Bool
  | .acq _ _ => true
  | .here _ _ => true
  | .atomic _ => true
  | .atomsc _ => true
  | .native _ kind _ _ _ _ => decide (kind ≠ 1)
  | .lzres .. => true
  | .tlbinv .. => true
  | .bar _ => true
  | _ => false

/-- The slot whose op takes its value from the answer to a wait: the access is performed when the answer is
made (R270). -/
def Wait.binds : Wait → Option Nat
  | .lda n _ _ => some n
  | .acq n _ => some n
  | .here _ m => some m.slot
  | .atomic m => some m.slot
  | .atomsc m => some m.slot
  | .native n _ _ _ _ _ => some n
  | .pin n _ _ => some n
  | _ => none

/-- The context stands at a bundle boundary at which the request can be granted (R345); a bundle whose request
has an effect of its own is no boundary while it blocks (log entry 38). -/
def State.canSave (s : State) (w : Who) : Bool :=
  let c := s.ctx w
  decide (c.life = .running) && decide ((s.core w.core).plane.holder ≠ some w.ctx) && !c.h && !c.sv && !c.hold &&
    decide (c.regs.snapbase ≠ 0) && decide (c.replay = 0) && decide (c.early = 0) && c.branch.isNone && !c.asked.any Wait.acts

def Wait.isAtomsc : Wait → Bool
  | .atomsc _ => true
  | _ => false

/-- A wait is kept back: an earlier control or memory slot of the bundle blocks, and the value would be read
before that slot's op is performed (R270, R279). Two ATOMSCs of a bundle are claimed together (R277). -/
def keptBack (waiting : List Nat) (ws : List Wait) (x : Wait) : Bool :=
  match x.binds with
  | none => false
  | some n => waiting.any fun m => decide (m < n) && decide (m = 0 ∨ m = 3) &&
      !(x.isAtomsc && ws.any fun y => y.isAtomsc && decide (y.binds = some m))

/-- The context of a pod-mate whose registration of the word is in the pod's in-flight table (R272). -/
def State.podOwner (s : State) (core k : Nat) : Option Nat :=
  ((List.range 16).map (podMate core)).find? fun m =>
    decide (m ≠ core) && (s.core m).regOut.any fun r => r.1 = k

/-- Ask for a word to be read for a context. -/
def State.askWord (s : State) (w : Who) (k va : Nat) (why : ReadWhy) : State :=
  match s.podOwner w.core k with
  | some o => s.post (.fwd ⟨o, ⟨k, w, why, va, none, []⟩, true⟩)
  | none =>
    if why = .fill then s.askFill w k va else s.post (.read ⟨k, w, why, va, s.privateOf w.core k, []⟩)

/-- Answer a wait that a context has asked for. -/
def State.answer (s : State) (w : Who) (x : Wait) (bs : List Byte) (status : Nat) : State :=
  let c := s.ctx w
  if x ∉ c.asked then s
  else s.setCtx w { c with replies := c.replies.filter (fun r => r.wait ≠ x) ++ [⟨x, bs, status⟩] }

/-- Zero-filling begins for the TORN slots of a zone (R246). -/
def State.startClean (s : State) (core zone : Nat) : State :=
  let z := (s.core core).zone zone
  (List.range z.count).foldl (fun s n =>
    let l := z.slot n
    if l.state = 4#3 ∧ ¬ l.cleaning ∧ (.slotZeroFillComplete core zone n) ∉ s.pending then
      s.post (.slotZeroFillComplete core zone n)
    else s) s

/-! ## Job cards that poppers wait for (R321) -/

/-- The context waits in a JCPOP. -/
def Ctx.popping (c : Ctx) : Bool := c.waits.any fun x => match x with
  | .cond _ code => decide (code = condCard)
  | _ => false

/-- Some context of the core waits in a JCPOP. -/
def Core.popping (k : Core) : Nat := (k.ctxs.filter fun p => p.2.popping).length

/-- The contexts that run the bound strands of a launch that have not ended. -/
def Launch.live (l : Launch) : List Who :=
  (l.bound.filter fun k => k ∉ l.ended).filterMap (strandAt l)

/-- A strand of the launch is saved: it is live and waits in no JCPOP (R321, R346). -/
def State.savedOf (s : State) (launch : Nat) : Bool :=
  s.dev.saved.any fun v => match v.2 with
    | some v => decide (v.strand.launch = launch)
    | none => false

/-- Every live strand waits in a JCPOP and no card is queued or moving: each JCPOP delivers 0. -/
def State.drainCards (s : State) (launch : Nat) : State :=
  let live := (s.launch launch).live
  if s.dev.cards.any (fun d => decide (d.launch = launch)) || s.savedOf launch ||
      !live.all (fun w => (s.ctx w).popping) then s
  else live.foldl (fun s w => (s.ctx w).waits.foldl (fun s x =>
    match x with
    | .cond _ code => if code = condCard then s.answer w x [] 0 else s
    | _ => s) s) s

/-- A core of the die that waits for more cards of a launch than it has been given. -/
def State.cardTaker (s : State) (die launch : Nat) : Option Nat :=
  (s.cores.find? fun p =>
    decide (coreDie p.1 = die) && decide (p.2.binding.launch = launch) &&
      decide ((s.dev.cards.filter fun d => !d.die && decide (d.core = p.1)).length < p.2.popping)).map (·.1)

/-- Hand the cards of a die's queue to the cores that wait for them, oldest first. -/
def claimCards (die : Nat) : List Card → State → State
  | [], s => s
  | d :: t, s =>
    if !d.die || decide (d.core ≠ die) then claimCards die t s
    else
      match s.cardTaker die d.launch with
      | none => claimCards die t s
      | some core =>
        let s := s.setDev { s.dev with cards := s.dev.cards.map fun x =>
          if x.id = d.id then { x with die := false, core := core } else x }
        claimCards die t (s.post (.jobCardReady d.id))

/-- A JCPOP of a core waits: a die's card is claimed, or the cards of other cores may come to be stolen. -/
def State.cardWait (s : State) (w : Who) : State :=
  let k := s.core w.core
  let b := k.binding
  let s := s.drainCards b.launch
  if b.dieQueue then claimCards (coreDie w.core) s.dev.cards s
  else s.dev.cards.foldl (fun s d =>
    if d.launch = b.launch ∧ d.core ≠ w.core ∧ coreDie d.core = coreDie w.core ∧
        (.jobCardSteal w.core d.id) ∉ s.pending then s.post (.jobCardSteal w.core d.id) else s) s

/-- Ask every device that can be reached over native flows to drop an ASID's translations (R308; log entry 84): the
answers to wait for. -/
def State.tlbinvAll (s : State) (asid : Nat) : State × List (Nat × Nat) :=
  let nodes := (List.range 256).filter fun n =>
    decide (n ≠ s.dev.node.toNat) && s.reachable (Map.get {} s.dev.routes n) &&
      decide ((Map.get {} s.dev.routes n).kind = 0)
  nodes.foldl (fun (p : State × List (Nat × Nat)) n =>
    let (s, tag) := p.1.newTag
    (s.setDev { s.dev with sent := s.dev.sent ++ [⟨0x0C, s.dev.node, BitVec.ofNat 8 n,
      BitVec.ofNat 16 asid, BitVec.ofNat 16 tag, 0, BitVec.ofNat 52 asid, 0, []⟩] }, p.2 ++ [(n, tag)])) (s, [])

/-- Ask the sprout engine for a tile on behalf of a context (R289). -/
def State.askRegrow (s : State) (w : Who) (tile va : Nat) : State :=
  let depth := match (s.ctx w).slice with
    | some sl => sl.depth + 1
    | none => 1
  s.post (.regrowRequest ⟨tile, va, (s.core w.core).asid, depth, w, none⟩)

/-- Send the request of one wait (R61, R237, R255, R266, R277, R289, R303, R308, R319, R352). -/
def State.startWait (s : State) (w : Who) (x : Wait) : State :=
  let k := s.core w.core
  match x with
  | .fill va =>
    match k.tlbFind va with
    | some e =>
      let f : Fill := ⟨w.core, va / 64 * 64, e.paOf (va / 64 * 64)⟩
      let s := s.usePage w.core k.asid va
      if (.packetFill f) ∈ s.pending then s else s.post (.packetFill f)
    | none => s
  | .walk va a => s.missTlb w va a
  | .word a va => if (k.word a).st = .pending then s else s.askWord w a va .fill
  | .lda slot a va => s.askWord w a va (.lda slot)
  | .acq _ bs => (s.acquire w).answer w x bs 0
  | .here pool m =>
    let (s, bs) := s.atomHere w pool m
    s.answer w x bs 0
  | .atomic m => s.post (.atomicAtHome m)
  | .atomsc _ => if (.atomscSend w) ∈ s.pending then s else s.post (.atomscSend w)
  | .native _ kind pa len aux data =>
    (s.sendNative k.asid kind pa pa len aux data w (s.ctx w).seq 15 (some x) none).1
  | .lzres slot node core zone count =>
    s.post (.lzresMsg ⟨node, w, slot, k.asid, core, zone, count, 65536⟩)
  | .regrow tile va => s.askRegrow w tile va
  | .pin _ tile va => s.askRegrow w tile va
  | .fit q => s.post (.snapfitQuery q)
  | .tlbinv slot kind va =>
    let (s, acks) := if kind = 2#3 then s.tlbinvAll k.asid else (s, [])
    s.startDrop w slot k.asid acks fun e =>
      decide (kind ≠ 0#3) || (!inWindow va && !inAperture va && e.covers k.asid va)
  | .bar n =>
    match (s.ctx w).strand with
    | none => s
    | some st =>
      let l := s.launch st.launch
      let key := st.num * 8 + n
      if Map.get 0 l.passed key < Map.get 0 l.arrived key then s else s.arrive w n
  | .need slot n => s.meetNeed (s.agent w 19 (BitVec.ofNat 32 (w.ctx * 16 + slot))) 0 n
  | .sysrel _ => s.askFlush w
  | .cond _ code =>
    if code = condRelease then s.endRewindOf w
    else if code = condOrder ∨ code = condMask then (if (s.ctx w).wantsFlush then s.askFlush w else s)
    else if code = condCard then s.cardWait w
    else if condClean ≤ code then s.startClean w.core (code - condClean)
    else s

/-- The context's drop of translations is performed: its TLBINV has its answer (R308). -/
def State.settleDrop (s : State) (w : Who) : State :=
  match s.dev.tlbWaits.find? fun t => decide (t.who = w) && s.dropDone t with
  | none => s
  | some t =>
    let s := s.setDev { s.dev with tlbWaits := s.dev.tlbWaits.filter (· ≠ t) }
    (s.ctx w).asked.foldl (fun s x => match x with
      | .tlbinv slot _ _ => if slot = t.slot then s.answer w x [] 0 else s
      | _ => s) s

/-- A walk that was asked for has not answered, and none of its page is going: what it found has been dropped before its
context looked, and it is asked for again (R304). -/
def State.idleWalk (s : State) (w : Who) (x : Wait) : Bool :=
  let idle (va : Nat) : Bool := !s.walkGoing ⟨(s.core w.core).asid, va, .read, w⟩ && ((s.ctx w).reply x).isNone
  match x with
  | .walk va _ => idle va
  | .need _ (.walk va) => idle va
  | _ => false

/-- A bundle blocks: what it waits for is recorded, and what has not been asked for is asked for; requests
with effects of their own only once nothing else holds the bundle. `defer` keeps back the requests of M1 that
M0's op goes before. -/
def State.blockBundle (s : State) (defer : Bool) : State :=
  let w := s.who
  let ws := s.cur.waits.eraseDups
  let c := s.ctx w
  let again := (c.replies.filter fun r => r.status = stRetry).map (·.wait)
  let open_ := ws.filter fun x => !keptBack s.cur.waiting ws x && !(defer && decide (x.binds = some 4))
  let pure := open_.filter fun x => !x.acts
  let now := if pure.isEmpty then open_ else pure
  let new := now.filter fun x => x ∉ c.asked ∨ x ∈ again ∨ s.idleWalk w x
  let kept := c.asked.filter fun x => x ∈ ws ∨ x.acts
  let s := s.setCtx w { c with
    waits := ws,
    asked := (kept ++ new).eraseDups,
    replies := c.replies.filter fun r => r.status ≠ stRetry,
    seg := { c.seg with waiting := ws.any fun x => match x with
      | .cond _ code => decide (code = condRewind)
      | _ => false } }
  (new.foldl (fun s x => s.startWait w x) s).settleDrop w

/-! ## The end of a strand (R95, R122) -/

/-- Some context of the core runs a strand of the launch. -/
def Core.boundTo (k : Core) (launch : Nat) : Bool :=
  k.ctxs.any fun c => match c.2.strand with
    | some st => decide (st.launch = launch)
    | none => false

/-- The core's last strand has ended: its wheel positions return, and the packet cache and the dictionary
are given up (R36, R276). -/
def State.freeCore (s : State) (core : Nat) : State :=
  let k := s.core core
  if k.ctxs.any (fun c => c.2.strand.isSome) then s
  else (s.setCore core { k with wheel := [], claims := [], pkts := [] }).reclaimZones core

/-- A strand ends: what its segment holds is released, its context is free, its accesses go on, and the launch
may complete (R122, R314, R357). -/
def State.endStrandOf (s : State) (w : Who) : State :=
  let s := s.releaseHeld w
  let c := s.ctx w
  let s := s.setCtx w { c with
    life := .idle, strand := none, h := false, mask := false, sv := false, hold := false, snap := [],
    regs := { c.regs with queue := [], vqueue := [], grp := {}, loopOrd := [] },
    waits := [], asked := [], replies := [], replay := 0, early := 0, bound := none, branch := none, after := none,
    seg := {}, ckpt := none, gangAbort := none, dirty := [] }
  match c.strand with
  | none => s
  | some st =>
    let l := s.launch st.launch
    let l := { l with
      ended := l.ended ++ [st.num], dirty := l.dirty ++ c.dirty.map fun d => (w.core, d.word) }
    let s := (s.setLaunch st.launch l).tripEnded st.launch st.num
    let s := (s.freeCore w.core).drainCards st.launch
    if l.ended.length = l.strands ∧ (.launchComplete st.launch) ∉ s.pending then
      s.post (.launchComplete st.launch) else s

/-- Codes of the control ops that act when their bundle has committed. -/
def finEnd : Nat := 1
def finYield : Nat := 2
def finHoldret : Nat := 3
def finRdone : Nat := 4
def finTret : Nat := 5
def finRdv : Nat := 6
def finRdvRw : Nat := 7
def finTretBad : Nat := 8
def finSnaprel : Nat := 9
def finEscalate : Nat := 10

/-! ## Returning from a trap (R341, R342, R349) -/

/-- The image in the buffer breaks R341, given the slots that the bundle at TRAPPC has. -/
def Ctx.imageBad (c : Ctx) (present : Nat) : Bool :=
  let w0 := imgWord c.snap 0
  let st := imgWord c.snap 5
  let m := imgWord c.snap 8 % 2 ^ 32
  decide (m &&& present ≠ m) || decide (2 ≤ w0 / 2 ^ 17 % 4) || decide (w0 / 2 ^ 32 ≠ 0) ||
    decide (16 ≤ st) || decide (st / 2 % 2 = 1)

/-- The recorded fault was of the whole bundle, so that the bundle's context-cycle was not consumed (R65, R336,
log entry 28). -/
def wholeBundle (cause : Byte) (info : Dword) (pc : Addr) : Bool :=
  decide (cause = cILLDEP) || (decide (cause = cSTRUCT) && decide (bitsOf info 39 36 = 5)) ||
    (decide (cause = cILLENC) && decide (bitsOf info 63 52 = 0xFFF)) ||
    ((decide (cause = cFETCHF) || decide (cause = cILLPKT)) && decide (bitsOf info 51 6 = pc.toNat / 64))

/-- Restore the buffer and go on (R342). Once the slots that a faulting bundle left are skipped, its committed END
acts (log entry 29), and its ops are of the open group (R45). A mask of zero after a fault of fetch or decode, whose resume
address is TRAPPC, fetches that bundle afresh and passes no context-cycle (R336, log entry 28). -/
def State.returnFromTrap (s : State) (w : Who) : State :=
  let c := s.ctx w
  let st := imgWord c.snap 5
  let mask := imgWord c.snap 8 % 2 ^ 11
  let resume := BitVec.ofNat 52 (imgWord c.snap 4)
  let pc := BitVec.ofNat 52 (imgWord c.snap 3)
  let cause := imgWord c.snap 1 % 256
  let r := regsOfImage c.snap c.regs
  let h := decide (st % 2 = 1)
  let c' : Ctx := { c with
    h := h, mask := decide (st / 2 % 2 = 1), sv := false, hold := decide (st / 8 % 2 = 1),
    trapcause := BitVec.ofNat 8 cause, trapinfo := Map.get 0 c.snap 2, trappc := pc,
    waits := [], asked := [], replies := [], early := 0, bound := none, branch := none,
    replay := BitVec.ofNat 11 mask }
  let k := s.core w.core
  let s := s.setCore w.core { k with plane :=
    { k.plane with halted := k.plane.halted && (h || decide (k.plane.holder ≠ some w.ctx)) } }
  let pre := imgWord c.snap 0 / 2 ^ 17 % 4 = 1
  if mask ≠ 0 then s.setCtx w { c' with regs := { r with pc := pc } }
  else if pre || wholeBundle (BitVec.ofNat 8 cause) (BitVec.ofNat 64 (imgWord c.snap 2)) pc ||
      (decide (resume = pc) && decide (cause ≠ cSWTRAP.toNat)) then
    s.setCtx w { c' with regs := { r with pc := resume } }
  else
    let here (t : Trapped) : Bool := t.is pc r.ccyc
    let g := ((c.trapped.find? here).map (·.grp)).getD r.grp
    let s := s.setCtx w { c' with
      regs := { tickRegs c'.h { r with grp := g } with pc := resume }, after := none,
      trapped := c.trapped.filter fun t => !here t }
    if c.after = some (pc, finEnd) then s.endStrandOf w else s

/-- The return that fails with TRETF 2: no snapshot is taken, and the handler starts again (R349). -/
def State.tretFails (s : State) (w : Who) (info : Dword) : State :=
  let c := s.ctx w
  let b := (s.core w.core).binding
  s.setCtx w { c with
    trapcause := cTRETF, trapinfo := info, waits := [], asked := [], replies := [],
    regs := { c.regs with pc := b.trapPc } }

end Sys2Proof.Machine
end

