-- ==== Sys2Proof/Machine/Slot.lean ====
section
/-! DEFINITION. Running one slot op and closing its bundle: guards, what a body answers, commit, traps,
blocks, and the control ops that end a context's run. -/

namespace Sys2Proof.Machine

/-- What a slot op or a step answers. -/
abbrev Outcome := Host.Outcome State Fault Refusal

/-! ## Draws (R80 to R82) -/

/-- Draws that an op takes under SR: one per element, also where the result is exact (R80, R131). -/
def State.drawsOf (s : State) (i : Instr) : Nat :=
  if s.rmodeNow ≠ modeSR then 0
  else
    let sh := s.shape
    let each := if isF (shapeFmt sh) then shapeN sh else 0
    match i with
    | .vadd .. => each
    | .vsub .. => each
    | .vmul .. => each
    | .vfma .. => each
    | .vfms .. => each
    | .viota .. => each
    | .vmin .. => each
    | .vmax .. => each
    | .vabs .. => each
    | .vneg .. => each
    | .vscl .. => each
    | .vcvt _ _ _ _ f => min (shapeN sh) (8192 / max 1 (fmtOf f).width)
    | .pret _ t _ _ _ =>
      let d := (Map.get {} s.regs.tile t.toNat).desc
      descD2 d * descD1 d * descD0 d
    | _ => 0

/-! ## Ports (R127) -/

/-- The op whose registers take part in the checks of the bundle: of an ill-encoded word, the op of its op7 (R65; log
entry 92). -/
def namedOp (slot : Nat) : Instr → Instr
  | .reservedEncoding w => (namedSlot slot w).getD (.reservedEncoding w)
  | i => i

/-- The main-file reads of an X op, with a guard that is true (R127). -/
def mainReads (slot : Nat) (i : Instr) : List Nat :=
  (operands (namedOp slot i)).1.filter fun k => decide (0x200 ≤ k) && decide (k < 0x240)

/-- The mask bit of the X op that first needs a seventh main-file read. -/
def portLimit (s : State) : List (Nat × Word × Instr) → List Nat → Option (Nat × Word)
  | [], _ => none
  | (n, w, i) :: t, seen =>
    let g := guardOfInstr i
    if 5 ≤ n ∧ n ≤ 7 ∧ (readP s.regs g.p != g.neg) then
      let seen := (seen ++ mainReads n i).eraseDups
      if 6 < seen.length then some (n, w) else portLimit s t seen
    else portLimit s t seen

/-! ## The group rule (R45 to R47) -/

/-- The registers an op reads for the check: its guard always, its operands when the guard is true. -/
def checkReads (s : State) (slot : Nat) (i : Instr) : List Nat :=
  let g := guardOfInstr i
  regP g.p ++ (if readP s.regs g.p != g.neg then (operands (namedOp slot i)).1 else [])

/-- The registers it writes for the check. -/
def checkWrites (s : State) (slot : Nat) (i : Instr) : List Nat :=
  let g := guardOfInstr i
  if readP s.regs g.p != g.neg then (operands (namedOp slot i)).2 else []

/-- The first op that breaks the group rule: its mask bit, word, register code and direction (R46, R47).
Reads are judged against the group's earlier bundles, writes also against earlier ops of the bundle. Of one op the guard
comes first, then the reads in the order of `operands`, then the writes (log entry 92). -/
def groupFault (s : State) : List (Nat × Word × Instr) → Group → Option (Nat × Word × Nat × Bool)
  | [], _ => none
  | (n, w, i) :: t, acc =>
    match (checkReads s n i).find? s.regs.grp.has with
    | some r => some (n, w, r, false)
    | none =>
      match (checkWrites s n i).find? acc.has with
      | some r => some (n, w, r, true)
      | none => groupFault s t ((checkWrites s n i).foldl Group.add acc)

/-- Registers that the bundle's ops write. -/
def State.bundleWrites (s : State) : List Nat := s.cur.ops.flatMap fun o => checkWrites s o.1 o.2.2

/-! ## Closing a bundle -/

/-- YIELD: the other ready contexts come first (R123); `ready` is filled by the step. -/
def State.doYield (s : State) : State :=
  let k := s.myCore
  let others := (k.ctxs.filter fun c => decide (c.1 ≠ s.cur.ctx) && decide (c.2.life = .running)).map (·.1)
  s.setMyCore { k with yielded := Map.put [] k.yielded s.cur.ctx others, port := none }

/-- HOLDRET: the held context is ready again and ctxS stops (R351). -/
def State.doHoldret (s : State) : State :=
  match s.myCore.svc with
  | none => s
  | some x =>
    let v : Who := ⟨s.cur.core, x⟩
    let s := s.endService s.cur.core
    s.setCtx v { s.ctx v with hold := false, xlhold := 0, waits := [], asked := [] }

/-- TRAP in ctxS: the held context takes the translation fault of its hold (R344). The whole bundle is to be
replayed, but for an op in M0 that has been performed already; a hold of a fetch for a replay leaves the replay
as it stands (log entry 28). -/
def State.escalate (s : State) : State :=
  match s.myCore.svc with
  | none => s
  | some x =>
    let v : Who := ⟨s.cur.core, x⟩
    let c := s.ctx v
    let s := (s.endService s.cur.core).logCtx v 0x03 0
    let fetch := bitsOf c.xlhold 59 58 = 0
    let cause := if fetch then cFETCHF else cDATAF
    let info := addrInfo 1 (bitsOf c.xlhold 51 0)
    let s := s.setCtx v { c with hold := false, xlhold := 0, waits := [], asked := [] }
    let pc := c.regs.pc
    let at_ := if fetch then (c.branch.map fun b => BitVec.ofNat 52 b.target).getD pc else pc
    let r := c.boundRegs
    let res : Resume :=
      if !fetch then ⟨(c.heldMask &&& ~~~c.early).toNat, c.resumeAt, c.blockStart, c.heldCapt⟩
      else if c.replay ≠ 0 then ⟨c.replay.toNat, c.resumeAt, c.blockStart, c.capturedAll⟩
      else ⟨0, pc.toNat, c.regs.lfsr, []⟩
    s.takeTrap v cause info at_ r r res

/-- The accesses of a context that waited for a published tile go on, and an RPIN among them pins it (R292, R294). -/
def State.publishTo (s : State) (v : Who) (tile va : Nat) : State :=
  let pins := (s.ctx v).asked.filter fun x => match x with
    | .pin _ t _ => decide (t = tile)
    | _ => false
  let s := pins.foldl (fun s x => match s.recipe tile with
    | some r =>
      if r.pins = 65535 then s.answer v x (leBytes 8 (regrowInfo 6 0 va 0).toNat) cRFAIL.toNat
      else (s.setRecipe { r with pins := r.pins + 1 }).answer v x [] 0
    | none => s) s
  s.answer v (.regrow tile va) [] 0

/-- RDONE publishes the slice's tile (R292). -/
def State.publish (s : State) (w : Who) : State :=
  match (s.ctx w).slice with
  | none => s
  | some sl =>
    let c := s.ctx w
    let words := (s.core w.core).l1.filterMap fun p =>
      if p.1 / 16384 * 16384 = sl.tile ∧ p.2.st = .O then some p.1 else none
    let s := words.foldl (fun s k => s.writeBack w.core k true) s
    let s := s.setCtx w { s.ctx w with
      life := .idle, slice := none, regs := { c.regs with queue := [], vqueue := [], grp := {}, loopOrd := [] },
      h := false, mask := false, sv := false, hold := false, seg := {}, ckpt := none, dirty := [],
      early := 0, bound := none, branch := none, after := none, replay := 0, waits := [], asked := [], replies := [] }
    let s := s.setCore w.core { s.core w.core with lastSlice := s.dev.cycle }
    match s.recipe sl.tile with
    | none => s
    | some r =>
      let s := s.unpinSources r
      let s := s.setRecipe { r with
        st := .sealed, depth := 0, waiters := [], at_ := none, pub := s.mem.filter fun c => inTile r.tile c.1 }
      let a := Map.get {} s.dev.asids r.asid
      let s := s.setDev { s.dev with
        regrows := s.dev.regrows.filter (fun q => q.tile ≠ sl.tile),
        asids := Map.put {} s.dev.asids r.asid { a with rgcount := a.rgcount + 1 } }
      r.waiters.foldl (fun s (v : Who × Option XferId) =>
        match v.2 with
        | some x => s.setDev { s.dev with engPub := s.dev.engPub ++ [(x, sl.tile)] }
        | none => (s.acquire v.1).publishTo v.1 sl.tile r.va) s

/-- RDV: a new checkpoint, with the registers that the next bundle reads, and a new segment (R360). -/
def State.openSegment (s : State) (rw : Bool) (r : Regs) : State :=
  s.setMe { s.me with
    ckpt := some (s.me.checkpoint r),
    seg := { opened := true, rw := rw && decide (s.myCore.plane.holder ≠ some s.cur.ctx),
             lost := false, waiting := false, rewinds := 0, rewinding := false } }

/-- A control op that acts without ending or moving the context's run: YIELD and RDV (R123, R360). What another slot of
RDV's bundle holds is of the segment that RDV closes, and is released with it. -/
def State.finishStays (s : State) (r : Regs) : State :=
  let f := s.cur.fin
  if f = finYield then (if s.cur.ctx = 4 then s else s.doYield)
  else if f = finRdv ∨ f = finRdvRw then (s.releaseHeld s.who).openSegment (decide (f = finRdvRw)) r
  else s

/-- What a control op does once its bundle has committed. -/
def State.finish (s : State) : State :=
  let f := s.cur.fin
  if f = finEnd then s.endStrandOf s.who
  else if f = finHoldret then s.doHoldret
  else if f = finRdone then s.publish s.who
  else if f = finTret then s.returnFromTrap s.who
  else if f = finTretBad then s.tretFails s.who
    (BitVec.ofNat 64 ((s.cur.ops.headD (0, 0x24000000, .emptyBundle)).2.1.toNat + 2 * 2 ^ 36))
  else if f = finEscalate then s.escalate
  else if f = finSnaprel then s.setMe { s.me with sv := false, mask := false, snap := [] }
  else s.finishStays s.regs

/-- A replay has committed: what the bundle's own committed control op left to be done (log entry 29). -/
def State.finishAfter (s : State) (pc : Addr) : State :=
  let c := s.me
  match c.after with
  | none => s
  | some (a, f) =>
    if !s.cur.replay ∨ a ≠ pc then s
    else
      let s := s.setMe { c with after := none }
      if f = finEnd then s.endStrandOf s.who
      else if c.seg.opened then s.setMe { s.me with ckpt := some (c.checkpoint c.regs) }
      else s

/-- A slot that a replay passes over has written LFSR. -/
def State.lfsrWritten (s : State) : Bool :=
  s.cur.ops.any fun o => !s.runs o.1 && match o.2.2 with
    | .movtcLfsr g _ => readP s.regs g.p != g.neg
    | _ => false

/-- The draw state after a bundle: a replayed block was allotted at the first issue, unless the bundle had
not issued (R82, R336). -/
def State.drawAfter (s : State) : Word :=
  if s.cur.replay then
    if s.me.blockStart = s.regs.lfsr ∧ ¬ s.lfsrWritten then s.cur.lfsr else s.regs.lfsr
  else s.cur.lfsr

/-- The C slot is among the ops that run. -/
def State.runsC (s : State) : Bool := s.cur.ops.any fun o => decide (o.1 = 0) && s.runs 0

/-- Where the context goes after the bundle: after a replay without its C op, the recorded address (R342). -/
def State.afterBundle (s : State) : Regs × Addr :=
  if s.cur.replay && !s.runsC && decide (imgWord s.me.snap 4 ≠ 0) then
    (s.regs, BitVec.ofNat 52 (imgWord s.me.snap 4))
  else s.nextPc

/-! ## The bytes of memory ops (R204, R265, R266) -/

/-- The operand size in bytes (R51). -/
def sizeOf (z : BitVec 2) : Nat := 2 ^ z.toNat

/-- The effective address of LD, LDS and ST (R265). -/
def State.scalarEa (s : State) (a : BitVec 6) (z : BitVec 2) (i : BitVec 3) : Nat :=
  (s.srcA a + BitVec.ofNat 64 (i.toNat * sizeOf z)).toNat

/-- The address of VLD and VST. -/
def State.vectorEa (s : State) (a : BitVec 6) (d : BitVec 8) : Nat :=
  (s.srcA a + (d.signExtend 64 <<< 6)).toNat

/-- The rows of VLDS and VSTS under SHAPE: their addresses and their size; none when a row is not a whole
number of bytes. -/
def State.rowsOf (s : State) (a b : BitVec 6) : Option (List Nat × Nat) :=
  let sh := s.shape
  let rows := shapeRows sh
  if rows = 0 then some ([], 0)
  else if shapeSz sh % rows ≠ 0 then none
  else
    some ((List.range rows).map fun r => (s.srcA a + BitVec.ofNat 64 r * s.srcB b).toNat, shapeSz sh / rows)

/-- The scope, acquire, release and width of an atomic (R262, R266). -/
def syncScope (r : Regs) : BitVec 2 := r.syncattr.extractLsb' 0 2
def syncAcquire (r : Regs) : Bool := r.syncattr.getLsbD 2
def syncRelease (r : Regs) : Bool := r.syncattr.getLsbD 3
def syncWide (r : Regs) : Bool := r.syncattr.getLsbD 4

/-- The class and the bytes of a load, store or atomic under the cursor. -/
def State.spansOf (s : State) (i : Instr) : Option (Nat × List (Nat × Nat)) :=
  let one (cls ea n : Nat) : Option (Nat × List (Nat × Nat)) := some (cls, [(ea, ea + n)])
  let rows (a b : BitVec 6) : Option (Nat × List (Nat × Nat)) :=
    (s.rowsOf a b).map fun r => (0, r.1.map fun ea => (ea, ea + r.2))
  let wide := if syncWide s.regs then 8 else 4
  match i with
  | .ld _ _ a c z i => one c.toNat (s.scalarEa a z i) (sizeOf z)
  | .lds _ _ a c z i => one c.toNat (s.scalarEa a z i) (sizeOf z)
  | .st _ _ a c z i => one c.toNat (s.scalarEa a z i) (sizeOf z)
  | .lda _ _ a z _ => one 15 (s.srcA a).toNat (sizeOf z)
  | .strel _ _ a z _ => one 15 (s.srcA a).toNat (sizeOf z)
  | .atom _ _ a _ _ => one 15 (s.srcA a).toNat wide
  | .aswap _ _ a _ => one 15 (s.srcA a).toNat wide
  | .acas _ _ a _ => one 15 (s.srcA a).toNat wide
  | .atomsc _ _ a _ _ => one 15 (s.srcA a).toNat wide
  | .vld _ _ a d => one 0 (s.vectorEa a d) 1024
  | .vst _ _ a d => one 0 (s.vectorEa a d) 1024
  | .vlds _ _ a b => rows a b
  | .vsts _ _ a b => rows a b
  | _ => none

/-- The op waits for every earlier access of its context (R266, R281). -/
def State.releasesAll (s : State) (i : Instr) : Bool :=
  match i with
  | .atom .. => syncRelease s.regs
  | .aswap .. => syncRelease s.regs
  | .acas .. => syncRelease s.regs
  | .atomsc .. => true
  | _ => false

/-- Every later access of its context waits for the op (R266, R280, R281). -/
def State.acquiresAll (s : State) (i : Instr) : Bool :=
  match i with
  | .lda .. => true
  | .atom .. => syncAcquire s.regs
  | .aswap .. => syncAcquire s.regs
  | .acas .. => syncAcquire s.regs
  | .atomsc .. => true
  | _ => false

/-- Every page of the loads, stores and atomics that a bundle has made has been used last (R302). -/
def State.touchBundle (s : State) : State :=
  let vas := s.cur.ops.flatMap fun o =>
    if s.runs o.1 ∧ (readP s.regs (guardOfInstr o.2.2).p != (guardOfInstr o.2.2).neg) then
      match (s.setCur { s.cur with slot := o.1 }).spansOf o.2.2 with
      | some x => x.2.flatMap fun p => if inWindow p.1 then [] else pagesOf p.1 (p.2 - p.1)
      | none => []
    else []
  match vas with
  | [] => s
  | _ =>
    let k := s.myCore
    s.setMyCore { k with tlb := vas.foldl (fun t va => touchTlb t k.asid va) k.tlb }

/-! ## Commit, trap and block -/

/-- What a fault of the C slot's target would leave, for a target whose packet is not cached (R64). -/
def State.branchOf (s : State) : Option Branch :=
  s.cur.judge.map fun j =>
    let c := s.cur
    let links := match c.ops.head? with
      | some (_, _, .call ..) => 1
      | some (_, _, .calli ..) => 1
      | some (_, _, .loop ..) => 1
      | some (_, _, .loopi ..) => 1
      | _ => 0
    let t := (s.setCur { c with outs := c.outs.drop links, lfsr := s.drawAfter }).enterResults
    { target := j.1, skip := j.2, img := t.regs,
      draw := ((c.draws.filter fun d => d.1 = 0).headD (0, c.lfsr)).2, capt := s.captureAll c.ops }

/-- Every slot commits, and the context goes on (R100). -/
def State.commitSlots (s : State) : State :=
  let br := s.branchOf
  let s := s.setCur { s.cur with lfsr := s.drawAfter }
  let (r, pc) := s.afterBundle
  let s := ((s.setRegs r).enterGroup s.bundleWrites).enterResults.touchBundle
  let c := s.me
  let used := match c.slice with
    | some sl => some { sl with used := sl.used + 1 }
    | none => none
  let s := s.setMe { c with
    regs := { tickRegs c.h c.regs with pc := pc },
    waits := [], asked := [], replies := [], replay := 0, early := 0, bound := none, branch := br, slice := used,
    xlhold := 0, seg := { c.seg with waiting := false }, trapped := c.trapped.filter fun t => !t.is r.pc r.ccyc }
  s.setMyCore (s.myCore.issued s.cur.ctx s.dev.cycle)

/-- Every slot commits, and then a control op acts. -/
def State.commitBundle (s : State) : State := (s.commitSlots.finish).finishAfter s.regs.pc

/-- The slots that a fault leaves to be replayed (R336): the faulting ones but SWTRAP's. -/
def State.replayMask (s : State) : Nat :=
  ((s.cur.faults.filter fun f => f.2.1 ≠ cSWTRAP).map fun f => 2 ^ f.1).sum

/-- Some slots fault: the others commit, and the trap is taken (R336). A committed END acts when the replay
commits, and the checkpoint of a committed RDV is then renewed (log entry 29). The core keeps what the bundle leaves the
open group and the RMODE it issued under, which the image has no room for (R45, R76; log entry 94). -/
def State.slotTrap (s : State) : State :=
  match s.cur.faults with
  | [] => s.commitBundle
  | f :: t =>
    let (_, cause, info) := t.foldl (fun a b => if b.1 < a.1 then b else a) f
    let mask := s.replayMask
    let withC := mask % 2 = 1
    let draw := ((s.cur.draws.filter fun d => mask / 2 ^ d.1 % 2 = 1).headD (0, s.cur.lfsr)).2
    let capt := s.captureAll s.cur.ops
    let pc := s.regs.pc
    let (loops, next) := if withC then (s.regs, (0 : Addr)) else s.afterBundle
    let here := s.trappedHere
    let s := s.setCur { s.cur with lfsr := s.drawAfter }
    let joined := (s.setRegs loops).enterGroup s.bundleWrites
    let record : Trapped := ⟨pc, s.regs.ccyc, joined.regs.grp, here.getD s.regs.rmode⟩
    let s := if mask = 0 then joined else s.setRegs loops
    let s := s.enterResults
    let c := s.me
    let fin := s.cur.fin
    let stays := decide (fin = finEnd) || decide (fin = finRdv) || decide (fin = finRdvRw)
    let s := s.setMe { c with
      trapped := (c.trapped.filter fun t => !t.is pc c.regs.ccyc) ++ (if mask = 0 then [] else [record]),
      early := 0, bound := none, after := if stays then some (pc, fin) else c.after,
      slice := match c.slice with
        | some sl => some { sl with used := sl.used + 1 }
        | none => none }
    let s := s.setMyCore (s.myCore.issued s.cur.ctx s.dev.cycle)
    let img := s.regs
    let s := s.finishStays { tickRegs c.h img with pc := next }
    let s := if s.cur.ctx = 4 then s.setRegs (tickRegs c.h img) else s
    s.takeTrap s.who cause info pc img (tickRegs true img) ⟨mask, next.toNat, draw, capt⟩

/-! ## The order of M0 and M1 in a bundle that blocks (R270, log entry 25) -/

/-- R270 orders the op `b` in M1 after the op `a` in M0. -/
def State.slotsOrdered (s : State) (a b : Instr) : Bool :=
  match (s.setCur { s.cur with slot := 3 }).spansOf a, (s.setCur { s.cur with slot := 4 }).spansOf b with
  | some x, some y =>
    decide (x.1 = y.1) || s.releasesAll b || s.acquiresAll a || x.2.any fun p => y.2.any fun q => overlaps p.1 p.2 q.1 q.2
  | _, _ => false

/-- M1 waits for an access that M0 makes. -/
def waitsForM0 (ws : List Wait) : Bool := ws.any fun x => decide (x = .cond 4 condMask)

/-- The op in M0 is to be performed before the request that M1's op sends. -/
def State.m0Before (s : State) : Bool :=
  let c := s.cur
  let op (n : Nat) := c.ops.find? fun o => o.1 = n
  match op 3, op 4 with
  | some a, some b =>
    s.runs 3 && (readP s.regs (guardOfInstr a.2.2).p != (guardOfInstr a.2.2).neg) && !s.me.early.getLsbD 3 &&
      !c.waiting.any (fun n => n = 0 ∨ n = 3) && !c.faults.any (fun f => f.1 = 3) &&
      (waitsForM0 c.waits || (c.waits.any (fun x => x.binds = some 4) && s.slotsOrdered a.2.2 b.2.2))
  | _, _ => false

/-- Nothing else holds the bundle, so that M0's op is performed now. -/
def State.m0First (s : State) : Bool :=
  s.m0Before && s.cur.waits.all fun x => decide (x.binds = some 4) || decide (x = .cond 4 condMask)

/-! ## What a packet that is not cached waits for (R61, R62) -/

/-- Refusal of a fetch by the access tables (R61, R306). -/
def State.fetchRefused (s : State) (w : Who) (p : Place) : Option Nat :=
  if s.isRemote p.pa then none else s.refusedBy s.dev.node.toNat (s.core w.core).asid p.key [2]

/-- What is missing before the packet that holds `a` can be looked at: a wait, or nothing that waiting brings
(its fault is raised when the context comes to fetch there). -/
def State.packetWait (s : State) (w : Who) (a : Nat) : Option Wait :=
  let base := a / 64 * 64
  if inWindow base ∨ inAperture base then none
  else
    match s.translate w a .fetch with
    | .error (.block (x :: _)) => some x
    | .error _ => none
    | .ok p =>
      if (s.fetchRefused w p).isSome then none
      else
        match (s.ctx w).reply (.fill base) with
        | some r => if r.status = 0 ∨ r.status = stRetry then some (.fill base) else none
        | none => some (.fill base)

/-- A bundle in which another slot faults waits for its branch's target, so that both are judged (R64, R336). -/
def State.judgeFirst (s : State) : Option Wait :=
  match s.cur.faults, s.cur.judge with
  | _ :: _, some j => s.packetWait s.who j.1
  | _, _ => none

/-! ## The order of blocked tile ops (R202) -/

/-- The footprint's pool bytes [lo, hi) at the granularity of the scoreboard (R202). -/
def footprint (d : Dword) : Nat × Nat := (descOff d, descOff d + up128 (descSize d))

/-- The context runs and its bundle waits for a tile. -/
def Ctx.tileBlocked (c : Ctx) : Bool := decide (c.life = .running) && c.waits.any fun x => match x with
  | .cond _ code => decide (code = condTile)
  | _ => false

/-- The tile registers that an op names, and whether it writes the tile. -/
def tileUses (i : Instr) : List (Nat × Bool) :=
  match i with
  | .tld _ t _ _ _ _ => [(t.toNat, true)]
  | .tst _ t _ _ _ _ => [(t.toNat, false)]
  | .tstx _ t _ _ _ _ => [(t.toNat, false)]
  | .tcpy _ d sh _ => [(d.toNat, true), (sh.toNat, false)]
  | .pret _ t _ _ _ => [(t.toNat, true)]
  | .pload _ t _ _ => [(t.toNat, false)]
  | .pstep _ a b _ _ _ _ => [(a.toNat, false), (b.toNat, false)]
  | .psteps _ a b _ _ _ _ => [(a.toNat, false), (b.toNat, false)]
  | .nlsend _ t _ => [(t.toNat, false)]
  | .nlrecv _ t _ => [(t.toNat, true)]
  | _ => []

/-- The pool bytes of the bundle's ops that wait for a tile. -/
def State.tileWaiting (s : State) : List TileWait :=
  (s.cur.ops.filter fun o => (.cond o.1 condTile) ∈ s.cur.waits).flatMap fun o => (tileUses o.2.2).filterMap fun u =>
    let d := (Map.get {} s.regs.tile u.1).desc
    if descRemote d then none else some ⟨s.cur.ctx, (footprint d).1, (footprint d).2, u.2⟩

/-- The order after the bundle blocks: a context that waited for a tile already keeps its place. -/
def State.tileOrder (s : State) : List TileWait :=
  let ws := s.tileWaiting
  let q := s.myCore.tileq.filter fun x => (s.myCore.ctx x.ctx).tileBlocked
  if ws.isEmpty then q.filter fun x => decide (x.ctx ≠ s.cur.ctx)
  else if s.me.tileBlocked then q
  else q ++ ws

/-- The bundle blocks. -/
def State.blocks (s : State) : State :=
  let s := s.setMyCore { s.myCore with tileq := s.tileOrder }
  let s := s.blockBundle s.m0Before
  s.setMyCore { s.myCore with port := none, yielded := s.myCore.unyield s.cur.ctx }

/-- The bundle is complete: it blocks, consumes poison, traps or commits. -/
def State.closeBundle (s : State) : State :=
  match s.cur.poison with
  | some (src, pa) => s.consume src pa
  | none =>
    if !s.cur.waits.isEmpty then s.blocks
    else
      match s.judgeFirst with
      | some x => (s.setCur { s.cur with waits := [x] }).blocks
      | none => if s.cur.faults.isEmpty then s.commitBundle else s.slotTrap

/-! ## One slot op -/

/-- The op's guard predicate is poisoned (R354). -/
def State.guardPoison (s : State) (i : Instr) : Bool :=
  (regP (guardOfInstr i).p).any fun k => decide ((1, s.cur.ctx * 1024 + k) ∈ s.myCore.poison)

/-- A poisoned register operand of the op (R354): the file it lies in and its place. -/
def State.operandPoison (s : State) (i : Instr) : Option (Nat × Nat) :=
  (s.myCore.poison.find? fun p =>
    (decide (p.1 = 1) || decide (p.1 = 2)) &&
      (operands i).1.any fun k => s.cur.ctx * 1024 + k = p.2).map fun p => (p.1, 0)

/-- Note the draws of an op in mask order (R82). -/
def State.takeDraws (s : State) (i : Instr) : State :=
  s.setCur { s.cur with
    draws := s.cur.draws ++ [(s.cur.slot, s.cur.lfsr)],
    lfsr := lfsrSteps (s.drawsOf i) s.cur.lfsr }

/-- What the body of the slot's op answers goes into the issue in progress. -/
def State.absorb (s : State) (i : Instr) : OpRes → State
  | .done t => t.setCur { t.cur with
      draws := s.cur.draws ++ [(s.cur.slot, s.cur.lfsr)],
      lfsr := lfsrSteps (s.drawsOf i) s.cur.lfsr }
  | .trap c info =>
    let s := s.takeDraws i
    s.setCur { s.cur with faults := s.cur.faults ++ [(s.cur.slot, c, info)] }
  | .trapIn t c info =>
    t.setCur { (s.takeDraws i).cur with faults := s.cur.faults ++ [(s.cur.slot, c, info)] }
  | .block w =>
    let s := s.takeDraws i
    s.setCur { s.cur with waits := s.cur.waits ++ w, waiting := s.cur.waiting ++ [s.cur.slot] }
  | .poison a b =>
    let s := s.takeDraws i
    s.setCur { s.cur with poison := some (s.cur.poison.getD (a, b)) }
  | .denied die va =>
    let s := (s.takeDraws i).logRefusal die s.myCore.asid
    s.setCur { s.cur with faults := s.cur.faults ++ [(s.cur.slot, cPROT, addrInfo 2 va)] }

/-- The guard of the op holds (R48). -/
def State.guardOk (s : State) (g : Guard) : Bool := readP s.regs g.p != g.neg

/-- The results of the op in M0 that has been performed already. -/
def State.giveBound (s : State) : State :=
  match s.me.bound with
  | some b => s.setCur { s.cur with outs := s.cur.outs ++ b.outs, vouts := s.cur.vouts ++ b.vouts }
  | none => s

/-- Run one slot op with its guard, and close the bundle when it is the last. An op that has been performed
already gives its results and is not performed again. -/
def State.slotOp (s : State) (g : Guard) (i : Instr) (body : State → OpRes) : Outcome :=
  let s :=
    if s.guardPoison i then s.absorb i (.poison 1 0)
    else if !s.guardOk g then s
    else if s.me.early.getLsbD s.cur.slot then (if s.cur.slot = 0 then s else s.giveBound)
    else match s.operandPoison i with
      | some p => s.absorb i (.poison p.1 p.2)
      | none => s.absorb i (body s)
  .next (if s.cur.more then s else s.closeBundle)

end Sys2Proof.Machine
end

