-- ==== Sys2Proof/Machine/Control.lean ====
section
/-! DEFINITION. The control registers as a MOVC reads them and as a MOVTC writes them (R103, R112). -/

namespace Sys2Proof.Machine

/-- The context number of that view. -/
def State.viewNum (s : State) : Nat := if s.cur.ctx = 4 then s.myCore.svc.getD 4 else s.cur.ctx

/-- One link's bits of HLINK (R186). -/
def State.linkBits (s : State) (n : Nat) : Nat :=
  let d : Dir := BitVec.ofNat 2 n
  let l := Map.get {} s.myCore.links n
  let bit (b : Bool) (i : Nat) : Nat := if b then 2 ^ i else 0
  bit (decide ((if l.recv.isSome then 1 else 0) < l.inStreams.length)) 5 + bit l.outStrip.isSome 4 + bit l.inStrip.isSome 3 + bit l.down 2 +
    match s.neighbour s.cur.core d with
    | some m =>
      bit (decide (coreDie m ≠ coreDie s.cur.core)) 1 +
        bit ((s.core m).boundTo s.myCore.binding.launch) 0
    | none => 0

/-- The partition of a core's pod (R324). -/
def State.partOf (s : State) (core : Nat) : Part :=
  (s.dev.parts.find? fun p => p.pods.getLsbD (corePod core)).getD ⟨0, 1, 0, false, 0, 0⟩

/-- FRAME (R323). -/
def State.frameReg (s : State) : Nat :=
  let p := s.partOf s.cur.core
  p.tick * 2 ^ 48 + (p.length - 1) * 2 ^ 32 + (if p.slip then 2 ^ 31 else 0) +
    (if s.dev.stall.isSome then 2 ^ 30 else 0) + p.frames.toNat

/-- The first wheel position of the core strictly after a cycle (R323). -/
def nextWheel (ws : List Nat) (cycle : Nat) : Nat :=
  let ahead (p : Nat) : Nat := (p + 2 * 4096 - cycle % 4096 - 1) % 4096
  match ws with
  | [] => 0
  | p :: t => t.foldl (fun a b => if ahead b < ahead a then b else a) p

/-- LZCNT of a zone (R249). -/
def lzCount (k : Core) (n : Nat) : Nat :=
  let z := Map.get {} k.zones n
  if !z.cfg.getLsbD 35 then 0
  else
    let slots := bitsOf (z.cfg.setWidth 64) 26 21 + 1
    let count (st : BitVec 3) : Nat := (z.slots.filter fun p => p.2.state = st).length
    let used := count 1 + count 2 + count 3 + count 4
    (slots - used) * 2 ^ 33 + count 1 * 2 ^ 26 + count 2 * 2 ^ 19 + count 3 * 2 ^ 12 + count 4 * 2 ^ 5 +
      (k.lzq.filter fun q => q.req.zone = n).length

/-- SEGSTAT (R365). -/
def Ctx.segstat (c : Ctx) : Nat :=
  let bit (b : Bool) (i : Nat) : Nat := if b then 2 ^ i else 0
  c.heldE.length * 2 ^ 8 + c.seg.rewinds * 2 ^ 6 + bit c.seg.waiting 3 + bit c.seg.lost 2 + bit c.seg.rw 1 +
    bit c.seg.opened 0

/-- ORDSTAT (R283). A context that waits for an ATOMSC issues nothing, so bits [10:9] read zero. -/
def State.ordstat (s : State) : Nat :=
  let waiting := s.me.mq.any fun h => match h.op with
    | .write _ (some _) => true
    | _ => false
  (if waiting then 2 ^ 8 else 0) + min 128 (s.myCore.regOut.filter fun r => r.2 = s.cur.ctx).length

/-- The value of control register `n` as the running bundle sees it (R112); numbers that no chapter assigns
read zero here and never reach it. -/
def State.readC (s : State) (n : Nat) : Nat :=
  let r := s.regs
  let k := s.myCore
  let b := k.binding
  let c := s.me
  let v := s.viewCtx
  let l := s.launch b.launch
  let ls := levelsOf l.rc
  let a := Map.get {} s.dev.asids k.asid
  if n = 0x000 then s.cur.core
  else if n = 0x001 then s.cur.ctx
  else if n = 0x002 then coreDie s.cur.core
  else if n = 0x003 then corePod s.cur.core
  else if n = 0x004 then s.dev.node.toNat
  else if n = 0x005 then k.asid
  else if n = 0x006 then ls.length
  else if n < 0x010 then
    match v.strand with
    | some st => (st.lvl.getD (n - 8) 0).toNat
    | none => 0
  else if n < 0x014 then (Map.get 0 r.lc (n - 0x010)).toNat
  else if n = 0x014 then (r.loopOrd.map (2 ^ ·)).sum
  else if n = 0x018 then r.ccyc.toNat
  else if n = 0x040 then r.shape.toNat
  else if n = 0x041 then r.fflags.toNat
  else if n = 0x042 then s.rmodeNow.toNat
  else if n = 0x043 then r.lfsr.toNat
  else if n = 0x044 then b.w
  else if n = 0x045 then
    ((List.range 4).map fun i =>
      (Map.get 0 r.qcount i + (if r.qkind.getLsbD i then 512 else 0)) * 2 ^ (16 * i)).sum
  else if n = 0x080 then r.pg.toNat
  else if n = 0x081 then
    k.plane.walk * 2 ^ 16 + (k.plane.dy % 256).toNat * 2 ^ 8 + (k.plane.dx % 256).toNat
  else if n = 0x082 then (if k.plane.sat then 1 else 0)
  else if n = 0x083 then k.plane.stepc
  else if n = 0x084 then b.pmax
  else if n = 0x085 then
    k.plane.blocks.toNat * 2 ^ 16 + (if k.plane.fp then 16 else 0) +
      match k.plane.holder with
      | some x => 8 + x
      | none => 0
  else if n < 0x090 then (Map.get {} r.feed (n - 0x088)).pos.toNat
  else if n = 0x090 then k.plane.hstat.toNat
  else if n = 0x091 then ((List.range 4).map fun i => s.linkBits i * 2 ^ (8 * i)).sum
  else if n < 0x0D0 then (Map.get 0 k.cdone (n - 0x0C0)).toNat
  else if n < 0x0E0 then (Map.get 0 k.cnext (n - 0x0D0)).toNat
  else if n = 0x0E0 then c.gqt.toNat
  else if n = 0x0E1 then
    (match c.gqData with
     | [] => 0
     | row :: _ => if row.fault.isSome then 2 ^ 13 else 0) + c.gqData.length * 2 ^ 8 + c.gqAddr.length
  else if n = 0x0E2 then v.chmask.toNat
  else if n = 0x0E3 then k.cerr.toNat
  else if n = 0x0E4 then v.celast.toNat
  else if n < 0x0F0 then (Map.get 0 k.cb (n - 0x0E8)).toNat
  else if n = 0x0F0 then b.pb1
  else if n = 0x0F1 then b.pb2
  else if n = 0x0F2 then b.pb3
  else if n < 0x104 then (Map.get {} s.cur.zones0 (n - 0x100)).cfg.toNat
  else if n < 0x108 then lzCount { k with zones := s.cur.zones0 } (n - 0x104)
  else if n < 0x10C then (Map.get {} s.cur.zones0 (n - 0x108)).acc
  else if n < 0x118 then (Map.get 0 s.cur.ab0 (n - 0x110)).toNat
  else if n = 0x140 then r.syncattr.toNat
  else if n = 0x141 then r.invsel.toNat
  else if n < 0x158 then (Map.get 0 r.region (n - 0x148)).toNat
  else if n = 0x160 then s.ordstat
  else if n = 0x180 then
    k.depth.toNat * 2 ^ 8 + match c.slice with
      | some sl => 8 + sl.depth
      | none => 0
  else if n = 0x181 then a.rgcount.toNat
  else if n = 0x182 then a.rgdrop.toNat
  else if n = 0x183 then a.rgfail.toNat
  else if n = 0x1A0 then a.root
  else if n = 0x1A1 then v.xlhold.toNat
  else if n = 0x1A2 then v.xlmiss.toNat
  else if n = 0x1C0 then s.dev.cycle.toNat
  else if n = 0x1C1 then s.dev.cycle.toNat / 16
  else if n = 0x1C2 then s.frameReg
  else if n = 0x1C3 then
    k.wheel.length * 2 ^ 32 + nextWheel k.wheel s.dev.cycle.toNat * 2 ^ 16 + s.dev.cycle.toNat % 4096
  else if n = 0x1C4 then
    let w : Who := ⟨s.cur.core, s.viewNum⟩
    let e := s.effPrio 8 w
    (if v.prio.toNat < e then 2 ^ 12 else 0) + v.prio.toNat * 2 ^ 8 + e
  else if n = 0x1C5 then s.dev.pwrstall.toNat
  else if n = 0x1C8 then l.queue
  else if n = 0x1C9 then l.seq.toNat
  else if n = 0x1CA then
    k.ageing.toNat * 2 ^ 16 + (s.dev.cards.filter fun d => !d.die && decide (d.core = s.cur.core)).length
  else if n = 0x1E0 then v.trapcause.toNat
  else if n = 0x1E1 then v.trapinfo.toNat
  else if n = 0x1E2 then v.trappc.toNat
  else if n = 0x1E3 then v.regs.snapbase.toNat * 4096
  else if n = 0x1E4 then v.status
  else if n = 0x1F0 then c.segstat
  else if n = 0x1F1 then k.errcnt.toNat
  else if n = 0x1F2 then
    if s.dev.twin.getLsbD (corePod s.cur.core) then 1 + s.cur.core % 2 * 2 else 0
  else 0

/-- A control register of state that ctxS has none of: latches, feed registers, the gather queue and regions
(R94; log entry 82). -/
def cregNotS (n : Nat) : Bool :=
  decide (n = 0x045) || decide (n = 0x0E0) || decide (n = 0x0E1) || (decide (0x088 ≤ n) && decide (n ≤ 0x08F)) ||
    (decide (0x148 ≤ n) && decide (n ≤ 0x157))

/-- A control register that MOVTC may write without a form of its own: SYNCATTR, INVSEL and the region
bounds (R262). -/
def cregPlainRW (n : Nat) : Bool :=
  decide (n = 0x140) || decide (n = 0x141) || (decide (0x148 ≤ n) && decide (n ≤ 0x157))

end Sys2Proof.Machine
end

