-- ==== Sys2Proof/Machine/Code.lean ====
section
/-! DEFINITION. Fetching an instruction's bytes: packets, bundles, dictionary entries and branch targets
(R33 to R43, R61 to R66). -/

namespace Sys2Proof.Machine

/-! ## Packets (R37 to R40) -/

/-- Code word `i` of a packet. -/
def pktWord (p : List Byte) (i : Nat) : Nat := leNat ((p.drop (2 * i)).take 2)

/-- The packet header. -/
def pktHeader (p : List Byte) : Nat := leNat (p.take 4)

def pktKind (p : List Byte) : Nat := pktHeader p / 2 ^ 30

/-- Code word `i` begins a bundle. -/
def pktStart (p : List Byte) (i : Nat) : Bool :=
  decide (2 ≤ i) && decide (i < 32) && (pktHeader p).testBit (i - 2)

/-- The first start word after word `i`. -/
def nextStart (p : List Byte) (i : Nat) : Option Nat :=
  (List.range 32).find? fun j => decide (i < j) && pktStart p j

/-- The address after a bundle at word `i` of the packet at `base`: the next start word, else word 0 of the
following packet, which stands for the first start word from there on (R40). -/
def succOf (p : List Byte) (base i : Nat) : Addr :=
  match nextStart p i with
  | some j => BitVec.ofNat 52 (base + 2 * j)
  | none => BitVec.ofNat 52 (base + 64)

/-! ## Bundles (R42, R43) -/

/-- TRAPINFO of ILLPKT, BADTGT and bundle-level ILLENC (R66). -/
def codeInfo (a : Nat) : Dword := BitVec.ofNat 64 (0xFFF * 2 ^ 52 + a % 2 ^ 52)

/-- A well-formed header (R42). -/
def headerOk (h : Nat) : Bool := decide (h / 2 ^ 12 = 1)

/-- The slots of a header's mask. -/
def maskSlots (h : Nat) : List Nat := (List.range 11).filter fun i => h.testBit i

/-- Decode a slot word; one that the decoder refuses is a reserved encoding (R49, R60). -/
def slotInstr (slot : Nat) (w : Word) : Instr := (decodeSlot slot w).getD (.reservedEncoding w)

/-- What stands at a code address. -/
inductive Fetched where
  /-- The packet is not in the packet cache. -/
  | absent (base : Nat)
  /-- The packet has no start word; go on at the next one (R40). -/
  | skip (next : Addr)
  /-- A fault of causes 3 to 5 of R65. -/
  | bad (cause : Byte) (info : Dword) (pc : Addr)
  /-- A poisoned pool word in the dictionary entry: its source and its place (R354, R358). -/
  | poison (src pa : Nat)
  /-- A bundle: its address, its ops by mask bit, STOP, and the sequential successor. -/
  | bundle (pc : Addr) (ops : List (Nat × Word × Instr)) (stop : Bool) (succ : Addr)
  deriving DecidableEq, Repr

/-- A dictionary entry (R38, R43). -/
def Core.dictBundle (k : Core) (regrow : Bool) (idx : Nat) (pc succ : Addr) : Fetched :=
  let b := k.binding
  let bad : Fetched := .bad cILLENC (codeInfo pc.toNat) pc
  let lo := b.pb3 + 48 * idx
  if regrow ∨ b.n ≤ idx then bad
  else if k.poolPoison lo 48 then
    .poison 4 (((List.range 7).map fun i => lo / 8 * 8 + 8 * i).find? (fun a => k.poolPoison a 8) |>.getD lo)
  else
    let e := k.poolRead lo 48
    let h := leNat (e.take 4)
    let word (i : Nat) : Word := BitVec.ofNat 32 (leNat ((e.drop (4 + 4 * i)).take 4))
    if !headerOk h || (List.range 11).any (fun i => !h.testBit i && decide (word i ≠ 0)) then bad
    else .bundle pc ((maskSlots h).map fun i => (i, word i, slotInstr i (word i))) (h.testBit 11) succ

/-- A literal bundle at word `i` (R39). The word at fault of one that is malformed, or has a bad header, is its escape
word (R66; log entry 92). -/
def litBundle (p : List Byte) (i : Nat) (pc succ : Addr) : Fetched :=
  let h := pktWord p (i + 1) + pktWord p (i + 2) * 2 ^ 16
  let slots := maskSlots h
  let last := i + 2 + 2 * slots.length
  if 32 ≤ last ∨ (List.range (last - i)).any (fun j => pktStart p (i + 1 + j)) then
    .bad cILLPKT (codeInfo pc.toNat) pc
  else if !headerOk h then .bad cILLENC (codeInfo pc.toNat) pc
  else
    .bundle pc (slots.zipIdx.map fun q =>
      let w : Word := BitVec.ofNat 32 (pktWord p (i + 3 + 2 * q.2) + pktWord p (i + 4 + 2 * q.2) * 2 ^ 16)
      (q.1, w, slotInstr q.1 w)) (h.testBit 11) succ

/-- The bundle at an address; word 0 of a packet stands for its first start word (R38 to R41, R65). A pc
that TRET took from an edited image and that is no start word is a bad target (log entry 30). -/
def Core.fetch (k : Core) (regrow : Bool) (pc : Addr) : Fetched :=
  let base := pc.toNat / 64 * 64
  match Map.get [] k.pkts (base / 64) with
  | [] => .absent base
  | p =>
    if pktKind p ≠ 1 then .bad cILLPKT (codeInfo base) (BitVec.ofNat 52 base)
    else
      let i := pc.toNat % 64 / 2
      let at_ (i : Nat) : Fetched :=
        let a : Addr := BitVec.ofNat 52 (base + 2 * i)
        let w := pktWord p i
        let succ := succOf p base i
        if w < 2048 then k.dictBundle regrow w a succ
        else if w = 0xF000 then litBundle p i a succ
        else .bad cILLENC (codeInfo a.toNat) a
      if pc.toNat % 64 = 0 then
        match nextStart p 1 with
        | some j => at_ j
        | none => .skip (BitVec.ofNat 52 (base + 64))
      else if pc.toNat % 2 = 0 ∧ pktStart p i then at_ i
      else .bad cBADTGT (codeInfo pc.toNat) pc

/-! ## Branch targets (R64) -/

/-- The fault of a target whose packet is cached (R64). -/
def targetBad (p : List Byte) (a : Nat) : Option (Byte × Dword) :=
  if pktKind p ≠ 1 then some (cILLPKT, codeInfo (a / 64 * 64))
  else if pktStart p (a % 64 / 2) then none
  else some (cBADTGT, codeInfo a)

/-- How a branch, call, return or loop-end target is judged as its bundle issues (R64). -/
inductive Target where
  | ok
  /-- Its packet is not cached: it is judged before the context's next bundle. -/
  | later
  | fault (cause : Byte) (info : Dword)
  deriving DecidableEq, Repr, Inhabited

/-- Judge a target by byte address; bit 0 is judged before [63:52] (log entry 97). -/
def State.target (s : State) (a : Nat) : Target :=
  if a % 2 = 1 then .fault cBADTGT (codeInfo a)
  else if 2 ^ 52 ≤ a then .fault cFETCHF (addrInfo 3 a)
  else
    match Map.get [] s.myCore.pkts (a / 64) with
    | [] => .later
    | p =>
      match targetBad p a with
      | some (c, i) => .fault c i
      | none => .ok

/-- Go on when a target stands; `skip` says that the context goes on after it. -/
def State.toTarget (s : State) (a : Nat) (skip : Bool) (f : State → OpRes) : OpRes :=
  match s.target a with
  | .fault c i => .trap c i
  | .ok => f s
  | .later => f (s.setCur { s.cur with judge := some (a, skip) })

/-- The sequential successor as an address of a start word: word 0 of a packet is resolved to its first
start word when the packet can be had (R40, R41); `n` bounds the packets looked through. -/
def State.resolve (s : State) : Nat → Addr → Except OpRes Addr
  | 0, a => .ok a
  | n + 1, a =>
    if a.toNat % 64 ≠ 0 then .ok a
    else
      match Map.get [] s.myCore.pkts (a.toNat / 64) with
      | [] =>
        match s.packetWait s.who a.toNat with
        | some x => .error (.block [x])
        | none => .ok a
      | p =>
        if pktKind p ≠ 1 then .ok a
        else
          match nextStart p 1 with
          | some j => .ok (BitVec.ofNat 52 (a.toNat + 2 * j))
          | none => s.resolve n (BitVec.ofNat 52 (a.toNat + 64))

/-- The address of a packet that the context waits for, 0 for none. -/
def fetchWait (x : Wait) : Nat := match x with
  | .fill a => a
  | .walk a .fetch => a / 64 * 64
  | _ => 0

/-- The sequential successor of the running bundle as a bundle's address (R41). The packets that it has looked
through already, as far as the one it waits for, need not be cached any more; a wait for the packet of the op's own
target says nothing of them. -/
def State.successor (s : State) : Except OpRes Addr :=
  let a := s.cur.succ
  let aside : Option Nat := s.cur.judge.map fun j => j.1 / 64
  let waits := (s.me.waits.map fetchWait).filter fun x => decide (aside ≠ some (x / 64))
  let from_ := waits.foldl max a.toNat
  s.resolve (s.myCore.pkts.length + 1) (if a.toNat % 64 = 0 then BitVec.ofNat 52 from_ else a)

/-- A taken branch deactivates the loops whose body does not hold the target (R119). -/
def leaveLoops (r : Regs) (a : Nat) : List Nat :=
  r.loopOrd.filter fun n =>
    decide ((Map.get 0 r.loopStart n).toNat ≤ a) && decide (a ≤ (Map.get 0 r.loopEnd n).toNat)

/-- Go to a target by a branch that may leave loops, or by a call or return that does not. -/
def State.goTo (s : State) (a : Nat) (leaves : Bool) (f : State → OpRes) : OpRes :=
  s.toTarget a false fun s =>
    let r := s.regs
    f (s.setCur { s.cur with
      jump := some (BitVec.ofNat 52 a),
      loops := if leaves then some (r.loopStart, r.loopEnd, leaveLoops r a) else none })

/-- A PC-relative target in code words (R64): a sum below 0 gives 0, and one of 2^52 or more wraps (log entry 93). -/
def State.relTarget (s : State) (o : Int) : Nat := ((s.regs.pc.toNat : Int) + 2 * o).toNat % 2 ^ 52

end Sys2Proof.Machine
end

