-- ==== Sys2Proof/Machine/Alu.lean ====
section
/-! DEFINITION. The A-slot instructions (R104 to R112). -/

namespace Sys2Proof.Machine

/-! ## Results of the register and immediate ops (R105 to R108) -/

/-- The high half of a product (R105). -/
def mulHigh (signed : Bool) (a b : Dword) : Dword :=
  if signed then BitVec.ofInt 64 (a.toInt * b.toInt / 2 ^ 64) else BitVec.ofNat 64 (a.toNat * b.toNat / 2 ^ 64)

/-- DIV (R106). -/
def divOp (a b : Dword) : Dword := if b = 0 then BitVec.allOnes 64 else a.sdiv b

/-- REM (R106). -/
def remOp (a b : Dword) : Dword := if b = 0 then a else a.srem b

/-- DIVU (R106). -/
def divuOp (a b : Dword) : Dword := if b = 0 then BitVec.allOnes 64 else a / b

/-- REMU (R106). -/
def remuOp (a b : Dword) : Dword := if b = 0 then a else a % b

/-- Leading zero bits; 64 for zero (R105). -/
def clzOp (a : Dword) : Dword := if a = 0 then 64 else BitVec.ofNat 64 (63 - a.toNat.log2)

/-- Set bits (R105). -/
def popcOp (a : Dword) : Dword :=
  BitVec.ofNat 64 ((List.range 64).filter fun i => a.getLsbD i).length

/-- The field that BFX and BFI take from their second source: its lowest bit and its width, cut at bit 63
(R107). -/
def fieldOf (b : Dword) : Nat × Nat :=
  let lo := bitsOf b 5 0
  (lo, min (bitsOf b 13 8 + 1) (64 - lo))

/-- BFX (R107). -/
def bfxOp (a b : Dword) : Dword :=
  let (lo, w) := fieldOf b
  let f := a.toNat / 2 ^ lo % 2 ^ w
  if b.getLsbD 16 && f.testBit (w - 1) then BitVec.ofNat 64 (f + 2 ^ 64 - 2 ^ w) else BitVec.ofNat 64 f

/-- BFI (R107). -/
def bfiOp (d a b : Dword) : Dword :=
  let (lo, w) := fieldOf b
  let m : Dword := BitVec.ofNat 64 ((2 ^ w - 1) * 2 ^ lo)
  (d &&& ~~~m) ||| ((a <<< lo) &&& m)

/-- The source width of SEXT and ZEXT (R52). -/
def extWidth (w : BitVec 3) : Nat := 8 * 2 ^ w.toNat

/-- SEXT and ZEXT (R105). -/
def sextOp (a : Dword) (w : BitVec 3) : Dword := (a.setWidth (extWidth w)).signExtend 64
def zextOp (a : Dword) (w : BitVec 3) : Dword := (a.setWidth (extWidth w)).setWidth 64

/-- Bits [5:0] of a shift amount (R105). -/
def amount (b : Dword) : Nat := bitsOf b 5 0

/-- Signed and unsigned minimum and maximum (R105). -/
def sminOp (a b : Dword) : Dword := if a.slt b then a else b
def smaxOp (a b : Dword) : Dword := if a.slt b then b else a
def uminOp (a b : Dword) : Dword := if a.ult b then a else b
def umaxOp (a b : Dword) : Dword := if a.ult b then b else a

/-- The conditions of CMP and CMPI (R110). -/
def condOp (c : BitVec 3) (a b : Dword) : Bool :=
  match c.toNat with
  | 0 => decide (a = b)
  | 1 => decide (a ≠ b)
  | 2 => a.slt b
  | 3 => a.ult b
  | 4 => a.sle b
  | 5 => a.ule b
  | 6 => decide (a &&& b ≠ 0)
  | _ => decide (a &&& b = 0)

/-- The functions of PLOG (R111). -/
def plogOp (f : BitVec 3) (a b : Bool) : Bool :=
  match f.toNat with
  | 0 => a && b
  | 1 => a || b
  | 2 => a != b
  | 3 => a && !b
  | 4 => a || !b
  | _ => !a

/-! ## Shared forms -/

/-- An op on two scalars that delivers after `lat` (R105). -/
def State.binary (s : State) (g : Guard) (i : Instr) (d a b : BitVec 6) (lat : Nat)
    (f : Dword → Dword → Dword) : Outcome :=
  s.slotOp g i fun s => .done (s.deliver d (f (s.srcA a) (s.srcB b)) lat)

/-- An op on one scalar and a sign-extended immediate (R108). -/
def State.immediate (s : State) (g : Guard) (i : Instr) (d a : BitVec 6) (imm : BitVec 9)
    (f : Dword → Dword → Dword) : Outcome :=
  s.slotOp g i fun s => .done (s.deliver d (f (s.srcA a) (imm.signExtend 64)) 1)

/-- An op on one scalar. -/
def State.unary (s : State) (g : Guard) (i : Instr) (d a : BitVec 6) (f : Dword → Dword) : Outcome :=
  s.slotOp g i fun s => .done (s.deliver d (f (s.srcA a)) 1)

/-- Occupancy of the DIV family left in the running A slot (R102, R106). -/
def State.occupied (s : State) : Bool :=
  if s.cur.slot = 1 then decide (s.regs.occA0 ≠ 0) else decide (s.regs.occA1 ≠ 0)

/-- Occupy the running A slot. -/
def State.occupy (s : State) : State :=
  if s.cur.slot = 1 then s.setRegs { s.regs with occA0 := 18 } else s.setRegs { s.regs with occA1 := 18 }

/-- An op of the DIV family (R102, R106). Only an op of the family meets the slot occupied (log entry 95). -/
def State.divide (s : State) (g : Guard) (i : Instr) (d a b : BitVec 6)
    (f : Dword → Dword → Dword) : Outcome :=
  s.slotOp g i fun s =>
    if s.occupied then s.struct_ 1
    else .done ((s.deliver d (f (s.srcA a) (s.srcB b)) 18).occupy)

/-- A MOVTC to a control register that governs the next bundle (R112). -/
def State.moveTo (s : State) (g : Guard) (i : Instr) (n : Nat) (a : BitVec 6) (ok : State → Dword → Bool) :
    Outcome :=
  s.slotOp g i fun s => if ok s (s.srcA a) then .done (s.writeLate n (s.srcA a)) else s.illenc

/-! ## Meanings -/

/-- ADD (R105). -/
def execAdd (g : Guard) (d : BitVec 6) (a : BitVec 6) (b : BitVec 6) (s : State) : Outcome :=
  s.binary g (.add g d a b) d a b 1 (· + ·)

/-- SUB (R105). -/
def execSub (g : Guard) (d : BitVec 6) (a : BitVec 6) (b : BitVec 6) (s : State) : Outcome :=
  s.binary g (.sub g d a b) d a b 1 (· - ·)

/-- AND (R105). -/
def execAnd (g : Guard) (d : BitVec 6) (a : BitVec 6) (b : BitVec 6) (s : State) : Outcome :=
  s.binary g (.and g d a b) d a b 1 (· &&& ·)

/-- OR (R105). -/
def execOr (g : Guard) (d : BitVec 6) (a : BitVec 6) (b : BitVec 6) (s : State) : Outcome :=
  s.binary g (.or g d a b) d a b 1 (· ||| ·)

/-- XOR (R105). -/
def execXor (g : Guard) (d : BitVec 6) (a : BitVec 6) (b : BitVec 6) (s : State) : Outcome :=
  s.binary g (.xor g d a b) d a b 1 (· ^^^ ·)

/-- ANDN (R105). -/
def execAndn (g : Guard) (d : BitVec 6) (a : BitVec 6) (b : BitVec 6) (s : State) : Outcome :=
  s.binary g (.andn g d a b) d a b 1 (fun a b => a &&& ~~~b)

/-- SHL (R105). -/
def execShl (g : Guard) (d : BitVec 6) (a : BitVec 6) (b : BitVec 6) (s : State) : Outcome :=
  s.binary g (.shl g d a b) d a b 1 (fun a b => a <<< amount b)

/-- SHR (R105). -/
def execShr (g : Guard) (d : BitVec 6) (a : BitVec 6) (b : BitVec 6) (s : State) : Outcome :=
  s.binary g (.shr g d a b) d a b 1 (fun a b => a >>> amount b)

/-- SRA (R105). -/
def execSra (g : Guard) (d : BitVec 6) (a : BitVec 6) (b : BitVec 6) (s : State) : Outcome :=
  s.binary g (.sra g d a b) d a b 1 (fun a b => a.sshiftRight (amount b))

/-- MIN (R105). -/
def execMin (g : Guard) (d : BitVec 6) (a : BitVec 6) (b : BitVec 6) (s : State) : Outcome :=
  s.binary g (.min g d a b) d a b 1 sminOp

/-- MAX (R105). -/
def execMax (g : Guard) (d : BitVec 6) (a : BitVec 6) (b : BitVec 6) (s : State) : Outcome :=
  s.binary g (.max g d a b) d a b 1 smaxOp

/-- MINU (R105). -/
def execMinu (g : Guard) (d : BitVec 6) (a : BitVec 6) (b : BitVec 6) (s : State) : Outcome :=
  s.binary g (.minu g d a b) d a b 1 uminOp

/-- MAXU (R105). -/
def execMaxu (g : Guard) (d : BitVec 6) (a : BitVec 6) (b : BitVec 6) (s : State) : Outcome :=
  s.binary g (.maxu g d a b) d a b 1 umaxOp

/-- MUL (R105). -/
def execMul (g : Guard) (d : BitVec 6) (a : BitVec 6) (b : BitVec 6) (s : State) : Outcome :=
  s.binary g (.mul g d a b) d a b 3 (· * ·)

/-- MULH (R105). -/
def execMulh (g : Guard) (d : BitVec 6) (a : BitVec 6) (b : BitVec 6) (s : State) : Outcome :=
  s.binary g (.mulh g d a b) d a b 3 (mulHigh true)

/-- MULHU (R105). -/
def execMulhu (g : Guard) (d : BitVec 6) (a : BitVec 6) (b : BitVec 6) (s : State) : Outcome :=
  s.binary g (.mulhu g d a b) d a b 3 (mulHigh false)

/-- MAD (R105). -/
def execMad (g : Guard) (d : BitVec 6) (a : BitVec 6) (b : BitVec 6) (s : State) : Outcome :=
  s.slotOp g (.mad g d a b) fun s => .done (s.deliver d (s.srcD d + s.srcA a * s.srcB b) 3)

/-- DIV (R106). -/
def execDiv (g : Guard) (d : BitVec 6) (a : BitVec 6) (b : BitVec 6) (s : State) : Outcome :=
  s.divide g (.div g d a b) d a b divOp

/-- DIVU (R106). -/
def execDivu (g : Guard) (d : BitVec 6) (a : BitVec 6) (b : BitVec 6) (s : State) : Outcome :=
  s.divide g (.divu g d a b) d a b divuOp

/-- REM (R106). -/
def execRem (g : Guard) (d : BitVec 6) (a : BitVec 6) (b : BitVec 6) (s : State) : Outcome :=
  s.divide g (.rem g d a b) d a b remOp

/-- REMU (R106). -/
def execRemu (g : Guard) (d : BitVec 6) (a : BitVec 6) (b : BitVec 6) (s : State) : Outcome :=
  s.divide g (.remu g d a b) d a b remuOp

/-- CLZ (R105). -/
def execClz (g : Guard) (d : BitVec 6) (a : BitVec 6) (s : State) : Outcome :=
  s.unary g (.clz g d a) d a clzOp

/-- POPC (R105). -/
def execPopc (g : Guard) (d : BitVec 6) (a : BitVec 6) (s : State) : Outcome :=
  s.unary g (.popc g d a) d a popcOp

/-- BFX (R107). -/
def execBfx (g : Guard) (d : BitVec 6) (a : BitVec 6) (b : BitVec 6) (s : State) : Outcome :=
  s.binary g (.bfx g d a b) d a b 1 bfxOp

/-- BFI (R107). -/
def execBfi (g : Guard) (d : BitVec 6) (a : BitVec 6) (b : BitVec 6) (s : State) : Outcome :=
  s.slotOp g (.bfi g d a b) fun s => .done (s.deliver d (bfiOp (s.srcD d) (s.srcA a) (s.srcB b)) 1)

/-- SEL (R105). -/
def execSel (g : Guard) (d : BitVec 6) (a : BitVec 6) (b : BitVec 6) (p : BitVec 3) (s : State) : Outcome :=
  s.slotOp g (.sel g d a b p) fun s =>
    .done (s.deliver d (if readP s.regs p then s.srcA a else s.srcB b) 1)

/-- ADDX (R105). -/
def execAddx (g : Guard) (d : BitVec 6) (a : BitVec 6) (b : BitVec 6) (p : BitVec 3) (s : State) : Outcome :=
  s.slotOp g (.addx g d a b p) fun s =>
    .done (s.deliver d (s.srcA a + s.srcB b + (if readP s.regs p then 1 else 0)) 1)

/-- SEXT (R105). -/
def execSext (g : Guard) (d : BitVec 6) (a : BitVec 6) (w : BitVec 3) (s : State) : Outcome :=
  s.unary g (.sext g d a w) d a (sextOp · w)

/-- ZEXT (R105). -/
def execZext (g : Guard) (d : BitVec 6) (a : BitVec 6) (w : BitVec 3) (s : State) : Outcome :=
  s.unary g (.zext g d a w) d a (zextOp · w)

/-- ADDI (R108). -/
def execAddi (g : Guard) (d : BitVec 6) (a : BitVec 6) (i : BitVec 9) (s : State) : Outcome :=
  s.immediate g (.addi g d a i) d a i (· + ·)

/-- ANDI (R108). -/
def execAndi (g : Guard) (d : BitVec 6) (a : BitVec 6) (i : BitVec 9) (s : State) : Outcome :=
  s.immediate g (.andi g d a i) d a i (· &&& ·)

/-- ORI (R108). -/
def execOri (g : Guard) (d : BitVec 6) (a : BitVec 6) (i : BitVec 9) (s : State) : Outcome :=
  s.immediate g (.ori g d a i) d a i (· ||| ·)

/-- XORI (R108). -/
def execXori (g : Guard) (d : BitVec 6) (a : BitVec 6) (i : BitVec 9) (s : State) : Outcome :=
  s.immediate g (.xori g d a i) d a i (· ^^^ ·)

/-- SHLI (R108). -/
def execShli (g : Guard) (d : BitVec 6) (a : BitVec 6) (i : BitVec 9) (s : State) : Outcome :=
  s.immediate g (.shli g d a i) d a i (fun a b => a <<< amount b)

/-- SHRI (R108). -/
def execShri (g : Guard) (d : BitVec 6) (a : BitVec 6) (i : BitVec 9) (s : State) : Outcome :=
  s.immediate g (.shri g d a i) d a i (fun a b => a >>> amount b)

/-- SRAI (R108). -/
def execSrai (g : Guard) (d : BitVec 6) (a : BitVec 6) (i : BitVec 9) (s : State) : Outcome :=
  s.immediate g (.srai g d a i) d a i (fun a b => a.sshiftRight (amount b))

/-- MOVI (R109). -/
def execMovi (g : Guard) (d : BitVec 6) (i : BitVec 15) (s : State) : Outcome :=
  s.slotOp g (.movi g d i) fun s => .done (s.deliver d (i.signExtend 64) 1)

/-- LDK (R109). -/
def execLdk (g : Guard) (d : BitVec 6) (k : BitVec 15) (s : State) : Outcome :=
  s.slotOp g (.ldk g d k) fun s =>
    if s.myCore.binding.c ≤ k.toNat then s.illenc
    else .done (s.deliver d (s.myCore.constant k.toNat) 3)

/-- CMP (R110). -/
def execCmp (g : Guard) (p : BitVec 3) (c : BitVec 3) (a : BitVec 6) (b : BitVec 6) (s : State) : Outcome :=
  s.slotOp g (.cmp g p c a b) fun s => .done (s.deliverP p (condOp c (s.srcA a) (s.srcB b)))

/-- CMPI (R110). -/
def execCmpi (g : Guard) (p : BitVec 3) (c : BitVec 3) (a : BitVec 6) (i : BitVec 9) (s : State) : Outcome :=
  s.slotOp g (.cmpi g p c a i) fun s => .done (s.deliverP p (condOp c (s.srcA a) (i.signExtend 64)))

/-- PLOG (R111). -/
def execPlog (g : Guard) (d : BitVec 3) (f : BitVec 3) (a : BitVec 3) (b : BitVec 3) (s : State) : Outcome :=
  s.slotOp g (.plog g d f a b) fun s =>
    .done (s.deliverP d (plogOp f (readP s.regs a) (readP s.regs b)))

/-- MOVC (R112). -/
def execMovc (g : Guard) (d : BitVec 6) (c : BitVec 9) (s : State) : Outcome :=
  s.slotOp g (.movc g d c) fun s =>
    if s.isS && cregNotS c.toNat then s.illenc
    else .done (s.deliver d (BitVec.ofNat 64 (s.readC c.toNat)) 2)

/-- MOVTC (R112). -/
def execMovtc (g : Guard) (a : BitVec 6) (c : BitVec 9) (s : State) : Outcome :=
  s.slotOp g (.movtc g a c) fun s =>
    if s.isS && cregNotS c.toNat then s.illenc
    else if cregPlainRW c.toNat then .done (s.writeLate c.toNat (s.srcA a)) else s.priv

/-- MOVTC_SHAPE (R129). -/
def execMovtcShape (g : Guard) (a : BitVec 6) (s : State) : Outcome :=
  s.moveTo g (.movtcShape g a) 0x040 a fun _ x => shapeOk x

/-- MOVTC_FFLAGS (R91). -/
def execMovtcFflags (g : Guard) (a : BitVec 6) (s : State) : Outcome :=
  s.moveTo g (.movtcFflags g a) 0x041 a fun _ _ => true

/-- MOVTC_RMODE (R76). -/
def execMovtcRmode (g : Guard) (a : BitVec 6) (s : State) : Outcome :=
  s.moveTo g (.movtcRmode g a) 0x042 a fun _ x => decide (bitsOf x 2 0 < 6)

/-- MOVTC_LFSR (R81). -/
def execMovtcLfsr (g : Guard) (a : BitVec 6) (s : State) : Outcome :=
  s.moveTo g (.movtcLfsr g a) 0x043 a fun _ _ => true

/-- MOVTC_LC (R117). -/
def execMovtcLc (g : Guard) (a : BitVec 6) (l : BitVec 2) (s : State) : Outcome :=
  s.moveTo g (.movtcLc g a l) (0x010 + l.toNat) a fun _ _ => true

/-- MOVTC_GQT (R227). -/
def execMovtcGqt (g : Guard) (a : BitVec 6) (s : State) : Outcome :=
  s.slotOp g (.movtcGqt g a) fun s =>
    if s.isS then s.illenc
    else if s.me.gqAddr.isEmpty && s.me.gqData.isEmpty then .done (s.writeLate 0x0E0 (s.srcA a)) else s.struct_ 11

/-- MOVTC_CERR (R215). -/
def execMovtcCerr (g : Guard) (a : BitVec 6) (s : State) : Outcome :=
  s.moveTo g (.movtcCerr g a) 0x0E3 a fun _ _ => true

/-- MOVTC_SNAPBASE (R334). -/
def execMovtcSnapbase (g : Guard) (a : BitVec 6) (s : State) : Outcome :=
  s.moveTo g (.movtcSnapbase g a) 0x1E3 a fun _ _ => true

end Sys2Proof.Machine
end

