-- ==== Sys2Proof/Machine/Entry.lean ====
section
/-! DEFINITION. The state at the entry of a strand or a slice (R95, R124, R291, R313, R316). -/

namespace Sys2Proof.Machine

/-- The entries of the bind table of a bound core, its header left out (R313). -/
def Core.bindTable (k : Core) (flags : Half) : List Dword :=
  let c := k.binding.c
  if !flags.getLsbD 4 || decide (c = 0) then []
  else
    let n := bitsOf (k.constant (c - 1)) 15 0
    (List.range n).map fun i => k.constant (c - 1 - n + i)

/-- The kind and the number of a bind-table entry (R313). -/
def bindKind (e : Dword) : Nat := bitsOf e 63 60
def bindNum (e : Dword) : Nat := bitsOf e 59 56

/-- g0 to g7 as the bind table gives them, empty without one (R313, R316). -/
def entryRegions (t : List Dword) : Map Addr :=
  t.foldl (fun m e =>
    let a : Addr := BitVec.ofNat 52 (bitsOf e 44 0 * 128)
    if bindKind e = 3 then Map.put 0 m (2 * bindNum e) a
    else if bindKind e = 4 then Map.put 0 m (2 * bindNum e + 1) a
    else m) []

/-- The draw state for a seed S (R81). -/
def seedOf (n : Nat) : Word :=
  let x : Word := 0x9E3779B9#32 ^^^ BitVec.ofNat 32 n
  if x = 0 then 1 else x

/-- Registers at entry (R95, R124, R316): the address, the scalars, and the seed. -/
def Core.entryRegs (k : Core) (flags : Half) (pc : Addr) (scalars : Map Dword) (seed : Nat) : Regs :=
  { pc := pc, s := scalars, lfsr := seedOf seed, region := entryRegions (k.bindTable flags) }

/-- A transfer that no longer belongs to its context's tile register. -/
def Xfer.disown (t : Xfer) : Xfer :=
  match t.kind with
  | .tld _ d m va => { t with kind := .tld 32 d m va }
  | .tcpy _ d s => { t with kind := .tcpy 32 d s }
  | _ => t

/-- A strand or a slice begins in a context: no tile register of it is busy, what is still pending from before
changes none of them (R201), and the context has not issued (R98). -/
def Core.newStrand (k : Core) (x : Nat) : Core :=
  { k with
    order := k.order.filter (· ≠ x),
    score := k.score.map fun e => if e.ctx = x then { e with reg := 32 } else e,
    retires := k.retires.map fun r => if r.ctx = x then { r with reg := 32, flags := 0 } else r,
    xfers := k.xfers.map fun t => if t.ctx = x then t.disown else t,
    links := k.links.map fun l => (l.1, { l.2 with
      recv := l.2.recv.map fun r => if r.ctx = x then { r with reg := 32 } else r }) }

/-- A context begins to run with fresh registers; what it has outstanding from before goes on. -/
def Ctx.enter (c : Ctx) (r : Regs) (prio : BitVec 4) (ch : Half) : Ctx :=
  { life := .running, regs := r, prio := prio, chmask := ch, seq := c.seq, acc := c.acc, mq := c.mq,
    dirty := c.dirty }

end Sys2Proof.Machine
end

