-- ==== Sys2Proof/Machine/Dev.lean ====
section
/-! DEFINITION. Reads and writes that an op itself makes at the homes, at device scope (R217, R257). -/

namespace Sys2Proof.Machine

/-- The engine that the running op acts as. -/
def State.opAgent (s : State) : Agent :=
  s.agent s.who 19 (BitVec.ofNat 32 (s.cur.ctx * 16 + s.cur.slot))

/-- What went wrong with a word of a span at a home: LOST, or an uncorrectable error (R260, R354). -/
def State.homeFault (s : State) (k n : Nat) : OpRes :=
  match (List.range ((k + n + 3) / 4 - k / 4)).find? (fun i =>
      match s.ownerOf ((k / 4 + i) * 4) with
      | some o => decide (o.agent = ownLost)
      | none => false) with
  | some i => .trap cOWNLOST (BitVec.ofNat 64 (s.unkey ((k / 4 + i) * 4)))
  | none =>
    let bad := (List.range ((k + n + 3) / 4 - k / 4)).find? fun i => s.badAt ((k / 4 + i) * 4)
    .poison 5 (s.unkey (match bad with
      | some i => (k / 4 + i) * 4
      | none => k))

/-- What an engine's access means for the op that made it. -/
def State.engOp {α : Type} (s : State) (k n : Nat) : EngRes α → Except OpRes α
  | .ok x => .ok x
  | .need .wait => .error (s.blockOn condOrder)
  | .need m => .error (.block [.need s.cur.slot m])
  | .err _ => .error (s.homeFault k n)

/-- One piece of a device-scope read. -/
def State.devPiece (s : State) (p : Place) (n : Nat) : Except OpRes (List Byte) :=
  if s.isRemote p.pa then
    let x : Wait := .native s.cur.slot 1 p.pa n 0 []
    match s.me.reply x with
    | some r => if r.status = 0 then .ok r.bytes else .error (statusFault r.status p.va p.pa)
    | none => .error (.block [x])
  else
    match s.refusedBy s.dev.node.toNat s.myCore.asid p.key [0] with
    | some d => .error (.denied d p.va)
    | none =>
      if isAgent p.key then .ok (s.agentRead p.key n)
      else
        match s.recipeGate s.who p.key p.va with
        | some r => .error r
        | none => s.engOp p.key n (s.engBytes s.opAgent p.key n)

/-- Translate every line of a span for the running op (R265). -/
def State.linePlaces (s : State) (va n : Nat) (a : Access) : Except OpRes (List (Place × Nat)) :=
  exAll (fun (q : Nat × Nat) =>
    match s.translate s.who q.1 a with
    | .ok p => .ok (p, q.2)
    | .error e => .error e) (linesOf va n)

/-- Read `n` bytes at a virtual address or in the pool window at device scope. -/
def State.devRead (s : State) (va n : Nat) : Except OpRes (List Byte) :=
  match s.windowCheck va n with
  | some r => .error r
  | none =>
    if inWindow va then
      match (List.range n).find? (fun i => (4, (va + i) / 8) ∈ s.myCore.poison) with
      | some i => .error (.poison 4 ((va + i) / 8 * 8))
      | none => .ok (s.myCore.poolRead va n)
    else
      match s.linePlaces va n .read with
      | .error r => .error r
      | .ok ps => joinPieces (ps.map fun p => s.devPiece p.1 p.2)

/-- Write parts that have been checked as bypassing writes, and go on once all are applied (R257). -/
def devWriteParts (g : Agent) (f : State → OpRes) : List Write → State → OpRes
  | [], s => f s
  | p :: t, s =>
    match p.pa with
    | none => devWriteParts g f t (s.setMyCore (s.myCore.poolWrite p.va p.bytes))
    | some pa =>
      if s.isRemote pa then
        let x : Wait := .native s.cur.slot 3 pa p.bytes.length 0 p.bytes
        match s.me.reply x with
        | some r => if r.status = 0 then devWriteParts g f t s else statusFault r.status p.va pa
        | none => .block [x]
      else if isAgent (s.key pa) then
        match s.storePart s.who s.me.seq 15 p with
        | some s => devWriteParts g f t s
        | none => s.blockOn condRegs
      else
        match s.engOp (s.key pa) p.bytes.length (s.engPut g (s.key pa) p.bytes) with
        | .ok s => devWriteParts g f t s
        | .error r => r

/-- Write bytes at a virtual address at device scope, and go on once they are applied. -/
def State.devWrite (s : State) (va : Nat) (bs : List Byte) (f : State → OpRes) : OpRes :=
  match s.storeParts va bs with
  | .error r => r
  | .ok ps => devWriteParts s.opAgent (fun s => f (s.engDone s.opAgent)) ps s

/-- Go on once every earlier access of the context is performed at a scope (R272). -/
def State.afterEarlier (s : State) (scope : Nat) (f : State → OpRes) : OpRes :=
  match s.waitPerformed scope with
  | some r => r
  | none => f s

/-- The same, and once no segment holds egress (R357). -/
def State.afterAll (s : State) (scope : Nat) (f : State → OpRes) : OpRes :=
  s.unheld fun s => s.afterEarlier scope f

/-- The running op's invalidation has been made: what its load had read before (R273, R280). -/
def State.acquired (s : State) : Option (List Byte) :=
  (s.me.replies.find? fun r => match r.wait with
    | .acq n _ => decide (n = s.cur.slot)
    | _ => false).map (·.bytes)

/-- An acquire of the running op at a scope: above core scope it invalidates V words (R262, R280). -/
def State.acquiring (s : State) (scope : Nat) (f : State → OpRes) : OpRes :=
  if scope = 0 then f s
  else
    match s.acquired with
    | some _ => f s
    | none => .block [.acq s.cur.slot []]

end Sys2Proof.Machine
end

