-- ==== Sys2Proof/Machine/Flow.lean ====
section
/-! DEFINITION. The C-slot instructions: branches, loops, the end of a strand, waits, barriers, segments,
fences, traps and returns. -/

namespace Sys2Proof.Machine

/-- An op that acts when its bundle has committed. -/
def State.finishWith (s : State) (f : Nat) : OpRes := .done (s.setCur { s.cur with fin := f })

/-- Deliver the link to s63 (R113, R114). In the last bundle of a packet it waits until the next packet can be looked at
(log entry 97). -/
def State.link (s : State) (f : State → OpRes) : OpRes :=
  match s.successor with
  | .error r => r
  | .ok a => f (s.deliver 63#6 (a.setWidth 64) 1)

/-- The body of an active loop contains the address. -/
def loopHolds (r : Regs) (n a : Nat) : Bool :=
  decide ((Map.get 0 r.loopStart n).toNat ≤ a) && decide (a ≤ (Map.get 0 r.loopEnd n).toNat)

/-- The sub-reason of a loop set-up that breaks R118; of several cases at once 2 is reported, then 4, then 3 (log
entry 95). -/
def State.loopFault (s : State) (l last : Nat) : Option Nat :=
  let r := s.regs
  let pc := r.pc.toNat
  if l ∈ r.loopOrd then some 2
  else if r.loopOrd.any (fun n => decide (Map.get 0 r.loopEnd n = r.pc)) then some 4
  else if r.loopOrd.any (fun n => loopHolds r n pc && decide ((Map.get 0 r.loopEnd n).toNat < last)) then some 3
  else none

/-- The address after the bundle at `a` (R40). -/
def State.succAt (s : State) (a : Nat) : Addr :=
  match Map.get [] s.myCore.pkts (a / 64) with
  | [] => BitVec.ofNat 52 a
  | p => succOf p (a / 64 * 64) (a % 64 / 2)

/-- Set up a loop of `n` passes whose last bundle lies `o` code words on (R116 to R118). The cases of R118 are judged of a
count of 0 as of any other (log entry 97). -/
def State.setLoop (s : State) (l : BitVec 2) (n : Dword) (o : Nat) : OpRes :=
  let last := (s.regs.pc.toNat + 2 * o) % 2 ^ 52
  match s.loopFault l.toNat last with
  | some k => s.struct_ k
  | none =>
    if n = 0 then
      s.toTarget last true fun s =>
        .done ((s.setCur { s.cur with jump := some (s.succAt last) }).deliverLc l 0)
    else
      s.toTarget last false fun s =>
        match s.successor with
        | .error r => r
        | .ok a =>
          let r := s.regs
          let new := (Map.put 0 r.loopStart l.toNat a, Map.put 0 r.loopEnd l.toNat (BitVec.ofNat 52 last),
            l.toNat :: r.loopOrd)
          .done ((s.setCur { s.cur with loops := some new }).deliverLc l n)

/-- The running context holds the plane. -/
def State.holdsPlane (s : State) : Bool := decide (s.myCore.plane.holder = some s.cur.ctx)

/-- PLANEF with a sub-reason (R174). -/
def State.planef (s : State) (sub : Nat) : OpRes := .trap cPLANEF (s.opInfo sub)

/-- A channel of the context (R213). -/
def State.ownsChannel (s : State) (ch : BitVec 4) : Bool := s.viewCtx.chmask.getLsbD ch.toNat

/-- The transfer `x` of a channel has completed (R214, R229). -/
def Core.completed (k : Core) (ch : Nat) (x : Word) : Bool :=
  let d := (Map.get 0 k.cdone ch - x).toNat
  decide (0 < d) && decide (d ≤ 2 ^ 31)

/-- A segment still holds a transfer of the channel whose identifier is not after `x` (R357). -/
def State.heldId (s : State) (ch : Nat) (x : Word) : Bool :=
  s.myCore.xfers.any fun t => decide (t.ch = ch) && t.held && decide ((x - t.id).toNat < 2 ^ 31) &&
    decide (t.ctx = s.cur.ctx)

/-- A tile register's busy bit is set (R202); a stream that reads the tile sets none (R193; log entry 98). -/
def Core.tileBusy (k : Core) (ctx reg : Nat) : Bool :=
  k.score.any fun e => e.write && decide (e.ctx = ctx) && decide (e.reg = reg)

/-- The same of a register of the running context as its bundle issues: what the bundle itself starts does not
block it (R97, R202; log entry 10). -/
def State.busy (s : State) (reg : Nat) : Bool :=
  Core.tileBusy { s.myCore with score := s.myCore.score.filter fun e => decide (e.key < s.cur.key0) } s.cur.ctx reg

/-- CNEXT as it stands when the bundle issues (R214). -/
def State.cnextBefore (s : State) (ch : Nat) : Word :=
  let k := s.myCore
  Map.get 0 k.cnext ch - BitVec.ofNat 32 (k.xfers.countP fun t => decide (t.ch = ch) && decide (s.cur.key0 ≤ t.key))

/-- The strand of the running context and its launch. -/
def State.myStrand (s : State) : Option (Strand × Launch) :=
  s.me.strand.map fun st => (st, s.launch st.launch)

/-- A member of the strand's level-`n` group other than itself that was lost: TRAPINFO (R359). -/
def lostInfo (st : Strand) (l : Launch) (n : Nat) : Option Dword :=
  (l.lost.find? fun p => decide (p.1 ≠ st.num) && decide (p.1 ∈ groupMembers l n st.num)).map fun p =>
    BitVec.ofNat 64 (p.2 * 2 ^ 20 + n * 2 ^ 16 + lvlIndex (levelsOf l.rc) n p.1)

/-- The wait of a BAR at level `n` once the release has been made (R319). -/
def State.barrier (s : State) (st : Strand) (l : Launch) (n : Nat) : OpRes :=
  match lostInfo st l n with
  | some info => .trapIn (s.tripGroup st.launch n st.num) cGANGABORT info
  | none =>
    let key := st.num * 8 + n
    let count := Map.get 0 l.arrived key
    if Map.get 0 l.passed key < count ∧ (groupMembers l n st.num).all (l.arrivedAt n count) then
      s.acquiring (lvScope ((levelsOf l.rc).getD n 0)).toNat fun s =>
        let l := s.launch st.launch
        .done (s.setLaunch st.launch { l with passed := Map.put 0 l.passed key count })
    else .block [.bar n]

/-- A member of the strand's innermost gang group other than itself is rewinding (R359). -/
def State.gangRewinds (s : State) : Bool :=
  match s.myStrand with
  | none => false
  | some (st, l) =>
    match innerGang l.rc with
    | none => false
    | some n => (groupMembers l n st.num).any fun k =>
        decide (k ≠ st.num) && match strandAt l k with
          | some w => (s.ctx w).seg.rewinding
          | none => s.dev.saved.any fun v => match v.2 with
            | some v => decide (v.strand.launch = st.launch) && decide (v.strand.num = k) && v.seg.rewinding
            | none => false

/-- The slots of the bundle at an address; all of them when it cannot be had, so that its fetch is what faults
(R341). -/
def State.presentAt (s : State) (pc : Addr) : Except Wait Nat :=
  match s.myCore.fetch s.isRegrow pc with
  | .bundle _ ops _ _ => .ok (ops.map fun o => 2 ^ o.1).sum
  | .bad .. => .ok 0
  | .poison .. => .ok (2 ^ 11 - 1)
  | .absent _ => match s.packetWait s.who pc.toNat with
    | some x => .error x
    | none => .ok (2 ^ 11 - 1)
  | .skip _ => .ok 0

/-- A FENCE in force from its place in program order on; fences that nothing waits for any more are dropped
(R282). -/
def State.addFence (s : State) (bm am : Half) (scope : BitVec 2) : State :=
  let c := s.me
  let live := c.fences.filter fun f => !c.performed f.seq f.bm f.scope.toNat
  let s := s.setMe { c with seq := c.seq + 1, fences := live ++ [⟨c.seq + 1, bm, am, scope⟩] }
  if scope = 3#2 then s.askFlush s.who else s

/-! ## Meanings -/

/-- BR (R113). -/
def execBr (g : Guard) (o : BitVec 21) (s : State) : Outcome :=
  s.slotOp g (.br g o) fun s => s.goTo (s.relTarget o.toInt) true .done

/-- BRI (R114). -/
def execBri (g : Guard) (a : BitVec 6) (s : State) : Outcome :=
  s.slotOp g (.bri g a) fun s => s.goTo (s.srcA a).toNat true .done

/-- CALL (R113). -/
def execCall (g : Guard) (o : BitVec 21) (s : State) : Outcome :=
  s.slotOp g (.call g o) fun s => s.goTo (s.relTarget o.toInt) false fun s => s.link .done

/-- CALLI (R114). -/
def execCalli (g : Guard) (a : BitVec 6) (s : State) : Outcome :=
  s.slotOp g (.calli g a) fun s => s.goTo (s.srcA a).toNat false fun s => s.link .done

/-- RET (R114). -/
def execRet (g : Guard) (s : State) : Outcome :=
  s.slotOp g (.ret g) fun s => s.goTo (readS s.regs 63#6).toNat false .done

/-- LOOP (R116). -/
def execLoop (g : Guard) (l : BitVec 2) (a : BitVec 6) (o : BitVec 13) (s : State) : Outcome :=
  s.slotOp g (.loop g l a o) fun s => s.setLoop l (s.srcA a) o.toNat

/-- LOOPI (R116). -/
def execLoopi (g : Guard) (l : BitVec 2) (c : BitVec 10) (o : BitVec 9) (s : State) : Outcome :=
  s.slotOp g (.loopi g l c o) fun s => s.setLoop l (c.setWidth 64) o.toNat

/-- END (R122). The plane is held that the PREL of END's own bundle releases (log entry 97). -/
def execEndStrand (g : Guard) (s : State) : Outcome :=
  s.slotOp g (.endStrand g) fun s =>
    if s.isS || s.isRegrow then s.illenc
    else if s.holdsPlane then s.planef 11
    else s.finishWith finEnd

/-- YIELD (R123). -/
def execYield (g : Guard) (s : State) : Outcome :=
  s.slotOp g (.yield g) fun s => s.finishWith finYield

/-- WAITID (R229). R24 says of an identifier that no transfer takes that the op waits for ever, R229 that it raises
STRUCT 12: the rule of the op is followed (log entry 91). -/
def execWaitid (g : Guard) (h : BitVec 4) (a : BitVec 6) (s : State) : Outcome :=
  s.slotOp g (.waitid g h a) fun s =>
    let x : Word := (s.srcA a).extractLsb' 0 32
    let k := s.myCore
    let d := Map.get 0 k.cdone h.toNat
    if !s.ownsChannel h then s.struct_ 10
    else if decide ((s.cnextBefore h.toNat - d).toNat ≤ (x - d).toNat) && !k.completed h.toNat x then s.struct_ 12
    else if k.completed h.toNat x then .done s
    else if s.heldId h.toNat x then s.unheld .done
    else s.blockOn condChannel

/-- WAITT (R207). -/
def execWaitt (g : Guard) (t : BitVec 5) (s : State) : Outcome :=
  s.slotOp g (.waitt g t) fun s =>
    if s.isS then s.illenc
    else if s.busy t.toNat then s.blockOn condTile
    else .done s

/-- BAR (R319). -/
def execBar (g : Guard) (l : BitVec 3) (s : State) : Outcome :=
  s.slotOp g (.bar g l) fun s =>
    if s.isS || s.isRegrow then s.illenc
    else
      match s.myStrand with
      | none => s.illenc
      | some (st, lc) =>
        if !gangLevel lc.rc l.toNat then s.illenc
        else
          let sc := (lvScope ((levelsOf lc.rc).getD l.toNat 0)).toNat
          s.afterAll sc fun s =>
            match (if sc = 3 then s.storeFailure 0xFFFF else none) with
            | some r => r
            | none => s.barrier st lc l.toNat

/-- RDV (R360). -/
def execRdv (g : Guard) (r : BitVec 1) (s : State) : Outcome :=
  s.slotOp g (.rdv g r) fun s =>
    if s.isS then s.illenc
    else if s.me.h then s.priv
    else if s.gangRewinds then s.blockOn condRewind
    else if !s.me.heldE.isEmpty then s.blockOn condRelease
    else
      match s.me.gangAbort with
      | some info => .trapIn (s.setMe { s.me with gangAbort := none }) cGANGABORT info
      | none => s.finishWith (if r = 1#1 then finRdvRw else finRdv)

/-- FENCE (R282). -/
def execFence (g : Guard) (a : BitVec 6) (sh : BitVec 2) (s : State) : Outcome :=
  s.slotOp g (.fence g a sh) fun s =>
    let m := s.srcA a
    let bm : Half := m.extractLsb' 0 16
    let am : Half := m.extractLsb' 16 16
    let go (s : State) : OpRes := s.reporting (decide (sh = 3#2)) bm fun s =>
      if bm = 0 ∨ am = 0 then .done s else .done (s.addFence bm am sh)
    if sh = 0#2 then go s else s.unheld go

/-- LZWAIT (R245). -/
def execLzwait (g : Guard) (b : BitVec 3) (d : BitVec 6) (s : State) : Outcome :=
  s.slotOp g (.lzwait g b d) fun s =>
    let k := s.myCore
    let w := k.barrier b.toNat
    if abState w = 0 then s.struct_ 14
    else if abState w = 1 then s.blockOn (condBarrier + b.toNat)
    else if abState w = 3 ∧ d = 0#6 then .trap cLZFAIL w
    else
      let s := s.deliver d w 1
      .done (if abState w = 2 then
        s.setMyCore ((k.spend b.toNat).setBarrier b.toNat (abWord 0 (abZone w) (abPending w))) else s)

/-- SPAWN (R318). -/
def execSpawn (g : Guard) (a : BitVec 6) (s : State) : Outcome :=
  s.slotOp g (.spawn g a) fun s =>
    let ea := (s.srcA a).toNat
    let die := coreDie s.cur.core
    if s.isS || s.isRegrow then s.illenc
    else if ea % 256 ≠ 0 then alignFault ea
    else
      match s.windowCheck ea 256 with
      | some r => r
      | none =>
        match (if inWindow ea then .ok [] else s.linePlaces ea 256 .read) with
        | .error r => r
        | .ok _ =>
          s.afterAll 2 fun s =>
            match s.devRead ea 256 with
            | .error r => r
            | .ok bs =>
              let q := Map.get [] s.dev.spawnQ die
              if 64 ≤ q.length then s.blockOn condOrder
              else
                let s := s.engDone s.opAgent
                let rec_ := ((s.launch s.myCore.binding.launch).queue, bs)
                let s := s.setDev { s.dev with spawnQ := Map.put [] s.dev.spawnQ die (q ++ [rec_]) }
                .done (s.post (.launchSeal (65536 + die)))

/-- TRAP (R348). -/
def execTrap (g : Guard) (i : BitVec 16) (s : State) : Outcome :=
  s.slotOp g (.trap g i) fun s =>
    if s.isS then s.finishWith finEscalate else .trap cSWTRAP (i.setWidth 64)

/-- TRET (R349). -/
def execTret (g : Guard) (s : State) : Outcome :=
  s.slotOp g (.tret g) fun s =>
    let c := s.me
    if s.isS || !c.h then s.priv
    else if !c.sv then .trap cTRETF (s.opInfo 1)
    else if imgWord c.snap 8 % 2 ^ 32 = 0 then s.finishWith (if c.imageBad 0 then finTretBad else finTret)
    else
      match s.presentAt (BitVec.ofNat 52 (imgWord c.snap 3)) with
      | .error x => .block [x]
      | .ok present => s.finishWith (if c.imageBad present then finTretBad else finTret)

/-- SNAPREL (R350). -/
def execSnaprel (g : Guard) (s : State) : Outcome :=
  s.slotOp g (.snaprel g) fun s => if s.isS || !s.me.h then s.priv else s.finishWith finSnaprel

/-- HOLDRET (R351). -/
def execHoldret (g : Guard) (s : State) : Outcome :=
  s.slotOp g (.holdret g) fun s => if s.isS then s.finishWith finHoldret else s.priv

/-- A word of the tile is on its way home. -/
def leavesTile (tile : Nat) (i : Instr) : Bool :=
  match i with
  | .revoke m => inTile tile m.word
  | .fdata m => inTile tile m.word
  | .wb m => inTile tile m.word
  | .gone m => inTile tile m.word
  | _ => false

/-- What the slice's L1 or a home has begun to send of the output tile has not arrived (R292). -/
def State.outputMoves (s : State) : Bool :=
  match s.me.slice with
  | some sl => s.pending.any (leavesTile sl.tile)
  | none => false

/-- RDONE (R292, R296). -/
def execRdone (g : Guard) (s : State) : Outcome :=
  s.slotOp g (.rdone g) fun s =>
    if !s.isRegrow || s.me.slice.isNone then s.illenc
    else if s.holdsPlane then s.planef 11
    else s.afterAll 2 fun s =>
      if s.outputMoves then s.blockOn condOrder else s.finishWith finRdone

/-- EMPTY_BUNDLE (R42). It takes no slot and passes one context-cycle. -/
def execEmptyBundle (s : State) : Outcome :=
  .next s.closeBundle

/-- RESERVED_ENCODING (R60). A reserved slot word raises slot-level ILLENC, its guard holding. -/
def execReservedEncoding (w : Word) (s : State) : Outcome :=
  s.slotOp ⟨w.extractLsb' 22 3, w.getLsbD 21⟩ (.reservedEncoding w) fun s => s.illenc

end Sys2Proof.Machine
end

