-- ==== Sys2Proof/Machine/Tile.lean ====
section
/-! DEFINITION. The M-slot instructions of tiles, copy channels, the gather queue and circular buffers (R199
to R211, R213 to R228). -/

namespace Sys2Proof.Machine

/-! ## Tile registers and the scoreboard (R199 to R202) -/

def State.tile (s : State) (n : Nat) : TileReg := Map.get {} s.regs.tile n

/-- TPOISON of a tile register (R201). -/
def tpoison (reason reg : Nat) : OpRes := .trap cTPOISON (BitVec.ofNat 64 (reason + 4 * reg))

/-- A tile op of a bundle must wait for what was pending before the bundle (R97, R202; log entry 10). -/
def State.scoreBlocks (s : State) (d : Dword) (write : Bool) : Bool :=
  let (lo, hi) := footprint d
  s.myCore.score.any fun e => decide (e.key < s.cur.key0) && (write || e.write) && overlaps e.lo e.hi lo hi

/-- A fresh scoreboard key. -/
def State.newKey (s : State) : State × Nat :=
  let k := s.myCore
  (s.setMyCore { k with nextKey := k.nextKey + 1 }, k.nextKey)

def State.addScore (s : State) (e : ScoreEntry) : State :=
  let k := s.myCore
  s.setMyCore { k with score := k.score ++ [e] }

/-- A pending access of a tile that the core's scoreboard tracks; remote footprints are not its own. -/
def State.pendTile (s : State) (key reg : Nat) (d : Dword) (write : Bool) : State :=
  if descRemote d then s
  else s.addScore ⟨key, (footprint d).1, (footprint d).2, write, s.cur.ctx, reg⟩

/-- Another context blocked before this one did, for a tile op of an overlapping footprint (R202). -/
def State.tileBehind (s : State) (d : Dword) (write : Bool) : Bool :=
  let (lo, hi) := footprint d
  (s.myCore.tileq.takeWhile fun q => decide (q.ctx ≠ s.cur.ctx)).any fun q =>
    (write || q.write) && overlaps q.lo q.hi lo hi && (s.myCore.ctx q.ctx).tileBlocked

/-- The register of a tile op is busy, its footprint overlaps what is pending, or an op that came to block earlier
goes first (R97, R202). -/
def State.tileWaits (s : State) (reg : Nat) (write : Bool) : Bool :=
  s.busy reg || (!descRemote (s.tile reg).desc &&
    (s.scoreBlocks (s.tile reg).desc write || s.tileBehind (s.tile reg).desc write))

/-! ## Pieces of an image (R203, R217) -/

/-- Ranges without the bytes [o, o + n), which lie in one of them. -/
def cutPiece (o n : Nat) (todo : List (Nat × Nat)) : List (Nat × Nat) :=
  todo.flatMap fun r =>
    if r.1 ≤ o ∧ o + n ≤ r.1 + r.2 then
      [(r.1, o - r.1), (o + n, r.1 + r.2 - (o + n))].filter fun p => decide (p.2 ≠ 0)
    else [r]

/-- A piece of the ranges of an image at `va`, by offset and length: any run of bytes of a 128-byte unit, or all of
the unit that its range holds (R203; log entry 13); none when nothing is left. `a`, `b` and `c` choose. -/
def pieceOf (va a b c : Nat) (whole : Nat → Bool) (todo : List (Nat × Nat)) : Option (Nat × Nat) :=
  match todo[a % todo.length]? with
  | none => none
  | some (o, n) =>
    let x := o + b % n
    let hi := min (o + n) (x + 128 - (va + x) % 128)
    if whole x then
      let lo := max o (x - (va + x) % 128)
      some (lo, hi - lo)
    else some (x, min (hi - x) (c % 128 + 1))

/-- The bytes of a 128-byte unit of an image that are left. -/
def unitLeft (va o : Nat) (todo : List (Nat × Nat)) : Bool :=
  todo.any fun r => overlaps (va + r.1) (va + r.1 + r.2) ((va + o) / 128 * 128) ((va + o) / 128 * 128 + 128)

/-- The ranges of a transfer's image (R203). -/
def XferKind.ranges : XferKind → List (Nat × Nat)
  | .tld _ d mode _ => descRegions d mode
  | .tst _ d mode _ => descRegions d mode
  | .tcpy _ dd _ => descRegions dd 3
  | .tstx d mode _ => descRegions d mode
  | .scatter _ bs => [(0, bs.length)]
  | .copy .. => []

/-- A transfer that starts. -/
def newXfer (ch : Nat) (id : Word) (ctx asid cls seq : Nat) (kind : XferKind) (key : Nat) (held : Bool) : Xfer :=
  { ch, id, ctx, asid, cls, seq, kind, key, held, todo := kind.ranges.filter fun r => decide (r.2 ≠ 0) }

/-! ## Starting a transfer (R214, R217, R219, R357) -/

/-- 64 transfers are outstanding on the channel (R214). -/
def State.channelFull (s : State) (ch : BitVec 4) : Bool := decide (64 ≤ s.myCore.outstanding ch.toNat)

/-- Take an identifier and record the transfer; its access to memory follows class order, and an open
rewindable segment holds its egress. -/
def State.startXfer (s : State) (ch : BitVec 4) (cls key lo hi : Nat) (kind : XferKind) (egress : Bool) : State :=
  let w := s.who
  let (s, hold) := if egress then s.segHold else (s, false)
  let (s, seq) := s.takeSeq w
  let (s, id) := s.takeId s.cur.core ch.toNat
  let x : XferId := ⟨s.cur.core, ch.toNat, id⟩
  let k := s.myCore
  let s := s.setMyCore { k with
    xfers := k.xfers ++ [newXfer ch.toNat id s.cur.ctx k.asid cls seq kind key hold] }
  let op : Late := match kind with
    | .copy .. => .aperture x
    | .tstx .. => .landing x
    | _ => .transfer x
  let c := s.me
  if hold then s.setMe { c with heldE := c.heldE ++ [⟨seq, cls, lo, hi, op⟩] }
  else if c.mustWait false seq seq cls lo hi then s.holdOp w ⟨seq, cls, lo, hi, op⟩
  else
    match op with
    | .aperture _ => (s.addAcc w ⟨seq, cls, lo, hi, .xfer x⟩).post (.apertureStore x)
    | .landing _ => (s.addAcc w ⟨seq, cls, lo, hi, .landing x⟩).post (.transferComplete x)
    | _ => (s.addAcc w ⟨seq, cls, lo, hi, .xfer x⟩).post (.transferComplete x)

/-- A store to a translated piece meets a recipe tile whose state forbids it (R288); a slice's transfer ends
with error 3 instead (R291). -/
def State.spanSealed (s : State) (p : Place) (n : Nat) : Option OpRes :=
  if s.me.slice.isSome then none
  else ((List.range (n / 16384 + 2)).map fun i => max p.key ((p.key / 16384 + i) * 16384)).findSome? fun k =>
    if p.key + n ≤ k then none else s.recipeWrite s.who k (p.va + (k - p.key))

/-- Check the pages of the named regions of an image (R217, R288). -/
def State.imagePages (s : State) (ea : Nat) (d : Dword) (mode : BitVec 2) (a : Access) : Except OpRes Unit :=
  match exAll (fun (r : Nat × Nat) =>
      if r.2 = 0 then .ok ()
      else
        match s.windowCheck (ea + r.1) r.2 with
        | some f => .error f
        | none =>
          if inWindow (ea + r.1) then .ok ()
          else
            match s.translateSpan s.who (ea + r.1) r.2 a with
            | .ok ps =>
              (match if a = .write then ps.findSome? fun p => s.spanSealed p.1 p.2 else none with
               | some f => .error f
               | none => .ok ())
            | .error f => .error f) (descRegions d mode) with
  | .ok _ => .ok ()
  | .error f => .error f

/-- A mode bit names a region that the tile lacks (R217). -/
def modeLacks (d : Dword) (mode : BitVec 2) : Bool :=
  (mode.getLsbD 0 && !descMeta d) || (mode.getLsbD 1 && !descScales d)

/-- TLD and TST (R217). -/
def State.tileMove (s : State) (t : BitVec 5) (a : BitVec 6) (c h : BitVec 4) (m : BitVec 2) (load : Bool) :
    OpRes :=
  let r := s.tile t.toNat
  let ea := (s.srcA a).toNat
  if s.isS then s.illenc
  else if !s.ownsChannel h then s.struct_ 10
  else if descRemote r.desc then prot 6 ea
  else if modeLacks r.desc m then s.struct_ 9
  else if s.busy t.toNat then s.blockOn condTile
  else if !load && decide (r.poison ≠ 0) then tpoison r.poison.toNat t.toNat
  else if ea % 128 ≠ 0 then alignFault ea
  else
    match s.imagePages ea r.desc m (if load then .read else .write) with
    | .error f => f
    | .ok _ =>
      if s.channelFull h then s.blockOn condChannel
      else if s.tileWaits t.toNat load then s.blockOn condTile
      else
        let (s, key) := s.newKey
        let s := s.pendTile key t.toNat r.desc load
        .done (s.startXfer h c.toNat key ea (ea + descSpan r.desc m)
          (if load then .tld t.toNat r.desc m ea else .tst t.toNat r.desc m ea) (!load && !inWindow ea))

/-! ## The gather queue (R227, R228) -/

/-- GQT's row size, class, channel and table base (R215). -/
def gqRow (t : Dword) : Nat := (bitsOf t 63 60 + 1) * 64
def gqClass (t : Dword) : Nat := bitsOf t 55 52
def gqChannel (t : Dword) : BitVec 4 := t.extractLsb' 56 4
def gqBase (t : Dword) : Nat := bitsOf t 51 6 * 64

/-- The address of a row. -/
def gqAddrOf (t : Dword) (i : Dword) : Nat := gqBase t + i.toNat * gqRow t

/-- A vector operand that the launch's window holds (R50, R124). -/
def State.inVectors (s : State) (v : BitVec 7) : Bool :=
  if v.toNat < 64 then decide (v.toNat < s.myCore.win) else true

/-- Read a span for an engine; a window address reads the pool (R197, R217, R226). -/
def State.engSpan (s : State) (g : Agent) (va n : Nat) : EngRes (List Byte) :=
  let k := s.core g.core
  if inWindow va then
    (if (windowFault k.binding va n).isSome then .err 3
     else if k.poolPoison va n then .err 4
     else .ok (k.poolSpan va n))
  else if inAperture va then .err 3
  else s.engReadVa g va n

/-- The check that a line of a row fails: a permission or a translation, with its reason (R305). -/
def State.lineFault (s : State) (g : Agent) (va : Nat) : Option (Bool × Nat) :=
  match s.engPlace g va .read with
  | .err _ =>
    if 2 ^ 52 ≤ va then some (false, 3)
    else
      match s.engEntry g va with
      | .ok e => some ((s.leafFault e va .read).getD (true, 2))
      | _ => some (match s.engWalkFail g va with
        | some f => (f.1, f.2.1)
        | none => (false, 1))
  | _ => none

/-- The fault of a gathered row of `n` bytes that an engine's error stands for (R228): the cause and TRAPINFO. -/
def State.rowFault (s : State) (g : Agent) (va n err : Nat) : Byte × Dword :=
  if err = 4 then (cTPOISON, 0x83)
  else if inWindow va then (cPROT, addrInfo 4 va)
  else if inAperture va then (cPROT, addrInfo 6 va)
  else
    match (linesOf va n).findSome? fun p => s.lineFault g p.1 with
    | some (true, r) => (cPROT, addrInfo r va)
    | some (false, r) => (cDATAF, addrInfo r va)
    | none => (if err = 3 then cPROT else cDATAF, addrInfo (if err = 3 then 2 else 3) va)

/-! ## Circular buffers (R208 to R210) -/

def cbEngine (w : Dword) : Bool := w.getLsbD 63
def cbQ (w : Dword) : Nat := bitsOf w 62 57
def cbP (w : Dword) : Nat := bitsOf w 56 51
def cbGot (w : Dword) : Nat := bitsOf w 50 44
def cbFilled (w : Dword) : Nat := bitsOf w 43 37
def cbFree (w : Dword) : Nat := bitsOf w 36 30
def cbValid (w : Dword) : Bool := w.getLsbD 29
def cbSlots (w : Dword) : Nat := bitsOf w 28 23 + 1
def cbSize (w : Dword) : Nat := (bitsOf w 22 14 + 1) * 128
def cbBase (w : Dword) : Nat := bitsOf w 13 0 * 128

/-- The register with new counts. -/
def cbWith (w : Dword) (q p got filled free : Nat) : Dword :=
  BitVec.ofNat 64 (bitsOf w 63 63 * 2 ^ 63 + q * 2 ^ 57 + p * 2 ^ 51 + got * 2 ^ 44 + filled * 2 ^ 37 +
    free * 2 ^ 30 + bitsOf w 29 0)

/-- Get the next slot: its pool offset and the register afterwards. -/
def cbGetSlot (w : Dword) : Nat × Dword :=
  (cbBase w + cbP w * cbSize w,
    cbWith w (cbQ w) ((cbP w + 1) % cbSlots w) (cbGot w + 1) (cbFilled w) (cbFree w - 1))

/-- Mark the oldest gotten slot filled. -/
def cbFill (w : Dword) : Dword := cbWith w (cbQ w) (cbP w) (cbGot w - 1) (cbFilled w + 1) (cbFree w)

def State.cbReg (s : State) (c : BitVec 3) : Dword := Map.get 0 s.myCore.cb c.toNat

def State.setCb (s : State) (c : BitVec 3) (w : Dword) : State :=
  s.setMyCore { s.myCore with cb := Map.put 0 s.myCore.cb c.toNat w }

/-- The checks that every circular-buffer op makes first. -/
def State.onCb (s : State) (c : BitVec 3) (f : State → Dword → OpRes) : OpRes :=
  let w := s.cbReg c
  if s.isS then s.illenc
  else if !cbValid w then prot 6 (cbBase w)
  else f s w

/-- The transfer writes pool bytes: a TLD, or a TST or a scatter through the window (R217, R228). -/
def Core.writesPool (k : Core) (x : XferId) : Bool :=
  k.xfers.any fun t => decide (t.ch = x.ch) && decide (t.id = x.id) && match t.kind with
    | .tld .. => true
    | .tst _ _ _ va => inWindow va
    | .scatter va _ => inWindow va
    | _ => false

/-- Pool writes of the context before a place in program order that are not yet performed (R209). -/
def State.poolWrites (s : State) (before : Nat) : Bool :=
  let c := s.me
  (c.acc.any fun a => decide (a.seq < before) && match a.kind with
    | .xfer x => s.myCore.writesPool x
    | _ => false) ||
  c.mq.any fun h => decide (h.seq < before) && match h.op with
    | .write ps _ => ps.any fun p => p.pa.isNone
    | .transfer x => s.myCore.writesPool x
    | _ => false

/-! ## Meanings -/

/-- TLD (R217). -/
def execTld (g : Guard) (t : BitVec 5) (a : BitVec 6) (c : BitVec 4) (h : BitVec 4) (m : BitVec 2)
    (s : State) : Outcome :=
  s.slotOp g (.tld g t a c h m) fun s => s.tileMove t a c h m true

/-- TST (R217). -/
def execTst (g : Guard) (t : BitVec 5) (a : BitVec 6) (c : BitVec 4) (h : BitVec 4) (m : BitVec 2)
    (s : State) : Outcome :=
  s.slotOp g (.tst g t a c h m) fun s => s.tileMove t a c h m false

/-- TCPY (R206). The PROT of a remote `td` names td's data offset (log entry 100). -/
def execTcpy (g : Guard) (d : BitVec 5) (sh : BitVec 5) (h : BitVec 4) (s : State) : Outcome :=
  s.slotOp g (.tcpy g d sh h) fun x =>
    let dst := x.tile d.toNat
    let src := x.tile sh.toNat
    if x.isS then x.illenc
    else if !x.ownsChannel h then x.struct_ 10
    else if descRemote dst.desc then prot 6 (descOff dst.desc)
    else if x.busy sh.toNat then x.blockOn condTile
    else if src.poison ≠ 0 then tpoison src.poison.toNat sh.toNat
    else if (descData dst.desc, descMetaSize dst.desc, descScaleSize dst.desc) ≠
        (descData src.desc, descMetaSize src.desc, descScaleSize src.desc) then x.struct_ 7
    else if x.channelFull h then x.blockOn condChannel
    else if x.tileWaits d.toNat true || x.tileWaits sh.toNat false then x.blockOn condTile
    else
      let (x, key) := x.newKey
      let x := (x.pendTile key d.toNat dst.desc true).pendTile key sh.toNat src.desc false
      let (x, id) := x.takeId x.cur.core h.toNat
      let k := x.myCore
      let x := x.setMyCore { k with
        xfers := k.xfers ++ [newXfer h.toNat id x.cur.ctx k.asid 0 x.me.seq (.tcpy d.toNat dst.desc src.desc) key
          false] }
      .done (x.post (.transferComplete ⟨x.cur.core, h.toNat, id⟩))

/-- TDESC (R205). Its PROT names the descriptor's data offset (log entry 100). -/
def execTdesc (g : Guard) (t : BitVec 5) (k : BitVec 15) (s : State) : Outcome :=
  s.slotOp g (.tdesc g t k) fun s =>
    let b := s.myCore.binding
    let w := s.myCore.constant k.toNat
    let mate := podMate s.cur.core (descMate w)
    let leaves (lo hi : Nat) : Bool := decide (descOff w < lo) || decide (hi < descOff w + descSize w)
    let tern := match descFmt w with
      | .int 4 _ => true
      | .tern => true
      | _ => false
    if s.isS || decide (b.c ≤ k.toNat) then s.illenc
    else if s.busy t.toNat then s.blockOn condTile
    else if s.myCore.poolPoison (b.constBase + 8 * k.toNat) 8 then .poison 4 (b.constBase + 8 * k.toNat)
    else if !fmtAssigned (descCode w) || (!descRemote w && decide (descMate w ≠ 0)) ||
        (descMeta w && (decide (descD1 w % 4 ≠ 0) || tern)) then s.illenc
    else if !descRemote w && leaves 0 b.pb2 then prot 4 (descOff w)
    else if descRemote w && (decide (mate = s.cur.core) || !(s.core mate).boundTo b.launch) then prot 6 (descOff w)
    else if descRemote w && leaves b.pb1 b.pb2 then prot 4 (descOff w)
    else
      let r := s.regs
      .done ((s.setRegs { r with tile := Map.put {} r.tile t.toNat { s.tile t.toNat with poison := 0 } }).deliverT t w)

/-- GPUSH (R228). -/
def execGpush (g : Guard) (a : BitVec 6) (s : State) : Outcome :=
  s.slotOp g (.gpush g a) fun s =>
    if s.isS then s.illenc
    else if 64 ≤ s.me.gqAddr.length then s.blockOn condGather
    else
      let w := s.who
      let t := s.me.gqt
      let i := s.srcA a
      let lo := gqAddrOf t i
      let (s, seq) := s.takeSeq w
      let c := s.me
      let s := s.setMe { c with gqAddr := c.gqAddr ++ [.gather i t seq []] }
      .done ((s.addAcc w ⟨seq, gqClass t, lo, lo + gqRow t, .gather seq⟩).post (.gatherRowArrive w))

/-- GPOP (R228). It sees the GPUSH of its own bundle (log entry 10). -/
def execGpop (g : Guard) (v : BitVec 7) (s : State) : Outcome :=
  s.slotOp g (.gpop g v) fun s =>
    let c := s.me
    let give (s : State) (bs : List Byte) : OpRes :=
      .done ((s.setMe { s.me with gqData := s.me.gqData.drop 1 }).deliverV v (ofBytes bs) 5 0 none)
    if s.isS || !s.inVectors v then s.illenc
    else if c.h then s.priv
    else
      match c.gqData with
      | [] =>
        if c.gqAddr.any (fun e => match e with
            | .gather .. => true
            | _ => false) then s.blockOn condGather
        else s.struct_ 11
      | r :: _ =>
        match r.fault with
        | none => give s r.bytes
        | some f =>
          if !s.cur.replay then .trap f.1 f.2
          else
            let va := gqAddrOf r.table r.index
            match s.engSpan s.opAgent va (gqRow r.table) with
            | .ok bs => give (s.engDone s.opAgent) bs
            | .need n => if n = .wait then s.blockOn condOrder else .block [.need s.cur.slot n]
            | .err e => let f := s.rowFault s.opAgent va (gqRow r.table) e; .trap f.1 f.2

/-- SPUSH (R228). -/
def execSpush (g : Guard) (v : BitVec 7) (a : BitVec 6) (s : State) : Outcome :=
  s.slotOp g (.spush g v a) fun s =>
    let t := s.me.gqt
    let ch := gqChannel t
    if s.isS || !s.inVectors v then s.illenc
    else if !s.ownsChannel ch then s.struct_ 10
    else if 64 ≤ s.me.gqAddr.length then s.blockOn condGather
    else if s.channelFull ch then s.blockOn condChannel
    else
      let lo := gqAddrOf t (s.srcA a)
      let bs := (vbytes (readV s.regs v)).take (gqRow t)
      let x : XferId := ⟨s.cur.core, ch.toNat, Map.get 0 s.myCore.cnext ch.toNat⟩
      let (s, key) := s.newKey
      let s := s.startXfer ch (gqClass t) key lo (lo + gqRow t) (.scatter lo bs) (!inWindow lo)
      .done (s.setMe { s.me with gqAddr := s.me.gqAddr ++ [.scatter x] })

/-- CBGET (R209). -/
def execCbget (g : Guard) (d : BitVec 6) (c : BitVec 3) (s : State) : Outcome :=
  s.slotOp g (.cbget g d c) fun s => s.onCb c fun s w =>
    if cbEngine w then s.struct_ 8
    else if cbFree w = 0 then s.blockOn condCb
    else .done ((s.setCb c (cbGetSlot w).2).deliver d (BitVec.ofNat 64 (cbGetSlot w).1) 4)

/-- CBPUT (R209). -/
def execCbput (g : Guard) (c : BitVec 3) (s : State) : Outcome :=
  s.slotOp g (.cbput g c) fun s => s.onCb c fun s w =>
    if cbEngine w || decide (cbGot w = 0) then s.struct_ 8
    else if s.poolWrites s.cur.seq0 then s.blockOn condOrder
    else if s.poolWrites s.me.seq then s.blockOn condMask
    else .done (s.setCb c (cbFill w))

/-- CBTAKE (R209). -/
def execCbtake (g : Guard) (d : BitVec 6) (c : BitVec 3) (s : State) : Outcome :=
  s.slotOp g (.cbtake g d c) fun s => s.onCb c fun s w =>
    if cbFilled w = 0 then s.blockOn condCb
    else
      let a := cbBase w + cbQ w * cbSize w
      .done ((s.setCb c (cbWith w ((cbQ w + 1) % cbSlots w) (cbP w) (cbGot w) (cbFilled w - 1) (cbFree w))).deliver
        d (BitVec.ofNat 64 a) 4)

/-- CBGIVE (R209). -/
def execCbgive (g : Guard) (c : BitVec 3) (s : State) : Outcome :=
  s.slotOp g (.cbgive g c) fun s => s.onCb c fun s w =>
    if cbSlots w ≤ cbFree w + cbGot w + cbFilled w then s.struct_ 8
    else .done (s.setCb c (cbWith w (cbQ w) (cbP w) (cbGot w) (cbFilled w) (cbFree w + 1)))

/-- TSTX (R240). -/
def execTstx (g : Guard) (t : BitVec 5) (a : BitVec 6) (c : BitVec 4) (h : BitVec 4) (m : BitVec 2)
    (s : State) : Outcome :=
  s.slotOp g (.tstx g t a c h m) fun s =>
    let r := s.tile t.toNat
    let hd := s.srcA a
    let span := descSpan r.desc m
    if s.isS then s.illenc
    else if !s.ownsChannel h then s.struct_ 10
    else if descRemote r.desc then prot 6 hd.toNat
    else if modeLacks r.desc m then s.struct_ 9
    else if s.busy t.toNat then s.blockOn condTile
    else if r.poison ≠ 0 then tpoison r.poison.toNat t.toNat
    else if !handleOk hd span then s.struct_ 13
    else if s.channelFull h then s.blockOn condChannel
    else if s.tileWaits t.toNat false then s.blockOn condTile
    else
      let (s, key) := s.newKey
      let s := s.pendTile key t.toNat r.desc false
      .done (s.startXfer h c.toNat key 0 0 (.tstx r.desc m hd) true)

end Sys2Proof.Machine
end

