-- ==== Sys2Proof/Machine/Vec.lean ====
section
/-! DEFINITION. The X-slot instructions (R129 to R141). -/

namespace Sys2Proof.Machine

/-! ## Shape of an op (R130, R131) -/

/-- A vector op: refused in ctxS, for a register outside the window and for a format its row does not
admit; a privilege fault in a handler (R128, R124, R131, R337, R353). -/
def State.vecOp (s : State) (vs : List (BitVec 7)) (ok : Fmt → Bool) (f : State → OpRes) : OpRes :=
  if s.isS || !vs.all s.inVectors || !ok (shapeFmt s.shape) then s.illenc
  else if s.me.h then s.priv
  else f s

/-- Classes I and F. -/
def isIF (f : Fmt) : Bool := isI f || isF f

def anyFmt (_ : Fmt) : Bool := true

/-- The `i`-th element of a register under SHAPE (R130). -/
def State.elem (s : State) (v : VReg) (i : Nat) : Nat := elemAt (shapeFmt s.shape) v.toNat i

/-- A register of packed elements, zero beyond them (R130). -/
def packed (f : Fmt) (xs : List Nat) : VReg := BitVec.ofNat 8192 (packElems f xs)

/-- The elements of a result in order, each with its own draw, and their flags together (R82, R131). -/
def eachElem (f : Nat → Word → Nat × Flags) : Nat → Nat → Word → List Nat × Flags
  | 0, _, _ => ([], 0)
  | n + 1, i, l =>
    let l := lfsrStep l
    let (x, a) := f i l
    let (xs, b) := eachElem f n (i + 1) l
    (x :: xs, a ||| b)

/-- Deliver `n` elements of a format, each formed with its draw. -/
def State.giveElems (s : State) (d : BitVec 7) (lat : Nat) (fmt : Fmt) (n : Nat)
    (f : Nat → Word → Nat × Flags) : OpRes :=
  let (xs, fl) := eachElem f n 0 s.cur.lfsr
  .done (s.deliverV d (packed fmt xs) lat fl (some (s.cur.slot - 5)))

/-- The result of an element of class I from an integer (R131). -/
def wrapInt (w : Nat) (i : Int) : Nat × Flags := (intBits w i, 0)

/-- An element-wise op with an integer form and a floating form (R131, R132). -/
def State.elementWise (s : State) (d : BitVec 7) (lat : Nat) (int : Nat → Bool → Nat → Nat × Flags)
    (flt : FltFmt → Word → Nat → Nat × Flags) : OpRes :=
  let fmt := shapeFmt s.shape
  s.giveElems d lat fmt (shapeN s.shape) fun i u =>
    match fmt with
    | .int w sg => int w sg i
    | .flt f => flt f u i
    | .tern => (0, 0)

/-- Round an exact result of vector arithmetic (R77, R78, R131). -/
def State.roundV (s : State) (f : FltFmt) (u : Word) (x : Val × Flags) : Nat × Flags :=
  let (b, fl) := f.round .ovf s.rmodeNow u (shapeCode s.shape) x.1
  (b, x.2 ||| fl)

/-- The sign of an exact zero sum is negative under RDN (R75). -/
def State.rdn (s : State) : Bool := decide (s.rmodeNow = modeRDN)

/-- An op on two sources: exact on integers, rounded once in class F (R132). -/
def State.arith2 (s : State) (d a b : BitVec 7) (lat : Nat) (int : Int → Int → Int)
    (flt : Val → Val → Val × Flags) : OpRes :=
  s.vecOp [d, a, b] isIF fun s =>
    let x := readV s.regs a
    let y := readV s.regs b
    s.elementWise d lat
      (fun w sg i => wrapInt w (int (readInt w sg (s.elem x i)) (readInt w sg (s.elem y i))))
      (fun f u i => s.roundV f u (flt (f.read (s.elem x i)) (f.read (s.elem y i))))

/-- VFMA and VFMS: d plus or minus an exact product, rounded once (R132). A NaN among the inputs sets no
NV (R75). -/
def State.fused (s : State) (d a b : BitVec 7) (minus : Bool) : OpRes :=
  s.vecOp [d, a, b] isIF fun s =>
    let x := readV s.regs a
    let y := readV s.regs b
    let z := readV s.regs d
    s.elementWise d 4
      (fun w sg i =>
        let p := readInt w sg (s.elem x i) * readInt w sg (s.elem y i)
        wrapInt w (readInt w sg (s.elem z i) + if minus then -p else p))
      (fun f u i =>
        match f.read (s.elem z i) with
        | .nan => (f.nanBits, 0)
        | v =>
          let (p, a) := Val.mul (f.read (s.elem x i)) (f.read (s.elem y i))
          let (r, b) := Val.add s.rdn v (if minus then p.neg else p)
          s.roundV f u (r, a ||| b))

/-- An exact op on two sources that sets no flags (R132). -/
def State.select2 (s : State) (d a b : BitVec 7) (int : Int → Int → Int) (flt : Val → Val → Val) : OpRes :=
  s.vecOp [d, a, b] isIF fun s =>
    let x := readV s.regs a
    let y := readV s.regs b
    s.elementWise d 2
      (fun w sg i => wrapInt w (int (readInt w sg (s.elem x i)) (readInt w sg (s.elem y i))))
      (fun f u i => ((s.roundV f u (flt (f.read (s.elem x i)) (f.read (s.elem y i)), 0)).1, 0))

/-- VABS and VNEG: exact, no flags (R132). -/
def State.signOp (s : State) (d a : BitVec 7) (ok : Fmt → Bool) (int : Int → Int) (flt : Val → Val) : OpRes :=
  s.vecOp [d, a] ok fun s =>
    let x := readV s.regs a
    s.elementWise d 2
      (fun w sg i => wrapInt w (int (readInt w sg (s.elem x i))))
      (fun f u i => ((s.roundV f u (flt (f.read (s.elem x i)), 0)).1, 0))

/-- Formats with negative values (R132). -/
def signedFmt : Fmt → Bool
  | .int _ sg => sg
  | .tern => false
  | .flt f => f.signed

/-- A shift by the low eight bits of the second source's element (R132). -/
def State.shiftV (s : State) (d a b : BitVec 7) (f : Nat → Nat → Nat → Nat) : OpRes :=
  s.vecOp [d, a, b] isI fun s =>
    let x := readV s.regs a
    let y := readV s.regs b
    s.elementWise d 2 (fun w _ i => (f w (s.elem x i) (s.elem y i % 256), 0)) (fun _ _ _ => (0, 0))

/-- A saturating op on two sources (R132). -/
def State.satOp (s : State) (d a b : BitVec 7) (op : Int → Int → Int) : OpRes :=
  s.vecOp [d, a, b] isI fun s =>
    let x := readV s.regs a
    let y := readV s.regs b
    s.elementWise d 2
      (fun w sg i =>
        let (v, c) := clampInt w sg (op (readInt w sg (s.elem x i)) (readInt w sg (s.elem y i)))
        (intBits w v, flagIf c flagSAT))
      (fun _ _ _ => (0, 0))

/-- A compare: all ones or zero (R133). -/
def State.compareV (s : State) (d a b : BitVec 7) (ok : Fmt → Bool) (test : Fmt → Nat → Nat → Bool) : OpRes :=
  s.vecOp [d, a, b] ok fun s =>
    let x := readV s.regs a
    let y := readV s.regs b
    let fmt := shapeFmt s.shape
    s.giveElems d 2 fmt (shapeN s.shape) fun i _ =>
      (if test fmt (s.elem x i) (s.elem y i) then 2 ^ fmt.width - 1 else 0, 0)

/-- An op on the bytes below Sz (R133, R134). -/
def State.bytesOp (s : State) (d : BitVec 7) (vs : List (BitVec 7)) (x : VReg) : OpRes :=
  s.vecOp (d :: vs) anyFmt fun s =>
    .done (s.deliverV d (cutBytes x (shapeSz s.shape)) 2 0 (some (s.cur.slot - 5)))

/-- An op that moves elements of classes I and F: `src` gives for a result's index the source's, if it has
one (R135, R136). -/
def State.moveElems (s : State) (d a : BitVec 7) (lat : Nat) (src : Nat → Option Nat) : OpRes :=
  s.vecOp [d, a] isIF fun s =>
    let x := readV s.regs a
    s.giveElems d lat (shapeFmt s.shape) (shapeN s.shape) fun i _ =>
      (match src i with
        | some j => s.elem x j
        | none => 0, 0)

/-- `i` as an index below `n`. -/
def indexIn (n : Nat) (i : Int) : Option Nat := if 0 ≤ i ∧ i < n then some i.toNat else none

/-! ## Arithmetic (R132) -/

/-- VADD (R132). -/
def execVadd (g : Guard) (d : BitVec 7) (a : BitVec 7) (b : BitVec 7) (s : State) : Outcome :=
  s.slotOp g (.vadd g d a b) fun s => s.arith2 d a b 2 (· + ·) (Val.add s.rdn)

/-- VSUB (R132). -/
def execVsub (g : Guard) (d : BitVec 7) (a : BitVec 7) (b : BitVec 7) (s : State) : Outcome :=
  s.slotOp g (.vsub g d a b) fun s => s.arith2 d a b 2 (· - ·) fun x y => Val.add s.rdn x y.neg

/-- VMUL (R132). -/
def execVmul (g : Guard) (d : BitVec 7) (a : BitVec 7) (b : BitVec 7) (s : State) : Outcome :=
  s.slotOp g (.vmul g d a b) fun s => s.arith2 d a b 4 (· * ·) Val.mul

/-- VFMA (R132). -/
def execVfma (g : Guard) (d : BitVec 7) (a : BitVec 7) (b : BitVec 7) (s : State) : Outcome :=
  s.slotOp g (.vfma g d a b) fun s => s.fused d a b false

/-- VFMS (R132). -/
def execVfms (g : Guard) (d : BitVec 7) (a : BitVec 7) (b : BitVec 7) (s : State) : Outcome :=
  s.slotOp g (.vfms g d a b) fun s => s.fused d a b true

/-- VMIN (R132). -/
def execVmin (g : Guard) (d : BitVec 7) (a : BitVec 7) (b : BitVec 7) (s : State) : Outcome :=
  s.slotOp g (.vmin g d a b) fun s => s.select2 d a b min Val.min

/-- VMAX (R132). -/
def execVmax (g : Guard) (d : BitVec 7) (a : BitVec 7) (b : BitVec 7) (s : State) : Outcome :=
  s.slotOp g (.vmax g d a b) fun s => s.select2 d a b max Val.max

/-- VABS (R132). -/
def execVabs (g : Guard) (d : BitVec 7) (a : BitVec 7) (s : State) : Outcome :=
  s.slotOp g (.vabs g d a) fun s => s.signOp d a isIF (fun i => i.natAbs) Val.abs

/-- VNEG (R132). -/
def execVneg (g : Guard) (d : BitVec 7) (a : BitVec 7) (s : State) : Outcome :=
  s.slotOp g (.vneg g d a) fun s => s.signOp d a (fun f => isIF f && signedFmt f) (fun i => -i) Val.neg

/-- VSHL (R132). -/
def execVshl (g : Guard) (d : BitVec 7) (a : BitVec 7) (b : BitVec 7) (s : State) : Outcome :=
  s.slotOp g (.vshl g d a b) fun s => s.shiftV d a b fun w x n => if w ≤ n then 0 else x * 2 ^ n % 2 ^ w

/-- VSHR (R132). -/
def execVshr (g : Guard) (d : BitVec 7) (a : BitVec 7) (b : BitVec 7) (s : State) : Outcome :=
  s.slotOp g (.vshr g d a b) fun s => s.shiftV d a b fun w x n => if w ≤ n then 0 else x / 2 ^ n

/-- VSRA (R132). -/
def execVsra (g : Guard) (d : BitVec 7) (a : BitVec 7) (b : BitVec 7) (s : State) : Outcome :=
  s.slotOp g (.vsra g d a b) fun s => s.shiftV d a b fun w x n => intBits w (readInt w true x / 2 ^ (min n w))

/-- VQADD (R132). -/
def execVqadd (g : Guard) (d : BitVec 7) (a : BitVec 7) (b : BitVec 7) (s : State) : Outcome :=
  s.slotOp g (.vqadd g d a b) fun s => s.satOp d a b (· + ·)

/-- VQSUB (R132). -/
def execVqsub (g : Guard) (d : BitVec 7) (a : BitVec 7) (b : BitVec 7) (s : State) : Outcome :=
  s.slotOp g (.vqsub g d a b) fun s => s.satOp d a b (· - ·)

/-- VMULH (R132). -/
def execVmulh (g : Guard) (d : BitVec 7) (a : BitVec 7) (b : BitVec 7) (s : State) : Outcome :=
  s.slotOp g (.vmulh g d a b) fun s => s.vecOp [d, a, b] isI fun s =>
    let x := readV s.regs a
    let y := readV s.regs b
    s.elementWise d 4
      (fun w sg i => wrapInt w (readInt w sg (s.elem x i) * readInt w sg (s.elem y i) / 2 ^ w))
      (fun _ _ _ => (0, 0))

/-! ## Bits, compares, moves and fills (R133, R134) -/

/-- VAND (R133). -/
def execVand (g : Guard) (d : BitVec 7) (a : BitVec 7) (b : BitVec 7) (s : State) : Outcome :=
  s.slotOp g (.vand g d a b) fun s => s.bytesOp d [a, b] (readV s.regs a &&& readV s.regs b)

/-- VOR (R133). -/
def execVor (g : Guard) (d : BitVec 7) (a : BitVec 7) (b : BitVec 7) (s : State) : Outcome :=
  s.slotOp g (.vor g d a b) fun s => s.bytesOp d [a, b] (readV s.regs a ||| readV s.regs b)

/-- VXOR (R133). -/
def execVxor (g : Guard) (d : BitVec 7) (a : BitVec 7) (b : BitVec 7) (s : State) : Outcome :=
  s.slotOp g (.vxor g d a b) fun s => s.bytesOp d [a, b] (readV s.regs a ^^^ readV s.regs b)

/-- VCEQ (R133). -/
def execVceq (g : Guard) (d : BitVec 7) (a : BitVec 7) (b : BitVec 7) (s : State) : Outcome :=
  s.slotOp g (.vceq g d a b) fun s => s.compareV d a b isIF fun f x y => (f.read x).eq (f.read y)

/-- VCLT (R133). -/
def execVclt (g : Guard) (d : BitVec 7) (a : BitVec 7) (b : BitVec 7) (s : State) : Outcome :=
  s.slotOp g (.vclt g d a b) fun s => s.compareV d a b isIF fun f x y => (f.read x).lt false (f.read y)

/-- VCLE (R133). -/
def execVcle (g : Guard) (d : BitVec 7) (a : BitVec 7) (b : BitVec 7) (s : State) : Outcome :=
  s.slotOp g (.vcle g d a b) fun s => s.compareV d a b isIF fun f x y =>
    (f.read x).lt false (f.read y) || (f.read x).eq (f.read y)

/-- VCLTU (R133). -/
def execVcltu (g : Guard) (d : BitVec 7) (a : BitVec 7) (b : BitVec 7) (s : State) : Outcome :=
  s.slotOp g (.vcltu g d a b) fun s => s.compareV d a b isI fun _ x y => decide (x < y)

/-- VSEL (R134). -/
def execVsel (g : Guard) (d : BitVec 7) (a : BitVec 7) (b : BitVec 7) (s : State) : Outcome :=
  s.slotOp g (.vsel g d a b) fun s =>
    let m := readV s.regs d
    s.bytesOp d [a, b] ((readV s.regs a &&& m) ||| (readV s.regs b &&& ~~~m))

/-- VMOV (R134). -/
def execVmov (g : Guard) (d : BitVec 7) (a : BitVec 7) (s : State) : Outcome :=
  s.slotOp g (.vmov g d a) fun s => s.bytesOp d [a] (readV s.regs a)

/-- VBC (R134). -/
def execVbc (g : Guard) (d : BitVec 7) (a : BitVec 6) (s : State) : Outcome :=
  s.slotOp g (.vbc g d a) fun s => s.vecOp [d] isIF fun s =>
    let f := shapeFmt s.shape
    s.giveElems d 2 f (shapeN s.shape) fun _ _ => ((s.srcA a).toNat % 2 ^ f.width, 0)

/-- VIOTA (R134). -/
def execViota (g : Guard) (d : BitVec 7) (s : State) : Outcome :=
  s.slotOp g (.viota g d) fun s => s.vecOp [d] isIF fun s =>
    s.elementWise d 2 (fun w _ i => wrapInt w i) fun f u i => s.roundV f u (.ofInt i, 0)

/-! ## Shifts, rotation and transposition of elements (R135, R136) -/

/-- VROWSH (R135). -/
def execVrowsh (g : Guard) (d : BitVec 7) (a : BitVec 7) (i : BitVec 7) (s : State) : Outcome :=
  s.slotOp g (.vrowsh g d a i) fun s =>
    let n := shapeCols s.shape
    s.moveElems d a 2 fun k =>
      (indexIn (shapeRows s.shape) ((k / n : Nat) - i.toInt)).map fun r => r * n + k % n

/-- VCOLSH (R135). -/
def execVcolsh (g : Guard) (d : BitVec 7) (a : BitVec 7) (i : BitVec 7) (s : State) : Outcome :=
  s.slotOp g (.vcolsh g d a i) fun s =>
    let n := shapeCols s.shape
    s.moveElems d a 2 fun k => (indexIn n ((k % n : Nat) - i.toInt)).map fun c => k / n * n + c

/-- VESH (R135). -/
def execVesh (g : Guard) (d : BitVec 7) (a : BitVec 7) (i : BitVec 7) (s : State) : Outcome :=
  s.slotOp g (.vesh g d a i) fun s => s.moveElems d a 2 fun k => indexIn (shapeN s.shape) ((k : Int) - i.toInt)

/-- VROT (R135). -/
def execVrot (g : Guard) (d : BitVec 7) (a : BitVec 7) (i : BitVec 7) (s : State) : Outcome :=
  s.slotOp g (.vrot g d a i) fun s =>
    let n := shapeCols s.shape
    s.moveElems d a 2 fun k =>
      some ((((k / n : Nat) - i.toInt) % (shapeRows s.shape : Int)).toNat * n + k % n)

/-- VTRN (R136). -/
def execVtrn (g : Guard) (d : BitVec 7) (a : BitVec 7) (s : State) : Outcome :=
  s.slotOp g (.vtrn g d a) fun s => s.moveElems d a 4 fun k =>
    some (k % shapeRows s.shape * shapeCols s.shape + k / shapeRows s.shape)

/-! ## Conversions and compression (R137 to R139) -/

/-- VCVT (R137). -/
def execVcvt (g : Guard) (d : BitVec 7) (a : BitVec 7) (o : BitVec 1) (f : BitVec 6) (s : State) : Outcome :=
  s.slotOp g (.vcvt g d a o f) fun s =>
    if !fmtAssigned f || !isIF (fmtOf f) then s.illenc
    else s.vecOp [d, a] isIF fun s =>
      let x := readV s.regs a
      let src := shapeFmt s.shape
      let n := min (shapeN s.shape) (8192 / (fmtOf f).width)
      s.giveElems d 3 (fmtOf f) n fun i u =>
        (fmtOf f).round (if o = 1 then .ovf else .sat) s.rmodeNow u f (src.read (s.elem x i))

/-- The formats of VPACK3 and VUNP3, with the limit on the INT8 side (R138). -/
def State.ternShape (s : State) (f : Fmt) : Bool :=
  (decide (f = .int 8 true) || decide (f = .tern)) && decide (shapeN s.shape ≤ 1024)

/-- VPACK3 (R138). -/
def execVpack3 (g : Guard) (d : BitVec 7) (a : BitVec 7) (s : State) : Outcome :=
  s.slotOp g (.vpack3 g d a) fun s => s.vecOp [d, a] s.ternShape fun s =>
    let x := (readV s.regs a).toNat
    s.giveElems d 3 .tern (shapeN s.shape) fun i _ =>
      let v := readInt 8 true (elemAt (.int 8 true) x i)
      (if 0 < v then 1 else if v < 0 then 2 else 0, flagIf (decide (v < -1 ∨ 1 < v)) flagSAT)

/-- VUNP3 (R138). -/
def execVunp3 (g : Guard) (d : BitVec 7) (a : BitVec 7) (s : State) : Outcome :=
  s.slotOp g (.vunp3 g d a) fun s => s.vecOp [d, a] s.ternShape fun s =>
    let x := (readV s.regs a).toNat
    s.giveElems d 3 (.int 8 true) (shapeN s.shape) fun i _ =>
      (intBits 8 (tritVal (elemAt .tern x i)), flagIf (decide (243 ≤ x / 256 ^ (i / 5) % 256)) flagTERN)

/-- `x` ranks above `y` in VCMPR: a NaN above every number, then by magnitude (R89). -/
def ranksAbove (f : Fmt) (x y : Nat) : Bool :=
  match f.read x, f.read y with
  | .nan, .nan => false
  | .nan, _ => true
  | _, .nan => false
  | v, w => w.abs.lt false v.abs

/-- The two positions of a group of four that are kept, ascending (R89). -/
def keptOf (f : Fmt) (xs : List Nat) : List Nat :=
  (List.range 4).filter fun i =>
    let above := (List.range 4).filter fun j =>
      ranksAbove f (xs.getD j 0) (xs.getD i 0) ||
        (decide (j < i) && !ranksAbove f (xs.getD i 0) (xs.getD j 0))
    decide (above.length < 2)

/-- VCMPR (R139). -/
def execVcmpr (g : Guard) (d : BitVec 7) (a : BitVec 7) (s : State) : Outcome :=
  s.slotOp g (.vcmpr g d a) fun s =>
    if shapeCols s.shape % 4 ≠ 0 then s.illenc
    else s.vecOp [d, a] isIF fun s =>
      let x := readV s.regs a
      let f := shapeFmt s.shape
      let groups := (List.range (shapeN s.shape / 4)).map fun k =>
        let xs := (List.range 4).map fun j => s.elem x (4 * k + j)
        (keptOf f xs, xs)
      let kept := groups.flatMap fun p => p.1.map fun i => p.2.getD i 0
      let nibbles := groups.map fun p => p.1.headD 0 + 4 * (p.1.getD 1 0)
      let r := BitVec.ofNat 8192 (packElems f kept + packBits 4 nibbles * 256 ^ (shapeSz s.shape / 2))
      .done (s.deliverV d r 3 0 (some (s.cur.slot - 5)))

/-! ## Block scales and single elements (R140, R141) -/

/-- VSCL (R140). -/
def execVscl (g : Guard) (d : BitVec 7) (a : BitVec 7) (b : BitVec 7) (s : State) : Outcome :=
  s.slotOp g (.vscl g d a b) fun s => s.vecOp [d, a, b] isF fun s =>
    let x := readV s.regs a
    let y := (readV s.regs b).toNat
    let n := shapeCols s.shape
    s.elementWise d 4 (fun _ _ _ => (0, 0)) fun f u i =>
      let e := y / 256 ^ (i / n * ((n + 31) / 32) + i % n / 32) % 256
      if e = 255 then (f.nanBits, 0)
      else s.roundV f u (Val.mul (f.read (s.elem x i)) (.fin false 1 ((e : Int) - 127)))

/-- VGET (R141). -/
def execVget (g : Guard) (d : BitVec 6) (a : BitVec 7) (e : BitVec 8) (s : State) : Outcome :=
  s.slotOp g (.vget g d a e) fun s =>
    if shapeN s.shape ≤ e.toNat then s.illenc
    else s.vecOp [a] isIF fun s =>
      let x := s.elem (readV s.regs a) e.toNat
      .done (s.deliver d (match shapeFmt s.shape with
        | .int w sg => BitVec.ofInt 64 (readInt w sg x)
        | _ => BitVec.ofNat 64 x) 3)

/-- VPUT (R141). -/
def execVput (g : Guard) (d : BitVec 7) (a : BitVec 6) (e : BitVec 8) (s : State) : Outcome :=
  s.slotOp g (.vput g d a e) fun s =>
    if shapeN s.shape ≤ e.toNat then s.illenc
    else s.vecOp [d] isIF fun s =>
      let f := shapeFmt s.shape
      let y := readV s.regs d
      s.giveElems d 2 f (shapeN s.shape) fun i _ =>
        (if i = e.toNat then (s.srcA a).toNat % 2 ^ f.width else s.elem y i, 0)

end Sys2Proof.Machine
end

