-- ==== Sys2Proof/Machine/Reduce.lean ====
section
/-! DEFINITION. The Q-slot instructions (R144 to R147). -/

namespace Sys2Proof.Machine

/-! ## Latches (R144, R147) -/

/-- What latch `n` holds once every write issued so far has been applied (R147). -/
def State.latch (s : State) (n : Nat) : VReg :=
  match ((s.regs.vqueue ++ s.cur.vouts).filter fun e => decide (e.dst.toNat = 0x70 + n)).getLast? with
  | some e => e.val
  | none => Map.get 0 s.regs.q n

/-- Write latch `n` at a latency (R147). -/
def State.writeLatch (s : State) (n : Nat) (x : VReg) (lat : Nat) (fl : Flags) : State :=
  s.deliverV (BitVec.ofNat 7 (0x70 + n)) x lat fl none

/-- Set a latch's count and kind, kind 1 for FP32 (R144). -/
def State.setLatch (s : State) (n count : Nat) (fp : Bool) : State :=
  let r := s.regs
  s.setRegs { r with
    qcount := Map.put 0 r.qcount n count,
    qkind := (r.qkind &&& ~~~(1#4 <<< n)) ||| ((if fp then 1#4 else 0#4) <<< n) }

/-! ## Reductions (R145, R146) -/

/-- An element of a latch: an exact FP32 value or an INT32. -/
inductive QVal where
  | int (i : Int)
  | fp (v : Val)
  deriving DecidableEq, Repr

/-- Read a latch element. -/
def QVal.read (fp : Bool) (bits : Nat) : QVal :=
  if fp then .fp (fp32.read bits) else .int (readInt 32 true bits)

/-- The bits of a latch element; every FP32 value is exact, a NaN canonical (R75). -/
def QVal.bits : QVal → Nat
  | .int i => intBits 32 i
  | .fp v => (rneFp32 v).1

/-- An input element: exact, or clamped to INT32 (R145). -/
def qInput (f : Fmt) (bits : Nat) : QVal × Flags :=
  match f with
  | .int w sg =>
    let (v, c) := clampInt 32 true (readInt w sg bits)
    (.int v, flagIf c flagSAT)
  | .tern => (.int 0, 0)
  | .flt g => (.fp (g.read bits), 0)

/-- ⊕ of QADD and QSCAN (R145). -/
def qSum : QVal → QVal → QVal × Flags
  | .int a, .int b =>
    let (v, c) := clampInt 32 true (a + b)
    (.int v, flagIf c flagSAT)
  | .fp a, .fp b =>
    let (x, n) := Val.add false a b
    let (y, m) := rneFp32 x
    (.fp (fp32.read y), n ||| m)
  | x, _ => (x, 0)

/-- ⊕ of QMAX. -/
def qMax : QVal → QVal → QVal × Flags
  | .int a, .int b => (.int (max a b), 0)
  | .fp a, .fp b => (.fp (Val.max a b), 0)
  | x, _ => (x, 0)

/-- ⊕ of QMIN. -/
def qMin : QVal → QVal → QVal × Flags
  | .int a, .int b => (.int (min a b), 0)
  | .fp a, .fp b => (.fp (Val.min a b), 0)
  | x, _ => (x, 0)

/-- One level of the pairwise tree; an odd last element is carried unchanged (R145). -/
def pairUp (op : QVal → QVal → QVal × Flags) : List QVal → List QVal × Flags
  | x :: y :: t =>
    let (z, a) := op x y
    let (zs, b) := pairUp op t
    (z :: zs, a ||| b)
  | l => (l, 0)

/-- The tree over a group, `fuel` levels at most (R145). -/
def qTree (op : QVal → QVal → QVal × Flags) : Nat → List QVal → QVal × Flags
  | 0, l => (l.headD (.int 0), 0)
  | fuel + 1, l =>
    match l with
    | [] => (.int 0, 0)
    | [x] => (x, 0)
    | l =>
      let (l, a) := pairUp op l
      let (x, b) := qTree op fuel l
      (x, a ||| b)

/-- The prefixes of a group from a running value, in sequence (R146). -/
def qPrefixes (acc : QVal) : List QVal → List QVal × Flags
  | [] => ([], 0)
  | x :: t =>
    let (y, a) := qSum acc x
    let (ys, b) := qPrefixes y t
    (y :: ys, a ||| b)

/-- The groups of an axis as element indices: rows, columns, or all (R144). -/
def qGroups (sh : Word) (axis : BitVec 2) : List (List Nat) :=
  let r := shapeRows sh
  let c := shapeCols sh
  if axis = 0 then (List.range r).map fun i => (List.range c).map fun j => i * c + j
  else if axis = 1 then (List.range c).map fun j => (List.range r).map fun i => i * c + j
  else [List.range (r * c)]

/-- The combined flags of a list. -/
def orFlags (l : List Flags) : Flags := l.foldl (· ||| ·) 0

/-- The groups of the source as latch elements, with the flags of clamping (R145). -/
def State.qInputs (s : State) (a : BitVec 7) (axis : BitVec 2) : List (List QVal) × Flags :=
  let f := shapeFmt s.shape
  let v := readV s.regs a
  let g := (qGroups s.shape axis).map fun l => l.map fun i => qInput f (s.elem v i)
  (g.map fun l => l.map (·.1), orFlags (g.map fun l => orFlags (l.map (·.2))))

/-- An accumulating op (R144, R145). -/
def State.accumulate (s : State) (q : BitVec 2) (a : BitVec 7) (axis : BitVec 2)
    (op : QVal → QVal → QVal × Flags) : OpRes :=
  let n := q.toNat
  let m := (qGroups s.shape axis).length
  if axis = 3 ∨ 256 < m then s.illenc
  else s.vecOp [a] isIF fun s =>
    let fp := isF (shapeFmt s.shape)
    let count := Map.get 0 s.regs.qcount n
    if count ≠ 0 ∧ (count ≠ m ∨ s.regs.qkind.getLsbD n ≠ fp) then s.struct_ 6
    else
      let (groups, fl) := s.qInputs a axis
      let old := (s.latch n).toNat
      let rs := groups.mapIdx fun j l =>
        let (x, e) := qTree op 16 l
        if count = 0 then (x.bits, e)
        else
          let (y, h) := op (QVal.read fp (elemAt (.int 32 true) old j)) x
          (y.bits, e ||| h)
      .done ((s.setLatch n m fp).writeLatch n (BitVec.ofNat 8192 (packBits 32 (rs.map (·.1)))) 6
        (fl ||| orFlags (rs.map (·.2))))

/-- QADD (R145). -/
def execQadd (g : Guard) (q : BitVec 2) (a : BitVec 7) (x : BitVec 2) (s : State) : Outcome :=
  s.slotOp g (.qadd g q a x) fun s => s.accumulate q a x qSum

/-- QMAX (R145). -/
def execQmax (g : Guard) (q : BitVec 2) (a : BitVec 7) (x : BitVec 2) (s : State) : Outcome :=
  s.slotOp g (.qmax g q a x) fun s => s.accumulate q a x qMax

/-- QMIN (R145). -/
def execQmin (g : Guard) (q : BitVec 2) (a : BitVec 7) (x : BitVec 2) (s : State) : Outcome :=
  s.slotOp g (.qmin g q a x) fun s => s.accumulate q a x qMin

/-- QSCAN (R146). -/
def execQscan (g : Guard) (q : BitVec 2) (a : BitVec 7) (x : BitVec 2) (s : State) : Outcome :=
  s.slotOp g (.qscan g q a x) fun s =>
    if x = 3 ∨ 256 < shapeN s.shape then s.illenc
    else s.vecOp [a] isIF fun s =>
      let (groups, fl) := s.qInputs a x
      let rs := groups.map fun l =>
        match l with
        | [] => ([], (0 : Flags))
        | y :: t =>
          let (ys, e) := qPrefixes y t
          (y :: ys, e)
      let xs := (rs.flatMap (·.1)).map QVal.bits
      .done ((s.setLatch q.toNat (shapeN s.shape) (isF (shapeFmt s.shape))).writeLatch q.toNat
        (BitVec.ofNat 8192 (packBits 32 xs)) 6 (fl ||| orFlags (rs.map (·.2))))

/-- QMOV (R147). -/
def execQmov (g : Guard) (d : BitVec 7) (q : BitVec 2) (s : State) : Outcome :=
  s.slotOp g (.qmov g d q) fun s => s.vecOp [d] isIF fun s =>
    .done (s.deliverV d (Map.get 0 s.regs.q q.toNat) 3 0 none)

/-- QCLR (R147). -/
def execQclr (g : Guard) (q : BitVec 2) (s : State) : Outcome :=
  s.slotOp g (.qclr g q) fun s => s.vecOp [] isIF fun s =>
    let r := s.regs
    .done ((s.setRegs { r with qcount := Map.put 0 r.qcount q.toNat 0 }).writeLatch q.toNat 0 1 0)

end Sys2Proof.Machine
end

