-- ==== Sys2Proof/Machine/Plane.lean ====
section
/-! DEFINITION. The plane: its cells and moves, the multiply step, and the P-slot instructions that hold,
step, load and retire it (R149 to R174). -/

namespace Sys2Proof.Machine

/-! ## Cells (R150) -/

/-- The key of lane `k` of cell (y, x). -/
def cellKey (y x : Int) (k : Nat) : Nat := (((y + 8) * 32 + (x + 8)) * 16).toNat + k

def inExtent (y x : Int) : Bool := decide (-8 ≤ y ∧ y < 24 ∧ -8 ≤ x ∧ x < 24)

def keyRow (n : Nat) : Int := (n / 512 : Nat) - 8
def keyCol (n : Nat) : Int := (n / 16 % 32 : Nat) - 8
def keyLane (n : Nat) : Nat := n % 16

/-- The accumulator at lane `k` of (y, x), zero outside the extent. -/
def Plane.acc (p : Plane) (y x : Int) (k : Nat) : Word :=
  if inExtent y x then Map.get 0 p.cells (cellKey y x k) else 0

/-- A lane that is not zero (R150). -/
def Plane.nonZero (p : Plane) (w : Word) : Bool := decide (w ≠ 0) && !(p.fp && decide (w = 0x80000000))

/-- Rewrite the listed keys, which rise, of a table of words. -/
def updateKeys (f : Nat → Word → Word) : List Nat → Map Word → Map Word
  | [], m => m
  | k :: ks, m =>
    let pre := m.takeWhile fun p => decide (p.1 < k)
    let rest := m.dropWhile fun p => decide (p.1 < k)
    let (old, rest) := match rest with
      | (j, w) :: t => if j = k then (w, t) else (0, rest)
      | [] => (0, [])
    let new := f k old
    pre ++ (if new = 0 then [] else [(k, new)]) ++ updateKeys f ks rest

/-- The keys of the lanes of a block of cells, in rising order. -/
def blockKeys (y0 y1 x0 x1 : Int) : List Nat :=
  (List.range (y1 - y0).toNat).flatMap fun (y : Nat) => (List.range (x1 - x0).toNat).flatMap fun (x : Nat) =>
    (List.range 16).map fun k => cellKey (y0 + (y : Int)) (x0 + (x : Int)) k

/-- The lanes of the home region. -/
def homeKeys : List Nat := blockKeys 0 16 0 16

/-! ## Geometry and moves (R152 to R154) -/

def pgKh (g : BitVec 23) : Nat := (g.extractLsb' 0 4).toNat + 1
def pgKw (g : BitVec 23) : Nat := (g.extractLsb' 4 4).toNat + 1
def pgDy (g : BitVec 23) : Int := (g.extractLsb' 8 3).toNat + 1
def pgDx (g : BitVec 23) : Int := (g.extractLsb' 11 3).toNat + 1
def pgSy (g : BitVec 23) : Int := (g.extractLsb' 14 2).toNat + 1
def pgSx (g : BitVec 23) : Int := (g.extractLsb' 16 2).toNat + 1
def pgZy (g : BitVec 23) : Int := (g.extractLsb' 18 2).toNat + 1
def pgZx (g : BitVec 23) : Int := (g.extractLsb' 20 2).toNat + 1
def pgSerp (g : BitVec 23) : Bool := g.getLsbD 22

/-- The displacement of walk position `q` (R153). -/
def walkDisp (g : BitVec 23) (q : Nat) : Int × Int :=
  let i := q / pgKw g
  let c := q % pgKw g
  let j := if pgSerp g && decide (i % 2 = 1) then pgKw g - 1 - c else c
  (i * pgDy g, j * pgDx g)

/-- The move that a shift code makes, and the walk position after it; none for a reserved code (R153). -/
def shiftMove (g : BitVec 23) (p : Plane) (code : BitVec 4) : Option (Int × Int × Nat) :=
  let dy := pgDy g
  let dx := pgDx g
  let n := code.toNat
  if n = 0 then some (0, 0, p.walk)
  else if n = 1 then some (-dy, 0, p.walk)
  else if n = 2 then some (-dy, dx, p.walk)
  else if n = 3 then some (0, dx, p.walk)
  else if n = 4 then some (dy, dx, p.walk)
  else if n = 5 then some (dy, 0, p.walk)
  else if n = 6 then some (dy, -dx, p.walk)
  else if n = 7 then some (0, -dx, p.walk)
  else if n = 8 then some (-dy, -dx, p.walk)
  else if n = 9 then
    -- under a window changed in mid-walk, any position past its end returns home (R168)
    if pgKh g * pgKw g ≤ p.walk + 1 then some (-p.dy, -p.dx, 0)
    else
      let (y, x) := walkDisp g (p.walk + 1)
      some (y - p.dy, x - p.dx, p.walk + 1)
  else if n = 10 then some (-p.dy, -p.dx, 0)
  else none

/-- What a move does: the plane, or the sub-reason of PLANEF and the first offending lane (R154). -/
def Plane.move (p : Plane) (my mx : Int) (walk : Nat) : Except (Nat × Nat) Plane :=
  let leaves (n : Nat) : Bool := !inExtent (keyRow n + my) (keyCol n + mx)
  match p.cells.find? fun c => p.nonZero c.2 && leaves c.1 with
  | some c => .error (3, c.1)
  | none =>
    if p.dy + my < -128 ∨ 127 < p.dy + my ∨ p.dx + mx < -128 ∨ 127 < p.dx + mx then .error (4, 0)
    else
      let cells := (p.cells.filter fun c => !leaves c.1).map fun c =>
        (cellKey (keyRow c.1 + my) (keyCol c.1 + mx) (keyLane c.1), c.2)
      .ok { p with cells := cells, dy := p.dy + my, dx := p.dx + mx, walk := walk }

/-! ## Feed registers (R152, R159, R169) -/

/-- A field of a feed word, signed. -/
def signedAt (x hi lo : Nat) : Int := readInt (hi + 1 - lo) true (x / 2 ^ lo)

def Feed.a (f : Feed) : Int := signedAt f.pos.toNat 11 0
def Feed.b (f : Feed) : Int := signedAt f.pos.toNat 23 12
def Feed.c (f : Feed) : Nat := f.pos.toNat / 2 ^ 24 % 4096
def Feed.j0 (f : Feed) : Nat := f.pos.toNat / 2 ^ 36 % 256
def Feed.j1 (f : Feed) : Nat := f.pos.toNat / 2 ^ 44 % 256

/-- A count field; 0 stands for 256 (R159). -/
def feedCount (x : Nat) : Nat := if x % 256 = 0 then 256 else x % 256

/-- The three increments packed from bit `lo` of a word: of a, b and c. -/
def incAt (x lo : Nat) : Int × Int × Int :=
  (signedAt x (lo + 7) lo, signedAt x (lo + 15) (lo + 8), signedAt x (lo + 23) (lo + 16))

/-- Advance a feed register (R159). -/
def Feed.advance (f : Feed) : Feed :=
  let j0 := (f.j0 + 1) % feedCount f.prog.toNat
  let j1 := if j0 ≠ 0 then f.j1 else (f.j1 + 1) % feedCount (f.prog.toNat / 2 ^ 32)
  let (da, db, dc) :=
    if j0 ≠ 0 then incAt f.inc0.toNat 0
    else if j1 ≠ 0 then incAt f.prog.toNat 8
    else incAt f.prog.toNat 40
  { f with pos := BitVec.ofNat 52 (intBits 12 (f.a + da) + intBits 12 (f.b + db) * 2 ^ 12 +
      intBits 12 (f.c + dc) * 2 ^ 24 + j0 * 2 ^ 36 + j1 * 2 ^ 44) }

/-! ## Operand tiles (R156, R157, R160) -/

/-- An operand tile as a step reads it: its descriptor, and its regions as numbers. -/
structure TileView where
  desc : Dword
  data : Nat
  mdata : Nat
  scales : Nat

/-- The core whose pool a descriptor names (R199). -/
def State.tileCore (s : State) (d : Dword) : Nat :=
  if descRemote d then podMate s.cur.core (descMate d) else s.cur.core

def State.viewTile (s : State) (d : Dword) : TileView :=
  let k := s.core (s.tileCore d)
  let span (o n : Nat) : Nat := leNat (k.poolSpan (descOff d + o) n)
  ⟨d, span 0 (descData d), span (descMetaOff d) (descMetaSize d), span (descScaleOff d) (descScaleSize d)⟩

/-- Element (i2, i1, i0) of the data region, if the tile holds it. -/
def TileView.elem (t : TileView) (i2 i1 i0 : Int) : Option Nat :=
  if 0 ≤ i2 ∧ i2 < descD2 t.desc ∧ 0 ≤ i1 ∧ i1 < descRows t.desc ∧ 0 ≤ i0 ∧ i0 < descD0 t.desc then
    some (elemAt (descFmt t.desc) t.data (descIndex t.desc i2.toNat i1.toNat i0.toNat))
  else none

/-- A value read from a tile, zero outside it (R30). -/
def TileView.val (t : TileView) (i2 i1 i0 : Int) : Val :=
  match t.elem i2 i1 i0 with
  | some x => (descFmt t.desc).read x
  | none => .fin false 0 0

/-- The scale of a sheet position and channel (R156, R200). -/
def TileView.aScale (t : TileView) (i2 i1 ch : Int) : Nat :=
  if descScales t.desc && (t.elem i2 i1 ch).isSome then
    let n := (descD0 t.desc + 31) / 32
    t.scales / 256 ^ ((i2.toNat * descD1 t.desc + i1.toNat) * n + ch.toNat / 32) % 256
  else 127

/-- The scale of a tap, output channel and channel; the last block of 32 channels may be only partly filled (R156,
R200). -/
def TileView.bScale (t : TileView) (tap ch out : Int) : Nat :=
  if descScales t.desc && decide (0 ≤ tap ∧ tap < descD2 t.desc ∧ 0 ≤ ch ∧ ch / 32 < (descD1 t.desc + 31) / 32 ∧
      0 ≤ out ∧ out < descD0 t.desc) then
    let n := (descD1 t.desc + 31) / 32
    t.scales / 256 ^ ((tap.toNat * n + ch.toNat / 32) * descD0 t.desc + out.toNat) % 256
  else 127

/-- The metadata nibble of a tap, channel group and output channel; 4 outside the tile (R157). -/
def TileView.nibble (t : TileView) (tap : Int) (q : Nat) (out : Int) : Nat :=
  let n := descD1 t.desc / 4
  if 0 ≤ tap ∧ tap < descD2 t.desc ∧ q < n ∧ 0 ≤ out ∧ out < descD0 t.desc then
    t.mdata / 16 ^ ((tap.toNat * n + q) * descD0 t.desc + out.toNat) % 16
  else 4

/-- SheetRead (R156). -/
def sheetRead (g : BitVec 23) (t : TileView) (ry cx : Int) (ch : Nat) : Val × Nat :=
  if ry % pgZy g ≠ 0 ∨ cx % pgZx g ≠ 0 then (.fin false 0 0, 127)
  else
    let r := ry / pgZy g
    let q := cx / pgZx g
    (t.val r q ch, t.aScale r q ch)

/-- A term of a weight: the A channel it meets, its value and its scale. -/
structure BTerm where
  chan : Nat
  val : Val
  scale : Nat

/-- The weights that lane `k` takes in a dense step (R156). -/
def denseTerms (t : TileView) (f : Feed) (g k : Nat) : List BTerm :=
  (List.range g).map fun i =>
    ⟨i, t.val f.a (f.c + i : Nat) (f.b + k), t.bScale f.a (f.c + i : Nat) (f.b + k)⟩

/-- The weights that lane `k` takes in a sparse step (R157). -/
def sparseTerms (t : TileView) (f : Feed) (g k : Nat) : List BTerm :=
  (List.range (g / 2)).flatMap fun q =>
    let n := t.nibble f.a (f.c / 4 + q) (f.b + k)
    [(0, n % 4), (1, n / 4)].map fun p =>
      ⟨4 * q + p.2, t.val f.a (f.c / 2 + 2 * q + p.1 : Nat) (f.b + k),
        t.bScale f.a (f.c + 4 * q + p.2 : Nat) (f.b + k)⟩

/-- One scaled product of a floating step, exact; a NaN scale gives NaN (R83, R84). -/
def scaledProduct (av : Val × Nat) (b : BTerm) : Val :=
  if av.2 = 255 ∨ b.scale = 255 then .nan
  else (Val.mul (Val.mul av.1 b.val).1 (.fin false 1 ((av.2 : Int) - 127 + (b.scale : Int) - 127))).1

/-- The exact sum of the products, −0 only when every one is (R84). -/
def exactSum (l : List Val) : Val := l.foldl (fun a x => (Val.add false a x).1) (.fin true 0 0)

/-- RNE of an accumulator and an addend into FP32 (R84, R181). -/
def addFp32 (acc : Word) (x : Val) : Word :=
  BitVec.ofNat 32 (rneFp32 (Val.add false (fp32.read acc.toNat) x).1).1

/-- An exact integer value. -/
def Val.toInt : Val → Int
  | .fin n m e => (if n then -1 else 1) * ((m : Int) * 2 ^ e.toNat)
  | _ => 0

/-- A saturating addition into an INT32 accumulator, and whether it clamped (R85, R181). -/
def addSat (acc : Word) (x : Int) : Word × Bool :=
  let (v, c) := clampInt 32 true (acc.toInt + x)
  (BitVec.ofInt 32 v, c)

/-! ## Operand pairs (R155) -/

/-- Rank of a format in a pair: 4-bit or ternary, 8-bit, 16-bit integers; binary8, 16-bit floats; or none. -/
def pairRank (f : Fmt) : Option (Bool × Nat) :=
  match f with
  | .tern => some (false, 0)
  | .int w _ => if w = 4 then some (false, 0) else if w = 8 then some (false, 1) else if w = 16 then some (false, 2)
    else none
  | .flt g => if g.b8 then some (true, 1) else if g.w = 16 then some (true, 2) else none

/-- The accumulator kind, FP32 as true, and g of a pair (R155). -/
def pairOf (a b : Fmt) : Option (Bool × Nat) :=
  match pairRank a, pairRank b with
  | some (fa, ra), some (fb, rb) =>
    if fa ≠ fb then none
    else
      let r := max ra rb
      some (fa, if r = 0 then 8 else if r = 1 then 4 else 2)
  | _, _ => none

/-! ## Holding the plane (R163 to R166) -/

/-- A plane op: illegal in ctxS (R163). -/
def State.planeOp (s : State) (f : State → OpRes) : OpRes := if s.isS then s.illenc else f s

/-- A plane op of the holder (R163). -/
def State.heldPlane (s : State) (f : State → OpRes) : OpRes :=
  s.planeOp fun s => if s.holdsPlane then f s else s.planef 1

/-- A step of the holder: none issues between a trap of the holder and its TRET (R165, R347; log entry 83). -/
def State.stepping (s : State) (f : State → OpRes) : OpRes :=
  s.heldPlane fun s => if s.me.h && s.myCore.plane.halted then s.blockOn condPlane else f s

def State.setPlane (s : State) (p : Plane) : State := s.setMyCore { s.myCore with plane := p }

/-- The classifier counts a plane step (R315). -/
def Core.countStep (k : Core) (n : Nat) : Core := if k.classDone then k else { k with steps := k.steps + n }

/-- The plane is held, or has been released to one of the contexts that waited for it then (R163). -/
def State.planeTaken (s : State) : Bool :=
  let k := s.myCore
  let next := k.plane.waiters.filter fun x => decide (x ∈ k.planeWaiters)
  k.plane.holder.isSome || (!next.isEmpty && decide (s.cur.ctx ∉ next))

/-- Acquire the plane, once `check` passes: zeroed, with an accumulator kind (R163, R164, R166). -/
def State.acquirePlane (s : State) (fp : Bool) (check : State → Option OpRes) (f : State → OpRes) : OpRes :=
  s.planeOp fun s =>
    if s.holdsPlane then s.planef 2
    else if s.myCore.depth ≠ 0 && !s.isRegrow then s.planef 10
    else match check s with
      | some r => r
      | none =>
        if s.planeTaken then s.blockOn condPlane
        else f (s.setPlane { fp := fp, holder := some s.cur.ctx })

/-- The running context releases its plane. -/
def State.releasePlane (s : State) : State := s.setMyCore s.myCore.freePlane

/-- The tile of a PLOAD or PRET is within the extent that it may cover, local and without metadata (R167,
R172). -/
def planeTileOk (d : Dword) (husk : Bool) : Bool :=
  let m := if husk then 32 else 16
  decide (descD2 d ≤ m) && decide (descD1 d ≤ m) && decide (descD0 d ≤ 16) && !descRemote d && !descMeta d

/-! ## Steps (R156, R157, R170) -/

/-- PLANEF of a move (R174). -/
def State.moveFault (s : State) (e : Nat × Nat) : OpRes :=
  .trap cPLANEF (s.opInfo e.1 + (if e.1 = 3 then
    BitVec.ofNat 64 (e.2 / 512 * 2 ^ 40 + e.2 / 16 % 32 * 2 ^ 45 + e.2 % 16 * 2 ^ 50) else 0))

/-- The bytes [lo, hi) of a region that element `i` of a format takes (R69). -/
def elemSpan (f : Fmt) (i : Nat) : Nat × Nat :=
  match f with
  | .tern => (i / 5, i / 5 + 1)
  | _ => (f.width * i / 8, (f.width * i + f.width + 7) / 8)

/-- The bytes of a tile that a read of one element takes, none outside the tile. -/
def TileView.elemBytes (t : TileView) (i2 i1 i0 : Int) : List (Nat × Nat) :=
  if (t.elem i2 i1 i0).isSome then
    [elemSpan (descFmt t.desc) (descIndex t.desc i2.toNat i1.toNat i0.toNat)]
  else []

/-- The bytes of the sheet tile that a step reads: elements and their scales (R156, R160). -/
def sheetBytes (g : BitVec 23) (t : TileView) (f : Feed) (n : Nat) : List (Nat × Nat) :=
  (List.range 256).flatMap fun c => (List.range n).flatMap fun i =>
    let ry := f.a + (c / 16 : Nat) * pgSy g
    let cx := f.b + (c % 16 : Nat) * pgSx g
    if ry % pgZy g ≠ 0 ∨ cx % pgZx g ≠ 0 then []
    else
      let r := ry / pgZy g
      let q := cx / pgZx g
      let e := t.elemBytes r q (f.c + i : Nat)
      let o := descScaleOff t.desc + (r.toNat * descD1 t.desc + q.toNat) * ((descD0 t.desc + 31) / 32) + (f.c + i) / 32
      e ++ (if descScales t.desc && !e.isEmpty then [(o, o + 1)] else [])

/-- The bytes of the weight tile that one lane of a step reads: elements, metadata and scales (R156, R157,
R160). -/
def weightBytes (t : TileView) (f : Feed) (sparse : Bool) (g k : Nat) : List (Nat × Nat) :=
  let n := (descD1 t.desc + 31) / 32
  let scale (ch : Nat) : List (Nat × Nat) :=
    let o := descScaleOff t.desc + (f.a.toNat * n + ch / 32) * descD0 t.desc + (f.b + k).toNat
    if descScales t.desc && decide (0 ≤ f.a ∧ f.a < descD2 t.desc ∧ ch / 32 < n ∧ 0 ≤ f.b + k ∧
      f.b + k < descD0 t.desc) then [(o, o + 1)] else []
  if sparse then
    (List.range (g / 2)).flatMap fun q =>
      let m := f.c / 4 + q
      let o := descMetaOff t.desc + ((f.a.toNat * (descD1 t.desc / 4) + m) * descD0 t.desc + (f.b + k).toNat) / 2
      let nib := t.nibble f.a m (f.b + k)
      (if 0 ≤ f.a ∧ f.a < descD2 t.desc ∧ m < descD1 t.desc / 4 ∧ 0 ≤ f.b + k ∧ f.b + k < descD0 t.desc
        then [(o, o + 1)] else []) ++
      [(0, nib % 4), (1, nib / 4)].flatMap fun p =>
        t.elemBytes f.a (f.c / 2 + 2 * q + p.1 : Nat) (f.b + k) ++ scale (f.c + 4 * q + p.2)
  else
    (List.range g).flatMap fun i => t.elemBytes f.a (f.c + i : Nat) (f.b + k) ++ scale (f.c + i)

/-- A poisoned double word of its own pool that a local tile's footprint covers (R354). -/
def State.poisonedTile (s : State) (d : Dword) : Option Nat :=
  (s.myCore.poison.find? fun p => decide (p.1 = 4) &&
    overlaps (8 * p.2) (8 * p.2 + 8) (descOff d) (descOff d + descSize d)).map fun p => 8 * p.2

/-- Consuming poison of a tile whose bytes an op reads: a remote tile poisons the register's read (R160), a local
one the op (R354). -/
def State.tileConsumes (s : State) (reg : Nat) (bytes : Unit → List (Nat × Nat)) : Option OpRes :=
  let d := (s.tile reg).desc
  match (s.core (s.tileCore d)).poison.filter (fun p => p.1 = 4) with
  | [] => none
  | bad =>
    let bs := bytes ()
    (bad.find? fun p => bs.any fun r =>
      overlaps (8 * p.2) (8 * p.2 + 8) (descOff d + r.1) (descOff d + r.2)).map fun p =>
        if descRemote d then tpoison 3 reg else .poison 4 (8 * p.2)

/-- The multiply of a step over the home cells (R156, R157): the cells and whether a sum clamped. -/
def multiply (p : Plane) (pg : BitVec 23) (fa fb : Feed) (ta tb : TileView) (fp sparse : Bool) (g : Nat) :
    Map Word × Bool :=
  let lanes := (List.range 16).map fun k => if sparse then sparseTerms tb fb g k else denseTerms tb fb g k
  let n := if sparse then 2 * g else g
  let sheet := (List.range 256).map fun c =>
    (List.range n).map fun i =>
      sheetRead pg ta (fa.a + (c / 16 : Nat) * pgSy pg) (fa.b + (c % 16 : Nat) * pgSx pg) (fa.c + i)
  let zero : Val × Nat := (.fin false 0 0, 127)
  let products (key : Nat) : List Val :=
    let avs := sheet.getD ((keyRow key).toNat * 16 + (keyCol key).toNat) []
    (lanes.getD (keyLane key) []).map fun b =>
      if fp then scaledProduct (avs.getD b.chan zero) b else (Val.mul (avs.getD b.chan zero).1 b.val).1
  let int (key : Nat) : Int := ((products key).map Val.toInt).sum
  if fp then (updateKeys (fun key w => addFp32 w (exactSum (products key))) homeKeys p.cells, false)
  else
    (updateKeys (fun key w => (addSat w (int key)).1) homeKeys p.cells,
      homeKeys.any fun key => (addSat (Map.get 0 p.cells key) (int key)).2)

/-- PSTEP and PSTEPS: every check in order, then the shift, the multiply and the feed advance (R170). -/
def State.step_ (s : State) (a b : BitVec 5) (x y : BitVec 3) (code : BitVec 4) (last sparse : Bool) : OpRes :=
  if 10 < code.toNat then s.illenc
  else s.stepping fun s =>
    let r := s.regs
    let p := s.myCore.plane
    let da := (s.tile a.toNat).desc
    let db := (s.tile b.toNat).desc
    let fa := Map.get {} r.feed x.toNat
    let fb := Map.get {} r.feed y.toNat
    let launch := s.myCore.binding.launch
    let away (d : Dword) : Bool := descRemote d && !(s.core (s.tileCore d)).boundTo launch
    if s.tileWaits a.toNat false || s.tileWaits b.toNat false then s.blockOn condTile
    else if (s.tile a.toNat).poison ≠ 0 then tpoison (s.tile a.toNat).poison.toNat a.toNat
    else if (s.tile b.toNat).poison ≠ 0 then tpoison (s.tile b.toNat).poison.toNat b.toNat
    else match pairOf (descFmt da) (descFmt db) with
      | none => s.planef 6
      | some (fp, g) =>
        if fp ≠ p.fp || (descScales da && descAxis da) || (descScales db && !descAxis db) then s.planef 6
        else if sparse && (!descMeta db || decide (fb.c % 4 ≠ 0) || decide (g = 8)) then s.planef 12
        else if away da || away db then s.planef 8
        else
          let weight := if descRemote da then 8 else 1
          if s.myCore.binding.pmax < p.stepc + weight then s.planef 5
          else match shiftMove r.pg p code with
            | none => s.illenc
            | some (my, mx, walk) =>
              match p.move my mx walk with
              | .error e => s.moveFault e
              | .ok p =>
                let n := if sparse then 2 * g else g
                match s.tileConsumes a.toNat fun _ => sheetBytes r.pg (s.viewTile da) fa n,
                    s.tileConsumes b.toNat fun _ =>
                      (List.range 16).flatMap (weightBytes (s.viewTile db) fb sparse g) with
                | some c, _ => c
                | none, some c => c
                | none, none =>
                  let (cells, clamped) :=
                    multiply p r.pg fa fb (s.viewTile da) (s.viewTile db) fp sparse g
                  let feed := Map.put {} r.feed x.toNat fa.advance
                  let feed := if x = y then feed else Map.put {} feed y.toNat fb.advance
                  let s := s.setMyCore (s.myCore.countStep weight)
                  let s := s.setPlane { p with
                    cells := cells, sat := p.sat || clamped, stepc := p.stepc + weight,
                    blocks := if last then p.blocks + 1 else p.blocks }
                  let s := s.setRegs { s.regs with feed := feed }
                  let ask (d : Dword) : List Instr :=
                    if descRemote d then
                      [.remoteOperandRequest (s.tileCore d) (descOff d) (descOff d + descSize d) p.blocks.toNat]
                    else []
                  .done (s.postAll (ask da ++ ask db))

/-! ## Retirement (R86, R172) -/

/-- An output element (R86): its pattern and flags. -/
def retireElem (fp : Bool) (scale : Option Val) (fmt : Fmt) (code : BitVec 6) (ovf : Bool) (mode : BitVec 3)
    (u : Word) (acc : Word) : Nat × Flags :=
  let v := if fp then fp32.read acc.toNat else .ofInt acc.toInt
  let (v, f) := match scale with
    | some t => if t = .nan then (.nan, 0) else Val.mul v t
    | none => (v, 0)
  let (x, e) := fmt.round (if ovf then .ovf else .sat) mode u code v
  (x, f ||| e)

/-- PACQ (R166). -/
def execPacq (g : Guard) (c : BitVec 1) (s : State) : Outcome :=
  s.slotOp g (.pacq g c) fun s => s.acquirePlane (decide (c = 1)) (fun _ => none) .done

/-- PWIN (R168). -/
def execPwin (g : Guard) (a : BitVec 6) (s : State) : Outcome :=
  s.slotOp g (.pwin g a) fun s => s.planeOp fun s =>
    let x := s.srcA a
    if 2 ^ 23 ≤ x.toNat then s.planef 9 else .done (s.writeLate 0x080 x)

/-- PFSET (R169). -/
def execPfset (g : Guard) (f : BitVec 3) (a : BitVec 6) (b : BitVec 6) (s : State) : Outcome :=
  s.slotOp g (.pfset g f a b) fun s => s.planeOp fun s =>
    let x := s.srcA a
    if 2 ^ 60 ≤ x.toNat then s.planef 9
    else
      .done (s.setCur { s.cur with
        feeds := s.cur.feeds ++ [(f.toNat, ⟨x.extractLsb' 0 36 |>.setWidth 52, x.extractLsb' 36 24, s.srcB b⟩)] })

/-- PSTEP (R170). -/
def execPstep (g : Guard) (a : BitVec 5) (b : BitVec 5) (x : BitVec 3) (y : BitVec 3) (sh : BitVec 4) (l : BitVec 1)
    (s : State) : Outcome :=
  s.slotOp g (.pstep g a b x y sh l) fun s => s.step_ a b x y sh (decide (l = 1)) false

/-- PSTEPS (R170). -/
def execPsteps (g : Guard) (a : BitVec 5) (b : BitVec 5) (x : BitVec 3) (y : BitVec 3) (sh : BitVec 4) (l : BitVec 1)
    (s : State) : Outcome :=
  s.slotOp g (.psteps g a b x y sh l) fun s => s.step_ a b x y sh (decide (l = 1)) true

/-- PSHIFT (R171). -/
def execPshift (g : Guard) (sh : BitVec 4) (s : State) : Outcome :=
  s.slotOp g (.pshift g sh) fun s =>
    if 10 < sh.toNat then s.illenc
    else s.heldPlane fun s =>
      match shiftMove s.regs.pg s.myCore.plane sh with
      | none => s.illenc
      | some (my, mx, walk) =>
        match s.myCore.plane.move my mx walk with
        | .error e => s.moveFault e
        | .ok p => .done (s.setPlane p)

/-- PLOAD (R167). -/
def execPload (g : Guard) (t : BitVec 5) (h : BitVec 1) (c : BitVec 1) (s : State) : Outcome :=
  s.slotOp g (.pload g t h c) fun s =>
    let r := s.tile t.toNat
    let fp := decide (c = 1)
    let husk := decide (h = 1)
    let want : Fmt := if fp then .flt fp32 else .int 32 true
    s.acquirePlane fp
      (fun s =>
        if !planeTileOk r.desc husk || decide (descFmt r.desc ≠ want) then some (s.planef 7)
        else if s.planeTaken then none
        else if s.tileWaits t.toNat false then some (s.blockOn condTile)
        else if r.poison ≠ 0 then some (tpoison r.poison.toNat t.toNat)
        else s.tileConsumes t.toNat fun _ => [(0, descData r.desc)])
      fun s =>
        let o : Int := if husk then -8 else 0
        let v := s.viewTile r.desc
        let keys := blockKeys o (o + descD2 r.desc) o (o + descD1 r.desc)
        let cells := updateKeys (fun key _ =>
          BitVec.ofNat 32 ((v.elem (keyRow key - o) (keyCol key - o) (keyLane key)).getD 0)) keys []
        .done (s.setPlane { s.myCore.plane with cells := cells })

/-- PRET (R172). -/
def execPret (g : Guard) (t : BitVec 5) (h : BitVec 1) (a : BitVec 6) (o : BitVec 1) (s : State) : Outcome :=
  s.slotOp g (.pret g t h a o) fun s => s.heldPlane fun s =>
    let d := (s.tile t.toNat).desc
    let fmt := descFmt d
    let p := s.myCore.plane
    let husk := decide (h = 1)
    if !planeTileOk d husk || decide (fmt = .tern) then s.planef 7
    else if s.tileWaits t.toNat true then s.blockOn condTile
    else
      let off : Int := if husk then -8 else 0
      let x := (s.srcA a).toNat
      let scale : Option (Nat × Flags) :=
        if a = 0 then none
        else
          let (v, n) := Val.mul (fp32.read (x % 2 ^ 32)) (fp32.read (x / 2 ^ 32))
          let (y, m) := rneFp32 v
          some (y, n ||| m)
      let rows := descD1 d
      let lanes := descD0 d
      let (xs, fl) := eachElem (fun i u =>
          let acc := p.acc ((i / lanes / rows : Nat) + off + p.dy) ((i / lanes % rows : Nat) + off + p.dx) (i % lanes)
          retireElem p.fp (scale.map fun t => fp32.read t.1) fmt (descCode d) (decide (o = 1)) s.rmodeNow u acc)
        (descD2 d * rows * lanes) 0 s.cur.lfsr
      let (s, key) := s.newKey
      let s := (s.pendTile key t.toNat d true).releasePlane
      let k := s.myCore
      let s := s.setMyCore { k with retires := k.retires ++ [{
        key := key, ctx := s.cur.ctx, reg := t.toNat, off := descOff d,
        bytes := leBytes (descData d) (packElems fmt xs),
        flags := fl ||| (match scale with
          | some t => t.2
          | none => 0) ||| flagIf p.sat flagSAT,
        todo := [(0, descData d)].filter fun r => decide (r.2 ≠ 0) }] }
      .done (s.post (.tileWriteComplete s.cur.core key))

/-- PREL (R173). -/
def execPrel (g : Guard) (s : State) : Outcome :=
  s.slotOp g (.prel g) fun s => s.heldPlane fun s => .done (s.setMyCore s.myCore.dropPlane)

/-! ## What completes later (R162, R172) -/

/-- A tile register with its poison set to a reason, or cleared by 0; register 32 stands for one of a strand that
has gone (R201). -/
def poisonReg (reg : Nat) (reason : BitVec 2) (r : Regs) : Regs :=
  if 32 ≤ reg then r
  else { r with tile := Map.put {} r.tile reg { Map.get {} r.tile reg with poison := reason } }

/-- Change the registers of a context from outside its own issues, also as a branch target's fault would leave
them (R64). -/
def State.mapRegs (s : State) (w : Who) (f : Regs → Regs) : State :=
  let c := s.ctx w
  s.setCtx w { c with regs := f c.regs, branch := c.branch.map fun b => { b with img := f b.img } }

/-- Clear a tile register's poison, or set its reason. -/
def State.setPoison (s : State) (w : Who) (reg : Nat) (reason : BitVec 2) : State :=
  s.mapRegs w (poisonReg reg reason)

/-- A pending read or write of the scoreboard has ended. -/
def State.dropScore (s : State) (core key : Nat) : State :=
  let k := s.core core
  s.setCore core { k with score := k.score.filter fun e => e.key ≠ key }

/-- TILE_WRITE_COMPLETE (R172): the next bytes of the tile, as Config says (R203, log entry 13). With the last,
the tile is written, and the flags join the live FFLAGS, of a handler too (R91; log entry 94). -/
def execTileWriteComplete (core retire : Nat) (s : State) : Outcome :=
  let k := s.core core
  match k.retires.find? fun r => r.key = retire with
  | none => .next s
  | some r =>
    if k.scoreWaits r.key then .next (s.post (.tileWriteComplete core retire)) else
    let w : Who := ⟨core, r.ctx⟩
    match pieceOf 0 (Config.grain (3 * s.tick)) (Config.grain (3 * s.tick + 1)) (Config.grain (3 * s.tick + 2))
        (fun _ => false) r.todo with
    | some (o, n) =>
      let left : Retire := { r with todo := cutPiece o n r.todo }
      let k := { k.poolWrite (r.off + o) ((r.bytes.drop o).take n) with
        retires := k.retires.map fun x => if x.key = retire then left else x }
      .next ((s.setCore core k).post (.tileWriteComplete core retire))
    | none =>
      let k := { k with retires := k.retires.filter fun x => x.key ≠ retire }
      let s := ((s.setCore core k).dropScore core retire).setPoison w r.reg 0
      .next (s.mapRegs w fun x => { x with fflags := x.fflags ||| r.flags })

/-- REMOTE_OPERAND_REQUEST (R162). The owner serves the read; combining changes timing alone. -/
def execRemoteOperandRequest (_owner _lo _hi _block : Nat) (s : State) : Outcome :=
  .next s

end Sys2Proof.Machine
end

