-- ==== Sys2Proof/Machine/Husk.lean ====
section
/-! DEFINITION. The husk exchange and tile streams over the neighbour links (R176 to R194). -/

namespace Sys2Proof.Machine

/-! ## Strips (R177) -/

/-- The lanes of the strip sent in a direction, at the sender. -/
def stripKeys (d : Dir) : List Nat :=
  if d = 0#2 then blockKeys (-8) 0 (-8) 24
  else if d = 1#2 then blockKeys 0 16 16 24
  else if d = 2#2 then blockKeys 16 24 (-8) 24
  else blockKeys 0 16 (-8) 0

/-- The lanes that a strip from a direction is added into. -/
def landKeys (d : Dir) : List Nat :=
  if d = 0#2 then blockKeys 0 8 (-8) 24
  else if d = 1#2 then blockKeys 0 16 8 16
  else if d = 2#2 then blockKeys 8 16 (-8) 24
  else blockKeys 0 16 0 8

/-! ## The links (R183, R186) -/

def Core.link (k : Core) (d : Dir) : Link := Map.get {} k.links d.toNat

def Core.setLink (k : Core) (d : Dir) (l : Link) : Core := { k with links := Map.put {} k.links d.toNat l }

def State.myLink (s : State) (d : Dir) : Link := s.myCore.link d

/-- A neighbour in the direction that is bound to the launch (R186). -/
def State.boundNeighbour (s : State) (d : Dir) : Bool :=
  match s.neighbour s.cur.core d with
  | some m => (s.core m).boundTo s.myCore.binding.launch
  | none => false

/-- HUSKF with a sub-reason and a direction (R194). -/
def State.huskInfo (s : State) (sub : Nat) (d : Dir) : Dword := s.opInfo sub + BitVec.ofNat 64 (d.toNat * 2 ^ 40)

def State.huskf (s : State) (sub : Nat) (d : Dir) : OpRes := .trap cHUSKF (s.huskInfo sub d)

/-- The neighbour and link checks (R190, R193). -/
def State.onLink (s : State) (d : Dir) (f : State → OpRes) : OpRes :=
  if !s.boundNeighbour d then s.huskf 1 d
  else if (s.myLink d).down then s.huskf 7 d
  else f s

/-! ## The rule of passage (R179, R180) -/

def Plane.sent (p : Plane) (d : Dir) : Bool := p.hstat.getLsbD d.toNat
def Plane.in_ (p : Plane) (d : Dir) : Bool := p.hstat.getLsbD (4 + d.toNat)

/-- The plane stands at D = (0, 0) (R178). -/
def Plane.atHome (p : Plane) : Bool := decide (p.dy = 0) && decide (p.dx = 0)

/-- Set bits of HSTAT; a complete exchange returns it to zero (R179). -/
def Plane.mark (p : Plane) (bits : BitVec 12) : Plane :=
  let h := p.hstat ||| bits
  { p with hstat := if h.extractLsb' 0 8 = 0xFF#8 then 0 else h }

/-- A strip whose arrival completes earlier in the order S, N, E, W (R180). -/
def earlierDirs (d : Dir) : List Dir := [2#2, 0#2, 1#2, 3#2].takeWhile (· ≠ d)

/-- A table of words with the listed lanes zeroed. -/
def zeroKeys (keys : List Nat) (m : Map Word) : Map Word := updateKeys (fun _ _ => 0) keys m

/-- Add a strip's lanes into the cells that it lands in (R181). -/
def addStrip (p : Plane) (keys : List Nat) (lanes : List Word) : Plane :=
  let pairs := keys.zip lanes
  let new := pairs.map fun x =>
    let acc := Map.get 0 p.cells x.1
    if p.fp then (addFp32 acc (fp32.read x.2.toNat), false) else addSat acc x.2.toInt
  let table := keys.zip (new.map (·.1))
  { p with
    cells := updateKeys (fun k _ => Map.get 0 table k) keys p.cells,
    sat := p.sat || new.any (·.2) }

/-- HSEND (R190). -/
def execHsend (g : Guard) (d : BitVec 2) (s : State) : Outcome :=
  s.slotOp g (.hsend g d) fun s => s.heldPlane fun s => s.onLink d fun s =>
    let p := s.myCore.plane
    if !p.atHome then s.huskf 2 d
    else if p.sent d then s.huskf 5 d
    else if (decide (d = 1#2) || decide (d = 3#2)) && !(p.sent 0#2 && p.sent 2#2 && p.in_ 0#2 && p.in_ 2#2) then
      s.huskf 3 d
    else s.unheld fun s =>
      let l := s.myLink d
      if l.outStrip.isSome then s.blockOn (condLink d)
      else
        let keys := stripKeys d
        let lanes := keys.map fun k => Map.get 0 p.cells k
        let s := s.setPlane ({ p with cells := zeroKeys keys p.cells }.mark (1#12 <<< d.toNat))
        let s := s.setMyCore (s.myCore.setLink d { l with outStrip := some ⟨p.fp, lanes, false⟩ })
        .done (s.post (.huskStripTransfer s.cur.core d))

/-- HADD (R191). HUSKF 10 comes before HUSKF 6 (log entry 98). -/
def execHadd (g : Guard) (d : BitVec 2) (s : State) : Outcome :=
  s.slotOp g (.hadd g d) fun s => s.heldPlane fun s => s.onLink d fun s =>
    let p := s.myCore.plane
    let l := s.myLink d
    if !p.atHome then s.huskf 2 d
    else if p.in_ d then s.huskf 5 d
    else if (earlierDirs d).any fun e => !p.in_ e then s.huskf 4 d
    else match l.inStrip with
      | none => s.blockOn (condLink d)
      | some x =>
        let emptied := s.setMyCore (s.myCore.setLink d { l with inStrip := none })
        if x.bad then .trapIn emptied cHUSKF (s.huskInfo 10 d)
        else if x.fp ≠ p.fp then s.huskf 6 d
        else .done (emptied.setPlane ((addStrip p (landKeys d) x.lanes).mark (1#12 <<< (4 + d.toNat))))

/-- The directions that HCLR names, in the order N, E, S, W (R192). -/
def clearedDirs (m : BitVec 4) : List Dir :=
  (if m.getLsbD 3 then [0#2] else []) ++ (if m.getLsbD 2 then [1#2] else []) ++
    (if m.getLsbD 1 then [2#2] else []) ++ (if m.getLsbD 0 then [3#2] else [])

/-- HCLR (R192). -/
def execHclr (g : Guard) (d : BitVec 4) (s : State) : Outcome :=
  s.slotOp g (.hclr g d) fun s =>
    if d = 0 then s.illenc
    else s.heldPlane fun s =>
      let p := s.myCore.plane
      let ds := clearedDirs d
      let first := ds.headD 0#2
      if !p.atHome then s.huskf 2 first
      else if ds.any fun e => p.sent e || p.in_ e then s.huskf 5 first
      else
        let p := ds.foldl (fun (p : Plane) e => { p with cells := zeroKeys (stripKeys e) p.cells }) p
        let bits := ds.foldl (fun (b : BitVec 12) e => b ||| (0x111#12 <<< e.toNat)) 0
        .done (s.setPlane (p.mark bits))

/-- A strip crosses a link once the receiver's inbound buffer is empty (R183). -/
def State.strip (s : State) (core : Nat) (d : Dir) : State :=
  let k := s.core core
  let l := k.link d
  match l.outStrip, s.neighbour core d with
  | some x, some m =>
    let r := (s.core m).link (dirBack d)
    if r.inStrip.isSome then s.post (.huskStripTransfer core d)
    else
      let s := s.setCore core (k.setLink d { l with outStrip := none })
      let k := s.core m
      s.setCore m (k.setLink (dirBack d) { r with inStrip := some x })
  | _, _ => s

/-- HUSK_STRIP_TRANSFER (R183). -/
def execHuskStripTransfer (core : Nat) (dir : Machine.Dir) (s : State) : Outcome :=
  .next (s.strip core dir)

/-! ## Tile streams (R185, R193) -/

/-- NLSEND (R193). -/
def execNlsend (g : Guard) (t : BitVec 5) (d : BitVec 2) (s : State) : Outcome :=
  s.slotOp g (.nlsend g t d) fun s => s.planeOp fun s => s.onLink d fun s =>
    let r := s.tile t.toNat
    if descRemote r.desc then s.huskf 9 d
    else if s.tileWaits t.toNat false then s.blockOn condTile
    else if r.poison ≠ 0 then tpoison r.poison.toNat t.toNat
    else match s.poisonedTile r.desc with
      | some o => .poison 4 o
      | none => s.unheld fun s =>
        let n := descSize r.desc
        let (s, key) := s.newKey
        let s := s.pendTile key t.toNat r.desc false
        let l := s.myLink d
        let x : Stream := ⟨n, [], key, descOff r.desc, n, false⟩
        let s := s.setMyCore (s.myCore.setLink d { l with outStreams := l.outStreams ++ [x] })
        .done (s.postOnce (.nlStreamTransfer s.cur.core d))

/-- Move what has arrived of the first stream from direction `d` into the tile that receives it; at its last
byte the tile is no longer busy (R193). -/
def State.drainStream (s : State) (core : Nat) (d : Dir) : State :=
  let k := s.core core
  let l := k.link d
  match l.recv, l.inStreams with
  | some r, x :: t =>
    if k.scoreWaits r.key then
      match s.neighbour core d with
      | some m => s.postOnce (.nlStreamTransfer m (dirBack d))
      | none => s
    else
    let n := x.bytes.length
    let k := k.poolWrite r.off x.bytes
    let r' := { r with off := r.off + n, left := r.left - n, bad := r.bad || x.bad }
    if r'.left = 0 then
      let s := s.setCore core (k.setLink d { l with recv := none, inStreams := t })
      (s.dropScore core r.key).setPoison ⟨core, r.ctx⟩ r.reg (if r'.bad then 3 else 0)
    else
      s.setCore core (k.setLink d { l with recv := some r', inStreams := { x with bytes := [] } :: t })
  | _, _ => s

/-- NLRECV (R193). -/
def execNlrecv (g : Guard) (t : BitVec 5) (d : BitVec 2) (s : State) : Outcome :=
  s.slotOp g (.nlrecv g t d) fun s => s.planeOp fun s => s.onLink d fun s =>
    let r := s.tile t.toNat
    let l := s.myLink d
    if descRemote r.desc then s.huskf 9 d
    else if l.recv.isSome then s.blockOn (condLink d)
    else match l.inStreams with
      | [] => s.blockOn (condLink d)
      | x :: _ =>
        if x.size ≠ descSize r.desc then s.huskf 8 d
        else if s.tileWaits t.toNat true then s.blockOn condTile
        else
          let (s, key) := s.newKey
          let s := s.pendTile key t.toNat r.desc true
          let l := s.myLink d
          let s := s.setMyCore (s.myCore.setLink d
            { l with recv := some ⟨key, descOff r.desc, x.size, s.cur.ctx, t.toNat, false⟩ })
          .done (s.drainStream s.cur.core d)

/-- Bytes of the inbound stream buffer in use (R183). -/
def Link.buffered (l : Link) : Nat := (l.inStreams.map fun x => x.bytes.length).sum

/-- Put the next bytes of the stream that is leaving behind what has arrived; `first` says that its header
comes with them. -/
def Link.arrive (l : Link) (first : Bool) (size : Nat) (bytes : List Byte) (bad : Bool) : Link :=
  if first then { l with inStreams := l.inStreams ++ [⟨size, bytes, 0, 0, 0, bad⟩] }
  else match l.inStreams.reverse with
    | [] => l
    | x :: t => { l with inStreams := (({ x with bytes := x.bytes ++ bytes, bad := x.bad || bad } : Stream) :: t).reverse }

/-- One chunk of the first outbound stream crosses a link, read from the sender's pool as it leaves, as far as the
receiver has room; at its last byte the sender's tile may be written again (R185, R193). -/
def State.streamChunk (s : State) (core : Nat) (d : Dir) : State :=
  match s.neighbour core d with
  | none => s
  | some m =>
    let e := dirBack d
    let s := s.drainStream m e
    let k := s.core core
    let l := k.link d
    match l.outStreams with
    | [] => s
    | x :: t =>
      let room := 16384 - ((s.core m).link e).buffered
      let n := min (min (Config.grain (3 * s.tick) % 1024 + 1) room) x.left
      if n = 0 || k.scoreWaits x.key then s.postOnce (.nlStreamTransfer core d)
      else
        let last := decide (n = x.left)
        let bytes := k.poolSpan x.off n
        let bad := k.poolPoison x.off n
        let out := if last then t else { x with off := x.off + n, left := x.left - n } :: t
        let s := s.setCore core (k.setLink d { l with outStreams := out })
        let s := if last then s.dropScore core x.key else s
        let k := s.core m
        let r := (k.link e).arrive (decide (x.left = x.size)) x.size bytes bad
        let s := (s.setCore m (k.setLink e r)).drainStream m e
        if out.isEmpty then s else s.postOnce (.nlStreamTransfer core d)

/-- NL_STREAM_TRANSFER (R193). -/
def execNlStreamTransfer (core : Nat) (dir : Machine.Dir) (s : State) : Outcome :=
  .next (s.streamChunk core dir)

/-! ## A link that goes down (R189) -/

/-- One end of a link goes down: what is in flight on it is discarded, and a tile that waits for the rest of
a stream stays as it stands, with the bytes that have come (log entry 31). -/
def Core.cutLink (k : Core) (d : Dir) : Core :=
  let l := k.link d
  let keys := l.outStreams.map (·.key) ++ (match l.recv with
    | some r => [r.key]
    | none => [])
  { k.setLink d { down := true, inStrip := l.inStrip } with score := k.score.filter fun e => e.key ∉ keys }

end Sys2Proof.Machine
end

