-- ==== Sys2Proof/Machine/Landing.lean ====
section
/-! DEFINITION. Landing zones: the M-slot instructions that reserve, arm, release and clean, and what
happens at a target and between devices (R234 to R250, R376). -/

namespace Sys2Proof.Machine

/-! ## Instructions -/

/-- LZRES (R239). -/
def execLzres (g : Guard) (d : BitVec 6) (a : BitVec 6) (b : BitVec 6) (s : State) : Outcome :=
  s.slotOp g (.lzres g d a b) fun s =>
    let x := s.srcA a
    if s.isS then s.illenc
    else if bitsOf x 63 38 ≠ 0 ∨ bitsOf x 17 0 ≠ 0 then s.struct_ 13
    else s.unheld fun s =>
      let w : Wait := .lzres s.cur.slot (handleNode x) (handleCore x) (handleZone x)
        (min (s.srcB b).toNat (2 ^ 17 - 1))
      match s.me.reply w with
      | none => .block [w]
      | some r =>
        if r.status = 0 then .done (s.deliver d (BitVec.ofNat 64 (leNat r.bytes)) 4) else prot 2 x.toNat

/-- Take `u` bytes from the slots' unclaimed bytes, lowest slot first, for barrier `b` (R242). -/
def claimBytes (b : Nat) : Nat → List Nat → Zone → Zone
  | _, [], z => z
  | u, n :: t, z =>
    let l := z.slot n
    let take := min u l.inAcc
    claimBytes b (u - take) t (z.setSlot n
      { l with inAcc := l.inAcc - take, inBar := Map.put 0 l.inBar b (Map.get 0 l.inBar b + take) })

/-- Some slot of the zone is TORN. -/
def Zone.torn (z : Zone) : Bool := z.slots.any fun p => decide (p.2.state = 4#3)

/-- Arm barrier `b` on zone `n` (R242). -/
def Core.arm (k : Core) (b n expected : Nat) : Core :=
  let k := if abState (k.barrier b) = 2 then k.spend b else k
  let z := k.zone n
  let u := min z.acc expected
  let z := claimBytes b u (List.range z.count) { z with acc := z.acc - u }
  let st := if z.torn then 3 else if expected = u then 2 else 1
  (k.setZone n z).setBarrier b (abWord st n (expected - u))

/-- LZARM (R244). -/
def execLzarm (g : Guard) (z : BitVec 2) (a : BitVec 6) (x : BitVec 3) (s : State) : Outcome :=
  s.slotOp g (.lzarm g z a x) fun s =>
    let k := s.myCore
    let v := s.srcA a
    let armedOn (n : Nat) : Bool := decide (abState (k.barrier n) = 1) && decide (abZone (k.barrier n) = z.toNat)
    if bitsOf v 63 56 ≠ 0 then s.struct_ 13
    else if !(k.zone z.toNat).valid then prot 6 0
    else if abState (k.barrier x.toNat) = 1 ∨ (List.range 8).any armedOn then s.struct_ 14
    else .done (s.setMyCore (k.arm x.toNat z.toNat v.toNat))

/-- A slot op on a zone that was set at bind and a slot that it has (R246). -/
def State.onSlot (s : State) (z : BitVec 3) (a : BitVec 6) (f : State → Nat → LzSlot → OpRes) : OpRes :=
  let k := s.myCore
  let n := (s.srcA a).toNat
  if 4 ≤ z.toNat then s.illenc
  else if !(k.zone z.toNat).valid then prot 6 0
  else if (k.zone z.toNat).count ≤ n then s.struct_ 13
  else f s n ((k.zone z.toNat).slot n)

/-- LZREL (R246). Queued reservations are granted as the slot becomes FREE (R238). -/
def execLzrel (g : Guard) (a : BitVec 6) (z : BitVec 3) (s : State) : Outcome :=
  s.slotOp g (.lzrel g a z) fun s => s.onSlot z a fun s n l =>
    if l.state ≠ 3#3 then s.struct_ 14
    else
      let k := s.myCore
      let zn := k.zone z.toNat
      let s := s.setMyCore (k.setZone z.toNat (zn.setSlot n { l with state := 0 }))
      .done (s.grantWaiting s.cur.core z.toNat)

/-- The LZSTAT status word (R247). -/
def LzSlot.status (l : LzSlot) : Dword :=
  BitVec.ofNat 64 (l.state.toNat * 2 ^ 61 + l.rn.toNat * 2 ^ 45 + (if l.late then 2 ^ 44 else 0) +
    l.cause.toNat * 2 ^ 41 + l.count * 2 ^ 24 + l.landed)

/-- LZSTAT (R247). -/
def execLzstat (g : Guard) (d : BitVec 6) (a : BitVec 6) (z : BitVec 3) (s : State) : Outcome :=
  s.slotOp g (.lzstat g d a z) fun s => s.onSlot z a fun s _ l => .done (s.deliver d l.status 4)

/-- LZCLEAN (R246). -/
def execLzclean (g : Guard) (z : BitVec 3) (s : State) : Outcome :=
  s.slotOp g (.lzclean g z) fun s =>
    let zn := s.myCore.zone z.toNat
    if 4 ≤ z.toNat then s.illenc
    else if !zn.valid then prot 6 0
    else if zn.torn then s.blockOn (condClean + z.toNat)
    else .done s

/-! ## Zero-filling (R246, R248) -/

/-- The waits of a core's contexts for a zone to be clean are asked again. -/
def State.retryClean (s : State) (core zone : Nat) : State :=
  (s.core core).ctxs.foldl (fun s p =>
    p.2.waits.foldl (fun s x => match x with
      | .cond _ code => if code = condClean + zone then s.answer ⟨core, p.1⟩ x [] stRetry else s
      | _ => s) s) s

/-- SLOT_ZERO_FILL_COMPLETE (R246). Once every TORN slot of the zone is zero-filled, each becomes FREE. -/
def execSlotZeroFillComplete (core zone slot : Nat) (s : State) : Outcome :=
  let k := s.core core
  let z := k.zone zone
  let l := z.slot slot
  if l.state ≠ 4#3 then .next s
  else
    let k := k.poolWrite (z.base + slot * z.size) (List.replicate z.size 0)
    let z := z.setSlot slot { l with cleaning := true }
    let s := s.setCore core (k.setZone zone z)
    if z.slots.all fun p => decide (p.2.state ≠ 4#3) || p.2.cleaning then
      let z := { z with slots := z.slots.map fun p =>
        if p.2.state = 4#3 then (p.1, { p.2 with state := 0, cleaning := false }) else p }
      .next (((s.setCore core ((s.core core).setZone zone z)).grantWaiting core zone).retryClean core zone)
    else .next (s.startClean core zone)

/-! ## Reservations at a target (R237 to R239) -/

/-- A reservation request reaches its target (R237, R238, R239): no zone, an access refused, a bad count, a grant,
a place in the queue, or BUSY. A core that is not bound has no zone, whatever its access table grants (R396). -/
def State.reserve (s : State) (q : LzReq) : State :=
  let k := s.core q.core
  let z := k.zone q.zone
  let r : LzQueued := ⟨q, s.dev.cycle, s.pinPort q.node q.core q.zone, false⟩
  if !z.valid then s.answerRes r (s.handleOf q 2 0 0) false
  else if !s.landRight q.core q.zone q.node q.asid then
    (s.log (coreDie q.core) 0x0F q.asid q.core 7 2).answerRes r (s.handleOf q 0 0 0) true
  else if q.count = 0 ∨ z.size < q.count then s.answerRes r (s.handleOf q 3 0 0) false
  else match z.freeSlot with
    | some n => s.grantSlot r n
    | none =>
      if 16 ≤ k.lzq.length then s.answerRes r (s.handleOf q 1 0 0) false
      else s.setCore q.core { k with lzq := k.lzq ++ [r] }

/-- The native message of a reservation (R376). -/
def State.sendReserve (s : State) (q : LzReq) : State :=
  s.landMsg 0x07 q.node q.asid q.tag 0
    (q.count + q.node * 2 ^ 18 + q.core * 2 ^ 26 + q.zone * 2 ^ 36) []

/-- The wait of the LZRES that made a request. -/
def LzReq.wait (q : LzReq) : Wait := .lzres q.slot q.node q.core q.zone q.count

/-- Give an answer to the LZRES that asked, if it still waits (R239). -/
def State.giveRes (s : State) (q : LzReq) (handle : Dword) (status : Nat) : State :=
  if q.wait ∈ (s.ctx q.who).asked then s.answer q.who q.wait (leBytes 8 handle.toNat) status else s

/-- LZRES_MSG (R238). A request of this device, marked by its tag, is sent to its node's core or device; one
from another device reaches its target, which answers a tag repeated over Ethernet as before. -/
def execLzresMsg (m : Machine.LzReq) (s : State) : Outcome :=
  if m.tag = 65536 then
    let here := decide (m.node = s.dev.node.toNat)
    match (if here then some false else s.landRoute m.node) with
    | none => .next (s.giveRes m (s.handleOf m 4 0 0) 0)
    | some eth =>
      let (s, tag) := s.newTag
      let q := { m with tag := tag }
      let s := s.setDev { s.dev with lzOut := s.dev.lzOut ++ [⟨q, s.dev.cycle, s.dev.cycle, eth, s.pinPort m.node m.core m.zone, false, false⟩] }
      .next (if here then s.reserve q else s.sendReserve q)
  else
    let old := s.dev.lzAnswered.find? fun a => decide (a.1.tag = m.node * 65536 + m.tag) &&
      decide ((s.dev.cycle - a.2).toNat < 250000)
    let queued := (s.core m.core).lzq.any fun q => decide (q.req.tag = m.tag) && decide (q.req.node = m.node)
    if s.landRoute m.node = some true then
      match old with
      | some a => .next (s.landMsg 0x08 m.node m.asid m.tag (a.1.handle.extractLsb' 52 12) (a.1.handle.toNat % 2 ^ 52) [])
      | none => .next (if queued then s else s.reserve m)
    else .next (s.reserve m)

/-- LZABORT for a reservation of another device (R235, R376). -/
def State.sendAbort (s : State) (asid : Nat) (h : Dword) : State :=
  s.landMsg 0x0B (handleNode h) asid 0 0 (landingWord 0 (handleSlot h) (handleZone h) (handleRn h) (handleCore h)) []

/-- The device gives up a reservation that it holds: the slot tears with cause 2 (R235). -/
def State.abortHeld (s : State) (asid : Nat) (h : Dword) : State :=
  if handleNode h ≠ s.dev.node.toNat then s.sendAbort asid h
  else if (((s.core (handleCore h)).zone (handleZone h)).slot (handleSlot h)).rn.toNat = handleRn h then
    s.tearSlot (handleCore h) (handleZone h) (handleSlot h) 2
  else s

/-- A granted reservation is recorded; an older one of the same slot has passed. -/
def State.holdLanding (s : State) (o : LzOut) (h : Dword) : State :=
  let slotOf (x : Dword) : Nat := bitsOf x 43 18
  s.setDev { s.dev with
    lzHeld := (s.dev.lzHeld.filter fun r => decide (slotOf r.handle ≠ slotOf h)) ++
      [⟨o.req.who, o.req.asid, h, o.port, 0, o.cut⟩] }

/-- LZANS (R239). An answer that nothing waits for is dropped (R238); a grant to a sender that has died is aborted
(R235). -/
def execLzans (m : Machine.LzAns) (s : State) : Outcome :=
  match s.dev.lzOut.find? fun o => o.req.tag = m.tag with
  | none => .next s
  | some o =>
    let s := s.setDev { s.dev with lzOut := s.dev.lzOut.filter (· ≠ o) }
    let refused := m.refused || decide (bitsOf m.handle 63 60 = 15)
    let granted := !refused && decide (bitsOf m.handle 63 60 = 0)
    let s := if refused && decide (o.req.node ≠ s.dev.node.toNat) then s.logCtx o.req.who 0x0F 2 else s
    if o.gone then .next (if granted then s.abortHeld o.req.asid m.handle else s)
    else
    let s := if granted then s.holdLanding o m.handle else s
    .next (s.giveRes o.req m.handle (if refused then 1 else 0))

/-- LZRES_QUEUE_TIMEOUT (R238). -/
def execLzresQueueTimeout (core tag : Nat) (s : State) : Outcome :=
  match (s.core core).lzq.find? fun q => decide (q.req.tag = tag) &&
      decide (125000 ≤ (s.dev.cycle - q.since).toNat) with
  | none => .next s
  | some q =>
    let k := s.core core
    .next ((s.setCore core { k with lzq := k.lzq.erase q }).answerRes q (s.handleOf q.req 1 0 0) false)

/-- The handle of an LZRES that no answer reached (R238). -/
def LzReq.noRoute (q : LzReq) : Dword :=
  BitVec.ofNat 64 (4 * 2 ^ 60 + q.zone * 2 ^ 36 + q.core * 2 ^ 26 + q.node * 2 ^ 18 + q.count)

/-- LZRES_ANSWER_TIMEOUT (R238). -/
def execLzresAnswerTimeout (tag : Nat) (s : State) : Outcome :=
  match s.dev.lzOut.find? fun o => decide (o.req.tag = tag) && decide (250000 ≤ (s.dev.cycle - o.sent).toNat) with
  | none => .next s
  | some o =>
    let s := s.setDev { s.dev with lzOut := s.dev.lzOut.filter (· ≠ o) }
    .next (s.giveRes o.req o.req.noRoute 0)

/-- LZRES_RESEND_TIMEOUT (R376). -/
def execLzresResendTimeout (tag : Nat) (s : State) : Outcome :=
  match s.dev.lzOut.find? fun o => decide (o.req.tag = tag) && o.ethernet &&
      decide (12500 ≤ (s.dev.cycle - o.resent).toNat) with
  | none => .next s
  | some o =>
    let s := s.setDev { s.dev with
      lzOut := s.dev.lzOut.map fun x => if x = o then { x with resent := s.dev.cycle } else x }
    .next (s.sendReserve o.req)

/-! ## Packets and tears at a target (R235, R236, R242) -/

/-- A packet's bytes are counted by the armed barrier of the zone, and the rest by LZACC (R242). -/
def Core.countLanding (k : Core) (zone slot n : Nat) : Core :=
  let z := k.zone zone
  let l := z.slot slot
  match (List.range 8).find? fun b =>
      decide (abState (k.barrier b) = 1) && decide (abZone (k.barrier b) = zone) with
  | none => k.setZone zone { (z.setSlot slot { l with inAcc := l.inAcc + n }) with acc := sat56 (z.acc + n) }
  | some b =>
    let p := abPending (k.barrier b)
    let c := min n p
    let l := { l with inAcc := l.inAcc + (n - c), inBar := Map.put 0 l.inBar b (Map.get 0 l.inBar b + c) }
    (k.setZone zone { (z.setSlot slot l) with acc := sat56 (z.acc + (n - c)) }).setBarrier b
      (abWord (if p = c then 2 else 1) zone (p - c))

/-- A packet that its slot does not take: the late bit, the black box, and error 6 for its sender (R236). -/
def State.dropPacket (s : State) (m : LzPkt) : State :=
  let k := s.core m.core
  let z := k.zone m.zone
  let s := if z.valid && decide (m.slot < z.count) then
    s.setCore m.core (k.setZone m.zone (z.setSlot m.slot { z.slot m.slot with late := true })) else s
  (s.log (coreDie m.core) 0x11 m.asid m.core 7 m.zone).ackPacket m (z.slot m.slot).pkts 1

/-- A packet lands, whole, or is dropped (R235, R236, R376). -/
def State.landPacket (s : State) (m : LzPkt) : State :=
  let k := s.core m.core
  let z := k.zone m.zone
  let l := z.slot m.slot
  let n := m.bytes.length
  if !z.valid || decide (z.count ≤ m.slot) then s.dropPacket m
  else if !s.landRight m.core m.zone m.node m.asid then
    let s := (s.log (coreDie m.core) 0x0F m.asid m.core 7 2).tearSlot m.core m.zone m.slot 5
    s.ackPacket m l.pkts 3
  else if m.ethernet ∧ m.rn = l.rn ∧ m.seq ≠ l.pkts then s.ackPacket m l.pkts 0
  else if !l.live || decide (m.rn ≠ l.rn) || decide (l.count < l.landed + n) || decide (z.size < m.off + n) then
    s.dropPacket m
  else
    let k := k.poolWrite (z.base + m.slot * z.size + m.off) m.bytes
    let l := { l with
      landed := l.landed + n, pkts := l.pkts + 1, since := s.dev.cycle,
      state := if l.landed + n = l.count then 3#3 else 2#3 }
    let k := (k.setZone m.zone (z.setSlot m.slot l)).countLanding m.zone m.slot n
    (s.setCore m.core k).ackPacket m l.pkts 0

/-- LZPKT (R236). -/
def execLzpkt (m : Machine.LzPkt) (s : State) : Outcome :=
  .next (s.landPacket m)

/-- LZABORT (R235). -/
def execLzabort (m : Machine.LzAbort) (s : State) : Outcome :=
  let l := ((s.core m.core).zone m.zone).slot m.slot
  .next (if l.rn = m.rn then s.tearSlot m.core m.zone m.slot 2 else s)

/-- LZ_SLOT_TIMEOUT (R235). -/
def execLzSlotTimeout (core zone slot : Nat) (s : State) : Outcome :=
  let l := ((s.core core).zone zone).slot slot
  .next (if l.live && decide (125000 ≤ (s.dev.cycle - l.since).toNat) then s.tearSlot core zone slot 3 else s)

/-- LZPKT_RESEND_TIMEOUT (R376). -/
def execLzpktResendTimeout (x : Machine.XferId) (s : State) : Outcome :=
  match s.dev.lzSends.find? fun l => decide (l.x = x) && l.ethernet && decide (12500 ≤ (s.dev.cycle - l.since).toNat) with
  | none => .next s
  | some l =>
    let s := s.setDev { s.dev with
      lzSends := s.dev.lzSends.map fun y => if y = l then { y with since := s.dev.cycle } else y }
    .next (if s.frozenCore x.core then s
      else (l.pkts.drop (l.acked - l.base)).foldl (fun s p => s.sendPacket p (handleNode l.handle)) s)

end Sys2Proof.Machine
end

