-- ==== Sys2Proof/Machine/Recipe.lean ====
section
/-! DEFINITION. Recipe tiles: the M-slot instructions on them, and what the sprout engine does (R285 to
R297). -/

namespace Sys2Proof.Machine

/-! ## Records (R286) -/

/-- The eight-byte field at an offset of a record. -/
def recWord (rc : List Byte) (o : Nat) : Nat := leNat ((rc.drop o).take 8)

def recEntry (rc : List Byte) : Nat := leNat ((rc.drop 8).take 4)
def recMax (rc : List Byte) : Nat := leNat ((rc.drop 12).take 4)

/-- The depth class; 0 reads as 4. -/
def recClass (rc : List Byte) : Nat := if recWord rc 0x38 = 0 then 4 else recWord rc 0x38

/-- The record obeys R286 for the tile at `va`. -/
def recOk (rc : List Byte) (va : Nat) : Bool :=
  decide (recWord rc 0 % 64 = 0) && decide (recWord rc 0 < 2 ^ 52) && decide (2 ≤ recEntry rc % 32) &&
    decide (1 ≤ recMax rc) &&
    (List.range 4).all (fun i => decide (recWord rc (0x10 + 8 * i) % 16384 = 0)) &&
    decide (recWord rc 0x30 = va) && decide (recWord rc 0x38 ≤ 4) &&
    (rc.drop 0x60).all fun b => decide (b = 0)

/-! ## The steps that the ops share (R294) -/

/-- RFAIL of a declaration (R297). -/
def recipeFail (kind va : Nat) : OpRes := .trap cRFAIL (regrowInfo kind 0 va 0)

/-- RSEALW at a tile. -/
def recipeSealed (va : Nat) : OpRes := .trap cRSEALW (BitVec.ofNat 64 (va % 2 ^ 52))

/-- Alignment, translation, page class and rights, then the order; `f` goes on at the tile home. -/
def State.recipeStart (s : State) (a : BitVec 6) (waits : Bool) (f : State → Place → OpRes) : OpRes :=
  let ea := (s.srcA a).toNat
  if ea % 16384 ≠ 0 then alignFault ea
  else if inWindow ea ∨ inAperture ea then prot 6 ea
  else
    let cls := (s.myCore.tlbFind ea).map (·.cls)
    if ea < 2 ^ 52 ∧ cls = some clsQuarantined then prot 3 ea
    else if ea < 2 ^ 52 ∧ cls ≠ none ∧ cls ≠ some clsRecipe then prot 5 ea
    else
      match s.translate s.who ea .write with
      | .error r => r
      | .ok p =>
        if s.isRemote p.pa then prot 5 ea
        else
          match s.refusedBy s.dev.node.toNat s.myCore.asid p.key [1] with
          | some d => .denied d ea
          | none => if waits then s.afterAll 2 fun s => f s p else s.unheld fun s => f s p

/-- An op on a declared tile. -/
def State.onTile (s : State) (p : Place) (f : Recipe → OpRes) : OpRes :=
  match s.recipe p.key with
  | none => recipeFail 3 p.va
  | some r => f r

/-- A tile is dropped (R287). The homes of its lines hear of it later, and serve the sealed bytes until then (R288). -/
def State.dropTile (s : State) (r : Recipe) : State :=
  let a := Map.get {} s.dev.asids r.asid
  let s := s.setRecipe { r with st := .absent, late := (List.range 128).map (r.tile / 128 + ·) }
  s.setDev { s.dev with asids := Map.put {} s.dev.asids r.asid { a with rgdrop := a.rgdrop + 1 } }

/-- An RDROP reaches its tile's home: a SEALED tile that nothing pins is dropped (R287, R294). -/
def State.dropAtHome (s : State) (tile : Nat) : State :=
  match s.recipe tile with
  | some r => if r.st = .sealed ∧ r.pins = 0 then s.dropTile r else s
  | none => s

/-- Drops on their way may arrive: RDROPs at their tiles' homes, and what a tile's home tells the homes of its lines
(R288, R401, R403; log entry 106). -/
def State.dropsArrive (s : State) : State :=
  let t := s.tick
  let (now, left) := s.dev.drops.zipIdx.partition fun x => Config.dropArrives t x.2
  let s := (now.map (·.1)).foldl State.dropAtHome (s.setDev { s.dev with drops := left.map (·.1) })
  s.setDev { s.dev with recipes := s.dev.recipes.map fun r =>
    { r with late := r.late.filter fun l => !Config.dropArrives t l } }

/-- RDECL with a null record (R287, R295). -/
def State.undeclare (s : State) (tile : Nat) : State :=
  match s.recipe tile with
  | none => s
  | some r =>
    if r.st = .queued ∨ r.st = .growing then s
    else
      let s := if r.st = .absent then s.zeroTile tile else s
      s.setDev { s.dev with recipes := (s.dev.recipes.filter fun x => x.tile ≠ tile).map fun x =>
      { x with pinned := x.pinned.filter (· ≠ tile) } }

/-- Entries in use in a die's directory (R285). -/
def State.directoryUsed (s : State) (die : Nat) : Nat :=
  (s.dev.recipes.filter fun r => homeDie r.tile = die).length

/-- Attach a record to a tile (R295). -/
def State.declare (s : State) (p : Place) (rc : List Byte) : OpRes :=
  if !recOk rc p.va then recipeFail 3 p.va
  else
    match s.recipe p.key with
    | some r => .done (s.setRecipe { r with va := p.va, rc := rc, asid := s.myCore.asid })
    | none =>
      if 16384 ≤ s.directoryUsed (homeDie p.key) then recipeFail 4 p.va
      else
        let r : Recipe := ⟨p.key, p.va, rc, .declared, 0, s.myCore.asid, 0, [], none, 0, [], [], []⟩
        .done (s.setDev { s.dev with recipes := s.dev.recipes ++ [r] })

/-- The registered words of a tile with their owners, the LOST ones left out. -/
def State.tileOwners (s : State) (tile : Nat) : List (Nat × Nat) :=
  s.dev.owner.filterMap fun p =>
    match p.2 with
    | some o => if inTile tile p.1 ∧ o.agent ≠ ownLost then some (p.1, o.agent) else none
    | none => none

/-- Revoke every registered word of a tile with write-back (R257, R294). -/
def State.revokeTile (s : State) (tile : Nat) : EngRes State :=
  let os := s.tileOwners tile
  match os.find? (fun o => decide (o.2 = ownBridge)) with
  | some o => .need (.snoop (o.1 / 64) true)
  | none =>
    if s.pending.any (ofTile tile) ||
        os.any (fun o => decide (((s.core o.2).word o.1).st ≠ .O)) then .need .wait
    else .ok (os.foldl (fun s o => s.takeBack o.1 o.2) s)

/-! ## Instructions -/

/-- RDECL (R295). -/
def execRdecl (g : Guard) (a : BitVec 6) (b : BitVec 6) (s : State) : Outcome :=
  s.slotOp g (.rdecl g a b) fun s => s.recipeStart a true fun s p =>
    let rb := s.srcB b
    if rb = 0 then .done (s.undeclare p.key)
    else if rb.toNat % 128 ≠ 0 then alignFault rb.toNat
    else
      match s.recipe p.key with
      | some r =>
        if r.st ≠ .declared then recipeSealed p.va
        else
          match s.devRead rb.toNat 128 with
          | .error f => f
          | .ok rc => (s.engDone s.opAgent).declare p rc
      | none =>
        match s.devRead rb.toNat 128 with
        | .error f => f
        | .ok rc => (s.engDone s.opAgent).declare p rc

/-- RPIN (R294). Only an ABSENT tile is regrown first, and RDONE then pins it; in every other state the count rises at
once. One that has asked waits for its answer. -/
def execRpin (g : Guard) (a : BitVec 6) (s : State) : Outcome :=
  s.slotOp g (.rpin g a) fun s => s.recipeStart a true fun s p => s.onTile p fun r =>
    let x : Wait := .pin s.cur.slot r.tile r.va
    match s.me.reply x with
    | some y =>
      if y.status = 0 then .done s else .trap (BitVec.ofNat 8 y.status) (BitVec.ofNat 64 (leNat y.bytes))
    | none =>
      if x ∈ s.me.asked then .block [x]
      else if r.pins = 65535 then recipeFail 6 p.va
      else if r.st = .absent then .block [x]
      else .done (s.setRecipe { r with pins := r.pins + 1 })

/-- RUNPIN (R294). -/
def execRunpin (g : Guard) (a : BitVec 6) (s : State) : Outcome :=
  s.slotOp g (.runpin g a) fun s => s.recipeStart a true fun s p => s.onTile p fun r =>
    if r.pins = 0 then recipeFail 6 p.va else .done (s.setRecipe { r with pins := r.pins - 1 })

/-- RSEAL (R294). -/
def execRseal (g : Guard) (a : BitVec 6) (s : State) : Outcome :=
  s.slotOp g (.rseal g a) fun s => s.recipeStart a true fun s p => s.onTile p fun r =>
    if r.st ≠ .declared then .done s
    else
      match s.revokeTile p.key with
      | .ok s => .done ((s.engDone s.opAgent).setRecipe { r with st := .sealed })
      | .need .wait => s.blockOn condOrder
      | .need n => .block [.need s.cur.slot n]
      | .err _ => s.blockOn condOrder

/-- RDROP (R294). It has no completion: the tile's home takes it when it arrives. -/
def execRdrop (g : Guard) (a : BitVec 6) (s : State) : Outcome :=
  s.slotOp g (.rdrop g a) fun s => s.recipeStart a false fun s p =>
    .done (s.setDev { s.dev with drops := s.dev.drops ++ [p.key] })

/-! ## Regrowing (R289 to R291) -/

/-- The core that stands for the engine itself, which requests the sources of a record. -/
def sourceCore : Nat := 1023

/-- Requests in the queue of a depth on a die. -/
def State.regrowQueue (s : State) (die depth : Nat) : Nat :=
  (s.dev.regrows.filter fun q => decide (homeDie q.tile = die) && decide (q.depth = depth)).length

/-- Room for a request in its queue, and no other that has waited longer for it (R289). -/
def State.regrowTurn (s : State) (q : RegrowReq) : Bool :=
  let same (x : RegrowReq) : Bool := decide (homeDie x.tile = homeDie q.tile) && decide (x.depth = q.depth)
  let waits (x : RegrowReq) : Bool := decide (x = q) || decide ((.regrowRequest x) ∈ s.pending) ||
    (decide (x.who.core = sourceCore) && ((s.recipe x.tile).map (·.st)) = some .absent && s.dev.recipes.any fun r =>
      decide (r.st = .queued) && decide (r.depth + 1 = x.depth) && decide (x.va ∈ recipeSources r.rc))
  decide (s.regrowQueue (homeDie q.tile) q.depth < 64) &&
    match s.dev.regrowWait.find? fun x => same x && waits x with
    | some x => decide (x = q)
    | none => true

/-- A request waits at the engine, in arrival order (R289). -/
def State.waitTurn (s : State) (q : RegrowReq) : State :=
  if q ∈ s.dev.regrowWait then s else s.setDev { s.dev with regrowWait := s.dev.regrowWait ++ [q] }

/-- A request no longer waits at the engine. -/
def State.leaveLine (s : State) (q : RegrowReq) : State :=
  s.setDev { s.dev with regrowWait := s.dev.regrowWait.filter (· ≠ q) }

/-- A context's access is answered by a failure of its regrow. -/
def State.refuseRegrow (s : State) (q : RegrowReq) (info : Dword) : State :=
  match q.engine with
  | some x => s.setDev { s.dev with engFail := s.dev.engFail ++ [(x, q.tile)] }
  | none => ((s.ctx q.who).asked.filter (isTileWait q.tile)).foldl
      (fun s x => s.answer q.who x (leBytes 8 info.toNat) cRDEPTH.toNat) s

/-- The request breaks a depth limit: TRAPINFO of RDEPTH, `va` naming the tile and `outer` the tile on whose
behalf it is made (R289, R297). -/
def depthFault (r : Recipe) (depth outer : Nat) : Option Dword :=
  if 4 < depth then some (regrowInfo 0 3 outer 0)
  else if recClass r.rc < depth then some (regrowInfo 0 (depth - 1) r.va 0)
  else none

/-- An ABSENT tile's regrow joins its queue. -/
def State.queueRegrow (s : State) (r : Recipe) (depth launch : Nat) (waiter : List (Who × Option XferId))
    (q : RegrowReq) : State :=
  let s := s.setRecipe { r with st := .queued, depth := depth, waiters := waiter, at_ := none, launch := launch }
  (s.setDev { s.dev with regrows := s.dev.regrows ++ [q] }).post (.sliceStart r.tile)

/-- An access of a slice to a tile that stands QUEUED or GROWING at its own depth or a lower one would close a circle:
TRAPINFO of RDEPTH (R290, R297). -/
def State.circle (s : State) (r : Recipe) (q : RegrowReq) : Option Dword :=
  match (s.ctx q.who).slice with
  | some sl => if r.st ≠ .absent ∧ r.depth ≤ sl.depth then some (regrowInfo 0 (r.depth - 1) r.va 0) else none
  | none => none

/-- A request whose tile is not present meets its limits, joins the regrow, or has its turn in the queue (R288 to
R290). -/
def State.takeRequest (s : State) (r : Recipe) (q : RegrowReq) : State :=
  let outer := match (s.ctx q.who).slice with
    | some sl => sl.va
    | none => r.va
  match depthFault r q.depth outer, s.circle r q with
  | some info, _ => (s.leaveLine q).refuseRegrow q info
  | none, some info => (s.leaveLine q).refuseRegrow q info
  | none, none =>
    if r.st ≠ .absent then
      (let s := s.leaveLine q
       if (q.who, q.engine) ∈ r.waiters then s
       else s.setRecipe { r with waiters := r.waiters ++ [(q.who, q.engine)] })
    else if s.regrowTurn q then
      (s.leaveLine q).queueRegrow r q.depth (s.core q.who.core).binding.launch [(q.who, q.engine)] q
    else (s.waitTurn q).post (.regrowRequest q)

/-- REGROW_REQUEST (R289). -/
def execRegrowRequest (q : Machine.RegrowReq) (s : State) : Outcome :=
  let again (s : State) : State := (s.leaveLine q).unask q.who (isTileWait q.tile)
  match s.recipe q.tile with
  | none => .next (again s)
  | some r => .next (if r.st = .declared ∨ r.st = .sealed then again s else s.takeRequest r q)

/-- The declared recipe tiles among the sources of a record. -/
def State.sourceTiles (s : State) (r : Recipe) : List Recipe :=
  s.dev.recipes.filter fun x => decide (x.asid = r.asid) && decide (x.va ∈ recipeSources r.rc)

/-- Request the ABSENT sources of a queued tile: none when one of them is refused, with the failure; `full`
tells that a queue had no room. -/
def requestSources (r : Recipe) : List Recipe → State → Except Dword State
  | [], s => .ok s
  | x :: t, s =>
    if x.st ≠ .absent then requestSources r t s
    else
      let d := r.depth + 1
      match depthFault x d r.va with
      | some info => .error info
      | none =>
        let q : RegrowReq := ⟨x.tile, x.va, x.asid, d, ⟨sourceCore, 0⟩, none⟩
        requestSources r t
          (if s.regrowTurn q then (s.leaveLine q).queueRegrow x d r.launch [] q else s.waitTurn q)

/-- The regrow core of a launch and a class for a die: its own die first, then the one idle longest, then
the lowest-numbered (R289). Whether there is one at all, and one that is idle. -/
def State.regrowCore (s : State) (launch depth die : Nat) : Bool × Option Nat :=
  let ofLaunch (p : Nat × Core) : Bool := match p.2.bind with
    | some b => decide (b.launch = launch) && b.recipes && decide (p.2.depth.toNat = depth) && !p.2.dead
    | none => false
  let cores := s.cores.filter ofLaunch
  let idle := cores.filter fun p =>
    let c := p.2.ctx 3
    decide (c.life = .idle) && c.slice.isNone && c.acc.isEmpty && c.mq.isEmpty && p.2.xfers.all fun t => t.ctx ≠ 3
  let own := idle.filter fun p => coreDie p.1 = die
  let pool := if own.isEmpty then idle else own
  let best := pool.foldl (fun (b : Option (Nat × Core)) p =>
    match b with
    | none => some p
    | some q => if p.2.lastSlice < q.2.lastSlice then some p else b) none
  (!cores.isEmpty, best.map (·.1))

/-- The slice's first bundle. -/
def recStart (rc : List Byte) : Addr := BitVec.ofNat 52 (recWord rc 0 + 2 * recEntry rc)

/-- Start the slice of a tile in ctx3 of a core (R289, R291). -/
def State.startSlice (s : State) (r : Recipe) (core : Nat) : State :=
  let srcs := (s.sourceTiles r).map (·.tile)
  let s := s.setDev { s.dev with recipes := s.dev.recipes.map fun x =>
    if x.tile ∈ srcs then { x with pins := x.pins + 1 } else x }
  let w : Who := ⟨core, 3⟩
  let pins := match s.recipe r.tile with
    | some x => x.pins
    | none => r.pins
  let s := (s.setRecipe { r with st := .growing, at_ := some w, pins := pins, pinned := srcs, late := [] }).zeroTile r.tile
  let k := s.core core
  let rc := (s.launch r.launch).rc
  let word (i : Nat) : Dword := BitVec.ofNat 64 (recWord r.rc i)
  let vals := [word 0x30, word 0x10, word 0x18, word 0x20, word 0x28, word 0x40, word 0x48, word 0x50,
    word 0x58, BitVec.ofNat 64 r.depth]
  let scalars := vals.zipIdx.foldl (fun m p => Map.put 0 m (p.2 + 1) p.1) []
  let regs := k.entryRegs rc.flags (recStart r.rc) scalars (recWord r.rc 0x30 / 2 ^ 14 % 2 ^ 32)
  let c := (s.ctx w).enter regs (BitVec.ofNat 4 rc.prio) (s.ctx w).chmask
  let s := s.setCore core (k.newStrand 3)
  s.setCtx w { c with slice := some ⟨r.tile, r.va, r.depth, 0, recMax r.rc⟩ }

/-- SLICE_START (R289). -/
def execSliceStart (tile : Nat) (s : State) : Outcome :=
  match s.recipe tile with
  | none => .next s
  | some r =>
    if r.st ≠ .queued then .next s
    else
      let srcs := s.sourceTiles r
      match requestSources r srcs s with
      | .error info => .next (s.failRegrow 8 tile cRDEPTH info)
      | .ok s =>
        if srcs.any fun x => decide (x.st ≠ .declared) && decide (x.st ≠ .sealed) then
          .next (s.post (.sliceStart tile))
        else
          match s.regrowCore r.launch r.depth (homeDie tile) with
          | (false, _) => .next (s.failRegrow 8 tile cRFAIL (regrowInfo 5 (r.depth - 1) r.va 0))
          | (true, none) => .next (s.post (.sliceStart tile))
          | (true, some core) => .next (s.startSlice r core)

end Sys2Proof.Machine
end

