-- ==== Sys2Proof/Machine/Card.lean ====
section
/-! DEFINITION. Job cards: JCPUSH, JCPOP, and what moves cards and their operands (R320, R321). -/

namespace Sys2Proof.Machine

/-- The operands of a card: source address, pool offset, byte count (R320). -/
def cardOperands (bs : List Byte) : List (Nat × Nat × Nat) :=
  (List.range (recWord bs 8)).map fun i =>
    (recWord bs (0x30 + 16 * i), leNat ((bs.drop (0x38 + 16 * i)).take 4), leNat ((bs.drop (0x3C + 16 * i)).take 4))

/-- The card obeys R320 under a launch's pool boundaries. -/
def cardOk (b : Bind) (bs : List Byte) : Bool :=
  decide (recWord bs 8 ≤ 4) &&
    (cardOperands bs).all (fun o =>
      decide (b.pb1 ≤ o.2.1) && decide (o.2.1 + o.2.2 ≤ b.pb2) && decide (o.2.1 % 128 = 0) &&
        decide (128 ≤ o.2.2) && decide (o.2.2 ≤ 65536) && decide (o.2.2 % 128 = 0)) &&
    (bs.drop 0x70).all fun x => decide (x = 0)

/-- The cores that run a launch. -/
def State.launchCores (s : State) (launch : Nat) : List Nat :=
  (s.cores.filter fun p => p.2.boundTo launch).map (·.1)

/-- The die that holds the first operand, the issuing core's own when it has none or it cannot be told. -/
def State.cardDie (s : State) (ops : List (Nat × Nat × Nat)) : Except OpRes Nat :=
  match ops with
  | [] => .ok (coreDie s.cur.core)
  | o :: _ =>
    if inWindow o.1 ∨ inAperture o.1 then .ok (coreDie s.cur.core)
    else
      match s.translate s.who o.1 .read with
      | .ok p => .ok (homeDie p.key)
      | .error (.block ws) => .error (.block ws)
      | .error _ => .ok (coreDie s.cur.core)

/-- The core that a card goes to in normal mode. -/
def State.cardCore (s : State) (ops : List (Nat × Nat × Nat)) : Nat :=
  match ops with
  | [] => s.cur.core
  | o :: _ =>
    let cores := s.launchCores s.myCore.binding.launch
    cores.getD (Config.cardHash (o.1 / 128) % max 1 cores.length) s.cur.core

/-- Cards in the queue of a core, or of a die. -/
def State.cardsAt (s : State) (die : Bool) (n : Nat) : Nat :=
  (s.dev.cards.filter fun d => decide (d.die = die) && decide (d.core = n)).length

/-- Put a card in its queue; in normal mode its operands begin to move, and cores that wait may come to
steal it. -/
def State.pushCard (s : State) (ea : Nat) (ops : List (Nat × Nat × Nat)) (die : Bool) (n : Nat) : State :=
  let launch := s.myCore.binding.launch
  let id := s.dev.nextCard
  let d : Card := ⟨id, ea, launch, n, die, false, s.dev.cycle, ops⟩
  let s := s.setDev { s.dev with cards := s.dev.cards ++ [d], nextCard := id + 1 }
  if die then claimCards n s.dev.cards s
  else
    let s := s.post (.jobCardReady id)
    s.cores.foldl (fun s p =>
      if p.1 ≠ n ∧ coreDie p.1 = coreDie n ∧ p.2.binding.launch = launch ∧ 0 < p.2.popping then
        s.post (.jobCardSteal p.1 id) else s) s

/-- JCPUSH (R321). -/
def execJcpush (g : Guard) (a : BitVec 6) (s : State) : Outcome :=
  s.slotOp g (.jcpush g a) fun s =>
    let ea := (s.srcA a).toNat
    if s.isS || s.isRegrow then s.illenc
    else if ea % 128 ≠ 0 then alignFault ea
    else
      match s.windowCheck ea 128 with
      | some r => r
      | none =>
        match (if inWindow ea then .ok [] else s.linePlaces ea 128 .read) with
        | .error r => r
        | .ok _ =>
          s.afterAll 2 fun s =>
            match s.devRead ea 128 with
            | .error r => r
            | .ok bs =>
              let b := s.myCore.binding
              let ops := cardOperands bs
              if !cardOk b bs then s.struct_ 13
              else
                match (if b.dieQueue then s.cardDie ops else .ok (s.cardCore ops)) with
                | .error r => r
                | .ok n =>
                  if 64 ≤ s.cardsAt b.dieQueue n then s.blockOn condOrder
                  else .done ((s.engDone s.opAgent).pushCard ea ops b.dieQueue n)

/-- JCPOP (R321). One that waited when every live strand was blocked in JCPOP delivers 0, whatever has been pushed since. -/
def execJcpop (g : Guard) (d : BitVec 6) (s : State) : Outcome :=
  s.slotOp g (.jcpop g d) fun s =>
    let b := s.myCore.binding
    if s.isS || s.isRegrow then s.illenc
    else
      let card := s.dev.cards.find? fun c => c.ready && !c.die && decide (c.core = s.cur.core) &&
          decide (c.launch = b.launch)
      match s.me.reply (.cond s.cur.slot condCard), card with
      | some _, _ => .done ((s.acquire s.who).deliver d 0 4)
      | none, some c =>
        let s := s.setDev { s.dev with cards := s.dev.cards.filter fun x => x.id ≠ c.id }
        .done ((s.acquire s.who).deliver d (BitVec.ofNat 64 c.addr) 4)
      | none, none => s.blockOn condCard

/-- The agent that moves a card's operands. -/
def State.cardAgent (s : State) (c : Card) : Agent := s.agent ⟨c.core, 0⟩ 20 (BitVec.ofNat 32 c.id)

/-- Move operands into the pool of the core that runs the card. -/
def moveOperands (g : Agent) : List (Nat × Nat × Nat) → State → EngRes State
  | [], s => .ok s
  | (va, o, n) :: t, s =>
    (s.engReadVa g va n).bind fun bs =>
      moveOperands g t (s.setCore g.core ((s.core g.core).poolWrite o bs))

/-- JOB_CARD_READY (R321). An operand that cannot be read leaves the card waiting. -/
def execJobCardReady (card : Nat) (s : State) : Outcome :=
  match s.dev.cards.find? (fun c => decide (c.id = card) && !c.die) with
  | none => .next s
  | some c =>
    let ag := s.cardAgent c
    match moveOperands ag c.ops s with
    | .ok t =>
      let t := t.engDone ag
      .next (t.setDev { t.dev with cards := t.dev.cards.map fun x =>
        if x.id = card then { x with ready := true } else x })
    | .need n => .next ((s.meetNeed ag c.addr n).post (.jobCardReady card))
    | .err _ =>
      .next ((c.ops.foldl (fun s o => match s.engReadVa ag o.1 o.2.2 with
        | .err e => s.engFailed ag o.1 o.2.2 .read e
        | _ => s) s).engDone ag)

/-- Core `core` waits in a JCPOP and has no ready card of its own. -/
def State.idleFor (s : State) (core launch : Nat) : Bool :=
  let k := s.core core
  decide (k.binding.launch = launch) && decide (0 < k.popping) &&
    !(s.dev.cards.any fun c => c.ready && !c.die && decide (c.core = core))

/-- JOB_CARD_STEAL (R321). -/
def execJobCardSteal (core card : Nat) (s : State) : Outcome :=
  match s.dev.cards.find? (fun c => decide (c.id = card) && !c.die) with
  | none => .next s
  | some c =>
    let again := s.post (.jobCardSteal core card)
    let podFirst := corePod core ≠ corePod c.core ∧
      s.cores.any fun p => decide (p.1 ≠ c.core) && decide (corePod p.1 = corePod c.core) && s.idleFor p.1 c.launch
    if c.core = core ∨ coreDie c.core ≠ coreDie core ∨ (s.core core).popping = 0 then .next s
    else if !c.ready || !s.idleFor core c.launch || decide podFirst ||
        decide ((s.dev.cycle - c.since).toNat ≤ (s.core c.core).ageing.toNat) then .next again
    else
      let s := s.setDev { s.dev with cards := s.dev.cards.map fun x =>
        if x.id = card then { x with core := core, ready := false } else x }
      .next (s.post (.jobCardReady card))

end Sys2Proof.Machine
end

