-- ==== Sys2Proof/Machine/Memory.lean ====
section
/-! DEFINITION. The M-slot instructions that load and store scalars and vectors, the atomics, and the ops on
cached words (R204, R265 to R268, R280, R281). -/

namespace Sys2Proof.Machine

/-! ## Scalars -/

/-- Load `n` bytes for the running op in class order (R265, R270). -/
def State.ordered (s : State) (cls ea n : Nat) (fresh : Bool) (f : State → List Byte → OpRes) : OpRes :=
  if ea % n ≠ 0 then alignFault ea
  else if s.loadHeld cls ea (ea + n) then s.blockOn condOrder
  else if s.maskHeld true cls ea (ea + n) then s.blockOn condMask
  else
    match s.load ea n fresh with
    | .error r => r
    | .ok bs => f s bs

/-- A number's bytes as a scalar, zero-extended or sign-extended. -/
def scalarOf (signed : Bool) (bs : List Byte) : Dword :=
  let w := 8 * bs.length
  let x := leNat bs
  if signed && x.testBit (w - 1) then BitVec.ofNat 64 (x + 2 ^ 64 - 2 ^ w) else BitVec.ofNat 64 x

/-- Store bytes for the running op; what goes to memory is held by an open rewindable segment (R357). -/
def State.storeBytes (s : State) (cls ea : Nat) (bs : List Byte) : OpRes :=
  match s.storeParts ea bs with
  | .error r => r
  | .ok ps =>
    if ps.all (fun p => p.pa.isNone) then s.store cls ps false
    else
      let (s, hold) := s.segHold
      s.store cls ps hold

/-- The aperture store (R220). -/
def State.startCopy (s : State) (cls ea : Nat) (x : Dword) : OpRes :=
  let ch : BitVec 4 := BitVec.ofNat 4 ((ea - 2 ^ 21) / 4096)
  if !s.ownsChannel ch then s.struct_ 10
  else if s.channelFull ch then s.blockOn condChannel
  else
    let (s, key) := s.newKey
    .done (s.startXfer ch cls key ea (ea + 8) (.copy x false [] [] 0) true)

/-! ## Atomics -/

/-- The operation of an ATOM by its aop field (R266). -/
def atomOf (o : BitVec 3) : AtomOp :=
  match o.toNat with
  | 0 => .add
  | 1 => .and
  | 2 => .or
  | 3 => .xor
  | 4 => .smin
  | 5 => .smax
  | 6 => .umin
  | _ => .umax

/-- The operation of an ATOMSC by its aop field (R281). -/
def atomscOf (o : BitVec 3) : AtomOp :=
  match o.toNat with
  | 6 => .swap
  | 7 => .load
  | _ => atomOf o

/-- Bits [63:52] of a native ATOM (R376). -/
def atomAux (op : AtomOp) (wide : Bool) : BitVec 12 :=
  let a := match op with
    | .add => 0
    | .and => 1
    | .or => 2
    | .xor => 3
    | .smin => 4
    | .smax => 5
    | .umin => 6
    | .umax => 7
    | .swap => 8
    | .cas => 16
    | .load => 0
  BitVec.ofNat 12 (a + if wide then 32 else 0)

/-- An acquiring atomic in the core is made as a request of its bundle, so that its read and its invalidation are
one (R273); `f` goes on with the old value. -/
def State.askHere (s : State) (pool : Bool) (k n : Nat) (op : AtomOp) (b c : Nat) (f : State → Nat → OpRes) :
    OpRes :=
  let x : Wait := .here pool ⟨k, decide (n = 8), op, BitVec.ofNat 64 b, BitVec.ofNat 64 c, s.who, s.cur.slot⟩
  match s.me.reply x with
  | some r => f s (leNat r.bytes)
  | none => .block [x]

/-- An atomic on pool bytes (R198, R266). -/
def State.poolAtomic (s : State) (ea n : Nat) (acq : Bool) (op : AtomOp) (b c : Nat) (f : State → Nat → OpRes) :
    OpRes :=
  match s.load ea n false with
  | .error r => r
  | .ok _ =>
    if acq then s.askHere true ea n op b c f
    else
      let (k, old) := s.myCore.poolAtom ea n op b c
      f (s.setMyCore k) old

/-- The words of an atomic are all P in the core's L1. -/
def State.privateWords (s : State) (k n : Nat) : Bool :=
  (List.range (n / 4)).all fun i => decide ((s.myCore.word (k + 4 * i)).st = .P)

/-- An atomic on P words, in the owner's L1 (R266). -/
def State.privateAtomic (s : State) (k n : Nat) (acq : Bool) (op : AtomOp) (b c : Nat)
    (f : State → Nat → OpRes) : OpRes :=
  match (List.range (n / 4)).find? (fun i => (3, k + 4 * i) ∈ s.myCore.poison) with
  | some i => .poison 3 (s.unkey (k + 4 * i))
  | none =>
    if acq then s.askHere false k n op b c f
    else
      let (k, old) := s.myCore.privateAtom k n op b c
      f (s.setMyCore k) old

/-- An atomic at its home, in the owner's L1 or on another device; `f` goes on with the old value, `acq` says
that it acquires above core scope. -/
def State.atomicAt (s : State) (p : Place) (n : Nat) (acq : Option Nat) (op : AtomOp) (b c : Nat)
    (give : State → Nat → OpRes) : OpRes :=
  let f (s : State) (old : Nat) : OpRes := match acq with
    | some sc => s.acquiring sc fun s => give s old
    | none => give s old
  let k := p.key
  if s.isRemote p.pa then
    let data := leBytes 8 b ++ (if op = .cas then leBytes 8 c else leBytes 8 0)
    let x : Wait := .native s.cur.slot 5 p.pa n (atomAux op (decide (n = 8))) data
    match s.me.reply x with
    | some r => if r.status = 0 then f s (leNat (r.bytes.take n)) else statusFault r.status p.va p.pa
    | none => .block [x]
  else if isAgent k then prot 6 p.va
  else
    match s.recipeWrite s.who k p.va with
    | some r => r
    | none =>
      if s.privateWords k n then s.privateAtomic k n acq.isSome op b c give
      else
        match s.refusedBy s.dev.node.toNat s.myCore.asid k [0, 1] with
        | some d => .denied d p.va
        | none =>
          if p.cls = clsPrivate then
            .block ((List.range (n / 4)).filterMap fun i =>
              if (s.myCore.word (k + 4 * i)).st = .P then none else some (.word (k + 4 * i) (p.va + 4 * i)))
          else
            let x : Wait := .atomic ⟨k, decide (n = 8), op, BitVec.ofNat 64 b, BitVec.ofNat 64 c, s.who, s.cur.slot⟩
            match s.me.reply x with
            | some r =>
              if r.status = 0 then f s (leNat r.bytes)
              else statusFault r.status p.va (p.pa + (r.bytes.headD 0).toNat)
            | none => .block [x]

/-- ATOM, ASWAP and ACAS (R266). -/
def State.atomic (s : State) (op : AtomOp) (d a b : BitVec 6) : OpRes :=
  let r := s.regs
  let n := if syncWide r then 8 else 4
  let sc := (syncScope r).toNat
  let ea := (s.srcA a).toNat
  let x := (s.srcB b).toNat % 256 ^ n
  let c := (s.srcD d).toNat % 256 ^ n
  let give (s : State) (old : Nat) : OpRes := .done (s.deliver d (BitVec.ofNat 64 old) 4)
  let acq := if syncAcquire r ∧ sc ≠ 0 then some sc else none
  let act (s : State) : OpRes :=
    match s.windowCheck ea n with
    | some f => f
    | none =>
      if inWindow ea then s.poolAtomic ea n acq.isSome op x c give
      else
        match s.translate s.who ea .atomic with
        | .error f => f
        | .ok p => s.atomicAt p n acq op x c give
  if ea % n ≠ 0 then alignFault ea
  else s.unheld fun s =>
    if s.orderHeld false 15 ea (ea + n) then s.blockOn condOrder
    else if s.maskHeld false 15 ea (ea + n) then s.blockOn condMask
    else if syncRelease r then
      s.afterAll sc fun s =>
        match (if sc = 3 then s.storeFailure 0xFFFF else none) with
        | some f => f
        | none => act s
    else act s

/-- SCSCOPE with a sub-reason (R281). -/
def State.scscope (s : State) (sub : Nat) : OpRes := .trap cSCSCOPE (s.opInfo sub)

/-! ## Cached words (R267, R268) -/

/-- The lines of the regions in a mask, by virtual address, and how many they are in all. -/
def regionLines (r : Regs) (m : Byte) : Nat × List Nat :=
  let bounds (n : Nat) : Nat × Nat :=
    ((Map.get 0 r.region (2 * n)).toNat / 128, (Map.get 0 r.region (2 * n + 1)).toNat / 128)
  let sel := ((List.range 8).filter fun n => m.getLsbD n).map bounds
  let total := (sel.map fun p => p.2 - p.1).sum
  (total, if 1024 < total then [] else
    (sel.flatMap fun p => (List.range (p.2 - p.1)).map fun i => (p.1 + i) * 128).eraseDups)

/-- OWN of one line: what to register, after its checks, and the words that a registration of another access
already brings (R267, R374). -/
def State.ownLine (s : State) (va : Nat) : Except OpRes (List (Nat × Nat × Bool) × List Nat) :=
  if inWindow va ∨ inAperture va then .ok ([], [])
  else
    match s.translate s.who va .write with
    | .error r => .error r
    | .ok p =>
      if s.isRemote p.pa ∨ isAgent p.key then .ok ([], [])
      else
        let going := ((List.range 32).filter fun i => decide ((s.myCore.word (p.key + 4 * i)).st = .pending)).map
          fun i => p.key + 4 * i
        let words := (List.range 32).filter fun i =>
          let st := (s.myCore.word (p.key + 4 * i)).st
          decide (st ≠ .O) && decide (st ≠ .P) && decide (st ≠ .pending)
        if words.isEmpty then .ok ([], going)
        else
          match s.recipeWrite s.who p.key va with
          | some r => .error r
          | none =>
            match s.refusedBy s.dev.node.toNat s.myCore.asid p.key [1] with
            | some d => .error (.denied d va)
            | none =>
              match words.find? (fun i => match s.ownerOf (p.key + 4 * i) with
                  | some o => decide (o.agent = ownLost)
                  | none => false) with
              | some i => .error (.trap cOWNLOST (BitVec.ofNat 64 (p.pa + 4 * i)))
              | none => .ok (words.map fun i => (p.key + 4 * i, va + 4 * i, decide (p.cls = clsPrivate)), going)

/-- An access of class 15 that covers every word, at place `seq`, must wait for those of its class, and for registrations
outstanding in its regions (R269, R270). -/
def State.sweepHeld (s : State) (seq : Nat) (m : Byte) : Bool :=
  let c := s.me
  c.mustWait true seq seq 15 0 0 ||
  c.acc.any (fun a => decide (a.seq < seq) && match a.kind with
    | .regs ws => ws.any fun k => inMask s.regs m (s.myCore.word k).va
    | _ => false)

/-- The same for the running op: it waits for accesses of earlier bundles, and of earlier slots of its own. -/
def State.sweep (s : State) (m : Byte) (f : State → OpRes) : OpRes :=
  if s.sweepHeld s.cur.seq0 m then s.blockOn condOrder
  else if s.sweepHeld s.me.seq m then s.blockOn condMask
  else f s

/-! ## Vectors (R204) -/

/-- The start of a vector access: the operand, the mode and the slot's context (R50, R124, R204, R339). -/
def State.vectorOp (s : State) (v : BitVec 7) (load : Bool) (f : State → OpRes) : OpRes :=
  if s.isS || !s.inVectors v then s.illenc
  else if load && s.me.h then s.priv
  else f s

/-- The alignment of a row: the element size up to 8 bytes, 1 for packed formats. -/
def rowAlign (sh : Word) : Nat :=
  match shapeFmt sh with
  | .tern => 1
  | f => if f.width < 8 then 1 else min (f.width / 8) 8

/-! ## Meanings -/

/-- LD (R265). -/
def execLd (g : Guard) (d : BitVec 6) (a : BitVec 6) (c : BitVec 4) (z : BitVec 2) (i : BitVec 3)
    (s : State) : Outcome :=
  s.slotOp g (.ld g d a c z i) fun s =>
    s.ordered c.toNat (s.scalarEa a z i) (sizeOf z) false fun s bs => .done (s.deliver d (scalarOf false bs) 4)

/-- LDS (R265). -/
def execLds (g : Guard) (d : BitVec 6) (a : BitVec 6) (c : BitVec 4) (z : BitVec 2) (i : BitVec 3)
    (s : State) : Outcome :=
  s.slotOp g (.lds g d a c z i) fun s =>
    s.ordered c.toNat (s.scalarEa a z i) (sizeOf z) false fun s bs => .done (s.deliver d (scalarOf true bs) 4)

/-- ST (R265). The store to the block-transfer aperture starts a copy (R220). -/
def execSt (g : Guard) (d : BitVec 6) (a : BitVec 6) (c : BitVec 4) (z : BitVec 2) (i : BitVec 3)
    (s : State) : Outcome :=
  s.slotOp g (.st g d a c z i) fun s =>
    let ea := s.scalarEa a z i
    if ea % sizeOf z ≠ 0 then alignFault ea
    else if inAperture ea ∧ z = 3#2 then s.startCopy c.toNat ea (s.srcD d)
    else s.storeBytes c.toNat ea (leBytes (sizeOf z) ((s.srcD d).toNat % 256 ^ sizeOf z))

/-- LDA (R280). -/
def execLda (g : Guard) (d : BitVec 6) (a : BitVec 6) (z : BitVec 2) (sh : BitVec 2) (s : State) : Outcome :=
  s.slotOp g (.lda g d a z sh) fun s =>
    let give (s : State) (bs : List Byte) : OpRes := .done (s.deliver d (scalarOf false bs) 4)
    match s.acquired with
    | some bs => give s bs
    | none =>
      s.ordered 15 (s.srcA a).toNat (sizeOf z) (decide (sh ≠ 0)) fun s bs =>
        if sh = 0#2 then give s bs else .block [.acq s.cur.slot bs]

/-- STREL (R280). -/
def execStrel (g : Guard) (d : BitVec 6) (a : BitVec 6) (z : BitVec 2) (sh : BitVec 2)
    (s : State) : Outcome :=
  s.slotOp g (.strel g d a z sh) fun s =>
    let ea := (s.srcA a).toNat
    let n := sizeOf z
    if ea % n ≠ 0 then alignFault ea
    else
      match s.storeParts ea (leBytes n ((s.srcD d).toNat % 256 ^ n)) with
      | .error r => r
      | .ok ps =>
        s.unheld fun s =>
          s.reporting (decide (sh = 3#2)) 0xFFFF fun s =>
            let (s, seq) := s.takeSeq s.who
            .done (s.holdOp s.who ⟨seq, 15, ea, ea + n, .write ps (some sh)⟩)

/-- ATOM (R266). -/
def execAtom (g : Guard) (d : BitVec 6) (a : BitVec 6) (b : BitVec 6) (o : BitVec 3) (s : State) : Outcome :=
  s.slotOp g (.atom g d a b o) fun s => s.atomic (atomOf o) d a b

/-- ASWAP (R266). -/
def execAswap (g : Guard) (d : BitVec 6) (a : BitVec 6) (b : BitVec 6) (s : State) : Outcome :=
  s.slotOp g (.aswap g d a b) fun s => s.atomic .swap d a b

/-- ACAS (R266). -/
def execAcas (g : Guard) (d : BitVec 6) (a : BitVec 6) (b : BitVec 6) (s : State) : Outcome :=
  s.slotOp g (.acas g d a b) fun s => s.atomic .cas d a b

/-- ATOMSC (R281). -/
def execAtomsc (g : Guard) (d : BitVec 6) (a : BitVec 6) (b : BitVec 6) (o : BitVec 3)
    (s : State) : Outcome :=
  s.slotOp g (.atomsc g d a b o) fun s =>
    let r := s.regs
    let wide := syncWide r
    let n := if wide then 8 else 4
    let ea := (s.srcA a).toNat
    if syncScope r = 3#2 then s.scscope 1
    else if s.myCore.wheel.isEmpty then s.scscope 2
    else if ea % n ≠ 0 then alignFault ea
    else if inWindow ea ∨ inAperture ea then prot 6 ea
    else
      match s.translate s.who ea .atomic with
      | .error f => f
      | .ok p =>
        if s.isRemote p.pa ∨ isAgent p.key then prot 6 ea
        else
          match s.recipeWrite s.who p.key ea with
          | some f => f
          | none =>
            match s.refusedBy s.dev.node.toNat s.myCore.asid p.key [0, 1] with
            | some die => .denied die ea
            | none =>
              if s.orderHeld false 15 ea (ea + n) then s.blockOn condOrder
              else if s.maskHeld false 15 ea (ea + n) then s.blockOn condMask
              else s.afterAll 2 fun s =>
                let x : Wait := .atomsc ⟨p.key, wide, atomscOf o, BitVec.ofNat 64 ((s.srcB b).toNat % 256 ^ n),
                  s.who, s.cur.slot, 0⟩
                match s.me.reply x with
                | some y =>
                  if y.status = 0 then
                    s.acquiring 2 fun s => .done (s.deliver d (BitVec.ofNat 64 (leNat y.bytes)) 4)
                  else statusFault y.status ea (p.pa + (y.bytes.headD 0).toNat)
                | none => .block [x]

/-- INVR (R267). -/
def execInvr (g : Guard) (m : BitVec 8) (s : State) : Outcome :=
  s.slotOp g (.invr g m) fun s =>
    if s.isS && decide (m ≠ 0) then s.illenc else .done (s.dropVs s.cur.core s.regs m)

/-- WBR (R267). -/
def execWbr (g : Guard) (m : BitVec 8) (sh : BitVec 1) (s : State) : Outcome :=
  s.slotOp g (.wbr g m sh) fun x =>
    if x.isS && decide (m ≠ 0) then x.illenc
    else x.unheld fun x => x.sweep m fun x =>
        let w := x.who
        let mine (p : Nat × L1Word) : Bool := inMask x.regs m p.2.va
        let os := (x.myCore.l1.filter fun p => decide (p.2.st = .O) && mine p)
        let ps := (x.myCore.l1.filter fun p => decide (p.2.st = .P) && p.2.dirty && mine p)
        let x := ps.foldl (fun x p => x.writeBack w.core p.1 true) x
        let x := os.foldl (fun x p =>
          (x.setMyCore ((x.myCore.setWord p.1 { p.2 with st := .I, mask := 0 }).markWord p.1 false)).post
            (.wb ⟨p.1, w.core, p.2.data, p.2.grant, x.myCore.isBad p.1⟩)) x
        let (x, seq) := x.takeSeq w
        .done (if os.isEmpty then x else x.addAcc w ⟨seq, 15, 0, 0, .wbs (os.map (·.1))⟩)

/-- OWN (R267). -/
def execOwn (g : Guard) (m : BitVec 8) (s : State) : Outcome :=
  s.slotOp g (.own g m) fun s =>
    if s.isS then s.illenc
    else
      let (total, lines) := regionLines s.regs m
      if 1024 < total then s.struct_ 15
      else
        match exAll s.ownLine lines with
        | .error r => r
        | .ok l =>
          s.unheld fun s => s.sweep m fun s =>
              let s := lines.foldl (fun s va => s.usePage s.cur.core s.myCore.asid va) s
              let ws := l.flatMap (·.1)
              let (s, seq) := s.takeSeq s.who
              let out := (ws.filter fun x => !x.2.2).map (·.1) ++ l.flatMap (·.2)
              let s := if out.isEmpty then s else s.addAcc s.who ⟨seq, 15, 0, 0, .regs out⟩
              let (s, rest) := ownSome s.who ws s
              .done (if rest.isEmpty then s else s.holdOp s.who ⟨seq, 15, 0, 0, .own rest⟩)

/-- VLD (R204). -/
def execVld (g : Guard) (v : BitVec 7) (a : BitVec 6) (d : BitVec 8) (s : State) : Outcome :=
  s.slotOp g (.vld g v a d) fun s => s.vectorOp v true fun s =>
    let ea := s.vectorEa a d
    if ea % 64 ≠ 0 then alignFault ea
    else if s.loadHeld 0 ea (ea + 1024) then s.blockOn condOrder
    else if s.maskHeld true 0 ea (ea + 1024) then s.blockOn condMask
    else
      match s.load ea 1024 false with
      | .error r => r
      | .ok bs => .done (s.deliverV v (ofBytes bs) 5 0 none)

/-- VST (R204). -/
def execVst (g : Guard) (v : BitVec 7) (a : BitVec 6) (d : BitVec 8) (s : State) : Outcome :=
  s.slotOp g (.vst g v a d) fun s => s.vectorOp v false fun s =>
    let ea := s.vectorEa a d
    if ea % 64 ≠ 0 then alignFault ea else s.storeBytes 0 ea (vbytes (readV s.regs v))

/-- VLDS (R204). -/
def execVlds (g : Guard) (v : BitVec 7) (a : BitVec 6) (b : BitVec 6) (s : State) : Outcome :=
  s.slotOp g (.vlds g v a b) fun s => s.vectorOp v true fun s =>
    match s.rowsOf a b with
    | none => s.illenc
    | some (rows, n) =>
      match rows.find? (fun ea => decide (ea % rowAlign s.shape ≠ 0)) with
      | some ea => alignFault ea
      | none =>
        if rows.any (fun ea => s.loadHeld 0 ea (ea + n)) then s.blockOn condOrder
        else if rows.any (fun ea => s.maskHeld true 0 ea (ea + n)) then s.blockOn condMask
        else
          match joinPieces (rows.map fun ea => s.load ea n false) with
          | .error r => r
          | .ok bs => .done (s.deliverV v (ofBytes bs) 5 0 none)

/-- VSTS (R204). -/
def execVsts (g : Guard) (v : BitVec 7) (a : BitVec 6) (b : BitVec 6) (s : State) : Outcome :=
  s.slotOp g (.vsts g v a b) fun s => s.vectorOp v false fun s =>
    match s.rowsOf a b with
    | none => s.illenc
    | some (rows, n) =>
      match rows.find? (fun ea => decide (ea % rowAlign s.shape ≠ 0)) with
      | some ea => alignFault ea
      | none =>
        let bytes := vbytes (readV s.regs v)
        match exAll (fun (p : Nat × Nat) => s.storeParts p.1 ((bytes.drop (p.2 * n)).take n)) rows.zipIdx with
        | .error r => r
        | .ok ps =>
          let ps := ps.flatten
          if ps.all (fun p => p.pa.isNone) then s.store 0 ps false
          else
            let (s, hold) := s.segHold
            s.store 0 ps hold

/-- PREF (R268). It drops what it cannot have at once. -/
def execPref (g : Guard) (a : BitVec 6) (i : BitVec 3) (s : State) : Outcome :=
  s.slotOp g (.pref g a i) fun s =>
    let ea := (s.srcA a + BitVec.ofNat 64 (8 * i.toNat)).toNat
    if inWindow ea ∨ inAperture ea ∨ 2 ^ 52 ≤ ea then .done s
    else
      match s.translate s.who (ea / 128 * 128) .read with
      | .error _ => .done s
      | .ok p =>
        let w := s.who
        let refused := s.refusedBy s.dev.node.toNat s.myCore.asid p.key [0]
        if s.isRemote p.pa || isAgent p.key || s.hostBias p.key || (s.recipeGate w p.key p.va).isSome then .done s
        else if refused.isSome then .done (s.logRefusedBy refused s.myCore.asid)
        else
          .done ((List.range 32).foldl (fun s i =>
            if ((s.core w.core).word (p.key + 4 * i)).st = .I then s.askFill w (p.key + 4 * i) (p.va + 4 * i) else s) s)

end Sys2Proof.Machine
end

