-- ==== Sys2Proof/Machine/Snapshot.lean ====
section
/-! DEFINITION. The snapshot buffer's moves to and from memory, and TLBINV (R308, R340, R352). -/

namespace Sys2Proof.Machine

/-! ## The vector part of an image (R340) -/

/-- The place of a vector-side queue entry among the image's 40: by what made it (log entry 34). -/
def vqueueHome (e : VEntry) : Nat :=
  match e.lv with
  | some x => 4 * x
  | none => if 0x70 ≤ e.dst.toNat then 28 else 12

/-- The entries with their places, each in the first free one from its home on. -/
def vqueuePlaces : List VEntry → List (Nat × VEntry) → List (Nat × VEntry)
  | [], l => l
  | e :: t, l =>
    let n := ((List.range 40).find? fun i => decide (vqueueHome e ≤ i) && l.all fun p => decide (p.1 ≠ i)).getD 0
    vqueuePlaces t (l ++ [(n, e)])

/-- The vector queue as the image records it. Results that fall due together for one register are delivered in issue
order (R31), for which the image has no room: of two such the earlier is recorded for operand code 75, which is no
register, and keeps its flags and its claim on lv (log entry 34). -/
def imageVqueue : List VEntry → List VEntry
  | [] => []
  | e :: t =>
    (if e.dst.toNat < 0x70 ∧ t.any (fun f => f.dst = e.dst ∧ f.left = e.left) then { e with dst := 75 } else e) ::
      imageVqueue t

/-- Bytes of the vector part, from image offset 0x1000 on. -/
def vectorBytes (r : Regs) (win : Nat) : List Byte :=
  let reg (v : VReg) : List Byte := vbytes v
  let places := vqueuePlaces (imageVqueue r.vqueue) []
  let entry (i : Nat) : Option VEntry := (places.find? fun p => p.1 = i).map (·.2)
  let tag (i : Nat) : List Byte := match entry i with
    | some e => leBytes 8 (e.dst.toNat + e.left % 16 * 2 ^ 8 + 2 ^ 12 + e.flags.toNat * 2 ^ 16) ++ leBytes 8 0
    | none => leBytes 16 0
  let val (i : Nat) : List Byte := match entry i with
    | some e => reg e.val
    | none => reg 0
  (List.range 64).flatMap (fun i => reg (if i < win then Map.get 0 r.v i else 0)) ++
    (List.range 8).flatMap (fun i => reg (Map.get 0 r.o i)) ++
    (List.range 3).flatMap (fun i => reg (Map.get 0 r.lv i)) ++
    (List.range 4).flatMap (fun i => reg (Map.get 0 r.q i)) ++
    (leBytes 8 (packBits 16 ((List.range 4).map fun i =>
      Map.get 0 r.qcount i + (if r.qkind.getLsbD i then 512 else 0))) ++ List.replicate 1016 0) ++
    (List.range 40).flatMap tag ++ List.replicate 384 0 ++ (List.range 40).flatMap val

/-- The vector state that the bytes of a vector part give, over the registers `r`. -/
def regsOfVector (bs : List Byte) (r : Regs) : Regs :=
  let reg (o : Nat) : VReg := ofBytes ((bs.drop (o - 0x1000)).take 1024)
  let word (o : Nat) : Nat := leNat ((bs.drop (o - 0x1000)).take 8)
  let bank (o n : Nat) : Map VReg := (List.range n).foldl (fun m i => Map.put 0 m i (reg (o + 1024 * i))) []
  let stat := word 0x14C00
  let entry (i : Nat) : Option VEntry :=
    let w := word (0x15000 + 16 * i)
    if w / 2 ^ 12 % 2 = 1 then
      some ⟨BitVec.ofNat 7 w, w / 2 ^ 8 % 16, reg (0x15400 + 1024 * i), BitVec.ofNat 7 (w / 2 ^ 16),
        if i < 12 then some (i / 4) else none⟩
    else none
  { r with
    v := bank 0x1000 64, o := bank 0x11000 8, lv := bank 0x13000 3, q := bank 0x13C00 4,
    qcount := (List.range 4).foldl (fun m i => Map.put 0 m i (stat / 2 ^ (16 * i) % 512)) [],
    qkind := BitVec.ofNat 4 (packBits 1 ((List.range 4).map fun i => stat / 2 ^ (16 * i + 9) % 2)),
    vqueue := (List.range 40).filterMap entry }

/-- The scalar part of an image as bytes, and back. -/
def scalarBytes (m : Map Dword) : List Byte := (List.range 512).flatMap fun i => leBytes 8 (imgWord m i)

def imageOfBytes (bs : List Byte) : Map Dword :=
  putWords [] 0 ((List.range 512).map fun i => leNat ((bs.drop (8 * i)).take 8))

/-! ## SNAPST and SNAPLD (R352) -/

/-- The checks that both make before they wait. -/
def State.snapOp (s : State) (a : BitVec 6) (f : State → Nat → OpRes) : OpRes :=
  let ea := (s.srcA a).toNat
  if s.isS || !s.me.h then s.priv
  else if ea % 4096 ≠ 0 then alignFault ea
  else if inWindow ea ∨ inAperture ea then prot 6 ea
  else f s ea

/-- SNAPST (R352). -/
def execSnapst (g : Guard) (a : BitVec 6) (s : State) : Outcome :=
  s.slotOp g (.snapst g a) fun s => s.snapOp a fun s ea =>
    match s.storeParts ea (scalarBytes s.me.snap) with
    | .error r => r
    | .ok _ =>
      s.afterAll 2 fun s =>
        if !s.me.sv then .trap cTRETF (s.opInfo 1)
        else s.devWrite ea (scalarBytes s.me.snap) .done

/-- SNAPFIT with a sub-reason (R353). -/
def State.snapfit (s : State) (sub : Nat) : OpRes := .trap cSNAPFIT (s.opInfo sub)

/-- The checks of an image that the core makes itself (R352): the sub-reason of the first that fails. -/
def State.fitHere (s : State) (m : Map Dword) : Option Nat :=
  let h := imgWord m 0
  let b := s.myCore.binding
  let far : Bool := decide (h / 2 ^ 22 % 1024 ≠ s.cur.core)
  if h % 2 ^ 16 ≠ s.myCore.asid then some 7
  else if h / 2 ^ 16 % 2 = 0 ∧ (far ∨ h / 2 ^ 19 % 8 ≠ s.cur.ctx) then some 6
  else if h / 2 ^ 16 % 2 = 1 ∧ far ∧ (imgWord m 7 ≠ b.pbs ∨ imgWord m 9 % 128 ≠ b.w) then some 1
  else none

/-- SNAPLD takes the image. -/
def State.takeImage (s : State) (m : Map Dword) (vec : Option (List Byte)) : OpRes :=
  let c := s.me
  let r := match vec with
    | some bs => regsOfVector bs c.regs
    | none => c.regs
  .done ((s.engDone s.opAgent).setMe { c with snap := m, sv := true, mask := true, regs := r })

/-- SNAPLD (R352). -/
def execSnapld (g : Guard) (a : BitVec 6) (s : State) : Outcome :=
  s.slotOp g (.snapld g a) fun s => s.snapOp a fun s ea =>
    match s.linePlaces ea 4096 .read with
    | .error r => r
    | .ok _ =>
      s.afterEarlier 2 fun s =>
        match s.devRead ea 4096 with
        | .error r => r
        | .ok bs =>
          let m := imageOfBytes bs
          let h := imgWord m 0
          match s.fitHere m with
          | some n => s.snapfit n
          | none =>
            if h / 2 ^ 16 % 2 = 0 then s.takeImage m none
            else
              match s.devRead (ea + 0x1000) 0x1E400 with
              | .error r => r
              | .ok vs =>
                if h / 2 ^ 22 % 1024 = s.cur.core then s.takeImage m (some vs)
                else
                  let x : Wait := .fit ⟨⟨h / 2 ^ 22 % 1024, h / 2 ^ 19 % 8⟩, s.who, s.cur.slot⟩
                  match s.me.reply x with
                  | none => .block [x]
                  | some y => if y.status = 0 then s.takeImage m (some vs) else s.snapfit y.status

/-- What a core still holds of a context that has left it (R352): the first condition, 0 for none. The occupancy of a
circular buffer is every slot that is not free (R208); the link buffers belong to the core, and a strip in any of them
counts as the context's husk state (log entry 98). -/
def State.holdsOf (s : State) (w : Who) : Nat :=
  let k := s.core w.core
  let c := k.ctx w.ctx
  let link (d : Nat) : Bool :=
    let l := Map.get {} k.links d
    l.inStrip.isSome || l.outStrip.isSome
  let cbUsed (r : Dword) : Bool := cbValid r && decide (cbFree r < cbSlots r)
  if k.zones.any (fun z => z.2.valid) then 2
  else if k.cb.any (fun r => cbUsed r.2) then 3
  else if (List.range 4).any link || decide (k.plane.holder = some w.ctx) then 4
  else if k.xfers.any (fun t => t.ctx = w.ctx) || !c.gqAddr.isEmpty || !c.gqData.isEmpty then 5
  else 0

/-- SNAPFIT_QUERY (R352). -/
def execSnapfitQuery (m : Machine.FitQuery) (s : State) : Outcome :=
  .next (s.answer m.who (.fit m) [] (s.holdsOf m.src))

/-! ## TLBINV (R308) -/

/-- Accesses of the ASID that were translated before are still outstanding. -/
def State.asidBusy (s : State) (asid : Nat) (me : Option Who) : Bool :=
  s.cores.any (fun k => decide (k.2.asid = asid) && k.2.ctxs.any fun c =>
    decide (some ⟨k.1, c.1⟩ ≠ me) && (!c.2.acc.isEmpty || c.2.mq.any fun h => match h.op with
      | .write ps _ => ps.any fun p => p.pa.isSome
      | _ => false)) ||
  s.pending.any fun i => match i with
    | .packetFill f => decide ((s.core f.core).asid = asid)
    | _ => false

/-- TLBINV (R308). -/
def execTlbinv (g : Guard) (a : BitVec 6) (b : BitVec 6) (k : BitVec 3) (s : State) : Outcome :=
  s.slotOp g (.tlbinv g a b k) fun s =>
    let asid := s.myCore.asid
    let va := (s.srcA a).toNat
    if 3 ≤ k.toNat ∨ (k ≠ 0#3 ∧ a ≠ 0#6) then s.illenc
    else if bitsOf (s.srcB b) 15 0 ≠ asid then s.priv
    else if k = 0#3 ∧ 2 ^ 52 ≤ va then dataFault .read 3 va
    else
      s.afterAll (if k = 2#3 then 3 else 2) fun s =>
        match (if k = 2#3 then s.storeFailure 0xFFFF else none) with
        | some r => r
        | none =>
          let x : Wait := .tlbinv s.cur.slot k (if k = 0#3 then va else 0)
          match s.me.reply x with
          | some _ => .done s
          | none => .block [x]

end Sys2Proof.Machine
end

