-- ==== Sys2Proof/Machine/Coherence.lean ====
section
/-! DEFINITION. Packet fills, and the messages between cores and homes (R61, R251 to R264, R266, R274 to
R279). -/

namespace Sys2Proof.Machine

/-! ## Packet fills (R61) -/

/-- The engine that fills a core's packets. -/
def State.fetchAgent (s : State) (core va : Nat) : Agent := s.agent ⟨core, 0⟩ 17 (BitVec.ofNat 32 (va / 64))

/-- Install a packet; a full cache gives one up. -/
def Core.cachePacket (k : Core) (va pick : Nat) (bs : List Byte) : Core :=
  let out := if k.pkts.length < 256 then k.pkts
    else Map.del k.pkts ((k.pkts.getD (pick % k.pkts.length) (0, [])).1)
  { k with pkts := Map.put [] out (va / 64) bs, fetched := if k.classDone then k.fetched else k.fetched + bs.length }

/-- The 64 bytes of a packet for a core. -/
def State.packetBytes (s : State) (g : Agent) (pa : Nat) : EngRes (List Byte) :=
  if s.isRemote pa then
    match s.natAnswer g pa with
    | some (0, bs) => .ok bs
    | some (st, _) => .err st
    | none => .need (.native 1 pa 64 [])
  else if isAgent (s.key pa) then .ok (s.agentRead (s.key pa) 64)
  else s.engBytes g (s.key pa) 64

/-- The status that a fill at a home fails with: LOST or uncorrectable (R408). -/
def State.homeStatus (s : State) (k n : Nat) : Nat :=
  if (List.range ((k + n + 3) / 4 - k / 4)).any (fun i => match s.ownerOf ((k / 4 + i) * 4) with
      | some o => decide (o.agent = ownLost)
      | none => false) then 4 else 2

/-- The offset of the word that an op cannot have: the first that is LOST or not to be corrected (R260, R358). -/
def State.lostWord (s : State) (ws : List Nat) : Nat :=
  4 * (ws.findIdx? fun k => s.badAt k || (match s.ownerOf k with
    | some o => decide (o.agent = ownLost)
    | none => false)).getD 0

/-- A packet fill is asked for again, or answered. -/
def isFill (va : Nat) (x : Wait) : Bool := match x with
  | .fill a => decide (a / 64 = va / 64)
  | _ => false

/-- PACKET_FILL (R61). -/
def execPacketFill (f : Machine.Fill) (s : State) : Outcome :=
  let ag := s.fetchAgent f.core f.va
  match s.packetBytes ag f.pa with
  | .ok bs =>
    let s := s.engDone ag
    let s := s.setCore f.core ((s.core f.core).cachePacket f.va (Config.pick s.tick) bs)
    .next (s.unaskCore f.core (isFill f.va))
  | .need n => .next ((s.meetNeed ag f.va n).post (.packetFill f))
  | .err e =>
    let k := s.key f.pa / 64 * 64
    let (st, bs) := if s.isRemote f.pa then (e, [])
      else (s.homeStatus k 64, leBytes 1 (s.lostWord ((List.range 16).map fun i => k + 4 * i)))
    let s := s.engDone ag
    .next ((s.core f.core).ctxs.foldl (fun s c => c.2.asked.foldl (fun s x =>
      if isFill f.va x then s.answer ⟨f.core, c.1⟩ x bs st else s) s) s)

/-- SEQUENTIAL_PREFETCH (R61). -/
def execSequentialPrefetch (core va : Nat) (s : State) : Outcome :=
  let k := s.core core
  let w : Who := ⟨core, 0⟩
  if !(Map.get [] k.pkts (va / 64)).isEmpty then .next s
  else
    match k.tlbFind va with
    | none => .next s
    | some e =>
      let p : Place := ⟨va, e.paOf va, s.key (e.paOf va), e.cls⟩
      if (s.leafFault e va .fetch).isSome || s.isRemote p.pa || (s.fetchRefused w p).isSome then .next s
      else
        let ag := s.fetchAgent core va
        match s.packetBytes ag p.pa with
        | .ok bs =>
          .next ((s.setCore core (k.cachePacket va (Config.pick s.tick) bs)).unaskCore core (isFill va))
        | _ => .next s

/-! ## What a message meets at a home -/

/-- The tag of a grant number (R251). -/
def tagOf (g : Word) : BitVec 22 := g.setWidth 22

/-- An op waits at the home for the word's data, or an ATOMSC op that has arrived is to be applied first
(R257, R278). -/
def State.homeHeld (s : State) (k : Nat) : Bool :=
  s.dev.homeWait.any fun h => decide (h.word = k)

def State.scHeld (s : State) (k : Nat) : Bool :=
  s.dev.scq.any fun o => decide (o.pa = k) || (o.wide && decide (o.pa + 4 = k))

/-- What a message about a word needs before its home can take it: the end of a flip, the line of host
memory, the host's answer, or the end of a private page (R261, R371, R372). -/
def State.homeNeed (s : State) (core k : Nat) (owned : Bool) : Option Need :=
  if s.flipHolds k owned || s.homeHeld k then some .wait
  else if decide (2 ^ 52 ≤ k) &&
      (decide (Map.get none s.dev.hostLines (k / 128) = none) || (owned && !s.hostOwned k)) then
    some (.hostLine (k / 128) owned)
  else if s.hostBias k && !s.dev.answered (k / 64) owned then some (.snoop (k / 64) owned)
  else
    match s.privAt k with
    | some (p, o) => if o = core then none else some (.unpriv p o)
    | none => none

/-- A message waits at its home for what it needs. -/
def State.waitHome (s : State) (core : Nat) (n : Need) (i : Instr) : State :=
  (s.meetNeed (s.agent ⟨core, 0⟩ 18 0) 0 n).post i

/-- The host's answer for a half has been used. -/
def State.unsnoop (s : State) (k : Nat) : State :=
  if s.dev.snooped.isEmpty then s
  else s.setDev { s.dev with snooped := s.dev.snooped.filter fun x => decide (x.1 ≠ k / 64) }

/-- Revoke a registered word to its home on behalf of an op that waits there (R257). -/
def State.revokeHome (s : State) (k : Nat) (o : Owner) (op : Instr) : State :=
  (s.setDev { s.dev with homeWait := s.dev.homeWait ++ [⟨k, op⟩] }).post
    (.revoke ⟨k, o.agent, o.tag, .home, true⟩)

/-- How the words of an op at a home stand. -/
inductive HomeRes where
  /-- None is registered. -/
  | free
  | lost
  | bad
  /-- The first registered one. -/
  | owned (k : Nat) (o : Owner)

/-- How the words that an op writes or reads whole stand; a full word overwrites LOST. -/
def State.homeWords (s : State) (full : Bool) : List Nat → HomeRes
  | [] => .free
  | k :: t =>
    match s.ownerOf k with
    | some o =>
      if o.agent = ownLost then (if full then s.homeWords full t else .lost) else .owned k o
    | none => if k ∈ s.dev.badMem ∧ ¬ full then .bad else s.homeWords full t

/-! ## Accounts at the core -/

/-- A word leaves an access that waits for words; an access that waits for none is done. -/
def dropAcc (k : Nat) (c : Ctx) : Ctx :=
  { c with acc := c.acc.filterMap fun (a : Acc) => match a.kind with
      | .regs ws => (let ws' := ws.filter (· ≠ k); if ws'.isEmpty then none else some { a with kind := .regs ws' })
      | .wbs _ => some a
      | _ => some a }

/-- A registration has been granted (R254, R272). -/
def State.granted (s : State) (core k : Nat) : State :=
  let c := s.core core
  s.setCore core { c with
    regOut := c.regOut.filter fun p => p.1 ≠ k,
    ctxs := c.ctxs.map fun p => (p.1, dropAcc k p.2) }

/-- A write-back has been taken by its home (R267). -/
def State.wbDone (s : State) (core k : Nat) : State :=
  let c := s.core core
  s.setCore core { c with ctxs := c.ctxs.map fun p => (p.1, { p.2 with
    acc := p.2.acc.filterMap fun (a : Acc) => match a.kind with
      | .wbs ws => (let ws' := ws.filter (· ≠ k); if ws'.isEmpty then none else some { a with kind := .wbs ws' })
      | _ => some a }) }

/-- A bypassing write of an access is applied at its home. -/
def State.appliedHome (s : State) (w : Who) (seq : Nat) : State :=
  let c := s.ctx w
  s.setCtx w { c with acc := c.acc.filterMap fun (a : Acc) => match a.kind with
    | .atHome n => if a.seq ≠ seq then some a else if n ≤ 1 then none else some { a with kind := .atHome (n - 1) }
    | _ => some a }

/-- A wait for the word. -/
def isWord (k : Nat) (x : Wait) : Bool := match x with
  | .word a _ => decide (a = k)
  | _ => false

/-- Answer every context of a core that waits for a fill of the word. -/
def State.answerWord (s : State) (core k status : Nat) : State :=
  (s.core core).ctxs.foldl (fun s c => c.2.asked.foldl (fun s x =>
    if isWord k x then s.answer ⟨core, c.1⟩ x [] status else s) s) s

/-- The word as the core holds it from now on, with data that are not bad, and those who wait for it look again. -/
def State.putL1 (s : State) (core k : Nat) (x : L1Word) : State :=
  (s.setCore core (((s.core core).setWord k x).markWord k false)).unaskCore core (isWord k)

/-- A line leaves an L1 (R256): what it holds of O is written back, dirty P goes home, the rest is dropped. -/
def State.evictLine (s : State) (core line : Nat) : State :=
  let out := (s.core core).l1.filter fun p => p.1 / 128 = line
  let s := s.setCore core { s.core core with lineGrant := Map.put none (s.core core).lineGrant line none }
  out.foldl (fun s p =>
    let x := p.2
    let bad := (s.core core).isBad p.1
    let s := s.setCore core (((s.core core).setWord p.1 {}).markWord p.1 false)
    if x.st = .O then s.post (.wb ⟨p.1, core, x.data, x.grant, bad⟩)
    else if x.st = .P ∧ x.dirty then (s.putWord p.1 x.data).markHome p.1 bad
    else s) s

/-- A line may have to make room for another, or may leave when it need not (R252, R256). -/
def State.makeRoom (s : State) (core k : Nat) : State :=
  let c := s.core core
  let b := c.binding
  let all := (c.l1.map fun p => p.1 / 128).eraseDups
  let can := all.filter fun l => decide (l ≠ k / 128) &&
    c.l1.all fun p => decide (p.1 / 128 ≠ l) || decide (p.2.st ≠ .pending)
  if !can.isEmpty && (decide ((b.pb3 - b.pb2) / 128 < all.length) || Config.evicts (2 * s.tick)) then
    s.evictLine core (can.getD (Config.pick s.tick % can.length) 0)
  else s

/-! ## Registration (R253, R258) -/

/-- The registration of a word under host bias becomes a bypassing write (R369, R371). -/
def State.regAsWrite (s : State) (m : RegMsg) : State :=
  let x := (s.core m.owner).word m.word
  let (s, _) := s.bumpGrant m.word
  let s := s.putWord m.word (mergeWord (s.wordAt m.word) x.data x.mask)
  ((s.putL1 m.owner m.word {}).granted m.owner m.word).unsnoop m.word

/-- REG (R253). -/
def execReg (m : Machine.RegMsg) (s : State) : Outcome :=
  let k := m.word
  let again : Instr := .reg m
  let wbOut := s.pending.any fun i => match i with
    | .wb x => decide (x.word = k) && decide (x.owner = m.owner)
    | _ => false
  if s.scHeld k || wbOut then .next (s.post again)
  else
    match s.homeNeed m.owner k true with
    | some n => .next (s.waitHome m.owner n again)
    | none =>
      if s.hostBias k then .next (s.regAsWrite m)
      else
        let (s, gr) := (s.recall k).bumpGrant k
        let new : Option Owner := some ⟨m.owner, tagOf gr⟩
        let give (s : State) (data : Option Word) (fwd : Bool) : State := s.post (.grant ⟨k, m.owner, gr, data, fwd⟩)
        match s.ownerOf k with
        | none =>
          if k ∈ s.dev.badMem ∧ ¬ m.full then
            let s := s.log (homeDie k) 0x09 (s.core m.owner).asid 1023 7 5
            .next (((s.setOwner k (some ⟨ownLost, 0⟩)).log (homeDie k) 0x10 (s.core m.owner).asid 1023 7 0).post
              (.lostReply (.fdata k m.owner)))
          else
            let s := s.setDev { s.dev with badMem := s.dev.badMem.filter (· ≠ k) }
            .next (give (s.setOwner k new) (if m.full then none else some (s.wordAt k)) false)
        | some o =>
          if o.agent = ownLost then
            if m.full then
              .next (give ((s.setOwner k new).log (homeDie k) 0x10 (s.core m.owner).asid 1023 7 1) none false)
            else .next (s.post (.lostReply (.fdata k m.owner)))
          else if o.agent = m.owner then .next (give (s.setOwner k new) none false)
          else
            .next (give ((s.setOwner k new).post (.revoke ⟨k, o.agent, o.tag, .core m.owner, !m.full⟩)) none !m.full)

/-- The word becomes O with the written bytes over the arrived data (R253), which may be bad (R354). -/
def State.ownNow (s : State) (core k : Nat) (gr : Word) (base : Word) (bad : Bool) : State :=
  let x := (s.core core).word k
  let s := s.putL1 core k { x with
    st := .O, data := mergeWord base x.data x.mask, grant := gr, mask := 0, got := none, fdata := none }
  if bad && decide (x.mask ≠ 15#4) then s.setCore core ((s.core core).markWord k true) else s

/-- GRANT (R253). -/
def execGrant (m : Machine.GrantMsg) (s : State) : Outcome :=
  let x := (s.core m.owner).word m.word
  if x.st ≠ .pending then .next s
  else
    let s := s.granted m.owner m.word
    let s :=
      if m.fwd then
        match x.fdata with
        | some d => s.ownNow m.owner m.word m.grant d.1 d.2
        | none => s.setCore m.owner ((s.core m.owner).setWord m.word { x with got := some m })
      else s.ownNow m.owner m.word m.grant (m.data.getD x.data) false
    .next (s.makeRoom m.owner m.word)

/-! ## Ops that are applied at a home (R257, R266, R278) -/

/-- V copies of the core that writes or reads words at their home are dropped (R257, R274; log entry 102). -/
def State.writerDrops (s : State) (core : Nat) (ks : List Nat) : State :=
  ks.foldl (fun s k => s.dropV core k) s

/-- Apply a bypassing write whose word is unregistered. -/
def State.applyBypass (s : State) (m : BypassMsg) : State :=
  let k := m.word
  let s := match s.ownerOf k with
    | some _ => (s.setOwner k none).log (homeDie k) 0x10 (s.core m.who.core).asid 1023 7 1
    | none => s
  let (s, _) := (s.recall k).bumpGrant k
  let s := s.putWord k (mergeWord (s.wordAt k) m.data m.mask)
  let s := s.setDev { s.dev with badMem := s.dev.badMem.filter (· ≠ k) }
  ((s.writerDrops m.who.core [k]).unsnoop k).appliedHome m.who m.acc

/-- Take a bypassing write at its home: apply it, drop it where the word is LOST or bad and only partly
written, or revoke the owner first. -/
def State.homeBypass (s : State) (m : BypassMsg) : State :=
  match s.homeWords (decide (m.mask = 15#4)) [m.word] with
  | .free => s.applyBypass m
  | .lost => (s.unsnoop m.word).appliedHome m.who m.acc
  | .bad => ((s.unsnoop m.word).logCtx m.who 0x09 5).appliedHome m.who m.acc
  | .owned k o => s.revokeHome k o (.bypassWrite m)

/-- BYPASS_WRITE (R257). -/
def execBypassWrite (m : Machine.BypassMsg) (s : State) : Outcome :=
  if s.scHeld m.word then .next (s.post (.bypassWrite m))
  else
    match s.homeNeed m.who.core m.word true with
    | some n => .next (s.waitHome m.who.core n (.bypassWrite m))
    | none => .next (s.homeBypass m)

/-- The words of a four-byte or an eight-byte operand. -/
def opWords (k : Nat) (wide : Bool) : List Nat := if wide then [k, k + 4] else [k]

/-- The operand's value at its home. -/
def State.opValue (s : State) (k : Nat) (wide : Bool) : Nat :=
  packBits 32 ((opWords k wide).map fun a => (s.wordAt a).toNat)

/-- Write an operand at its home, under the line's next grant number. -/
def State.opWrite (s : State) (k : Nat) (wide : Bool) (x : Nat) : State :=
  let (s, _) := (s.recall k).bumpGrant k
  (opWords k wide).foldl (fun s a => s.putWord a (BitVec.ofNat 32 (x / 2 ^ (8 * (a - k))))) s

/-- The tile of an atomic may have been sealed since it was checked: its op checks again (R288). -/
def State.atomSealed (s : State) (w : Who) (k : Nat) : Bool := (s.recipeWrite w k 0).isSome

/-- Take an atomic at its home (R266). -/
def State.homeAtomic (s : State) (m : AtomicMsg) : State :=
  let ws := opWords m.pa m.wide
  let done (s : State) (bs : List Byte) (st : Nat) : State := (s.unsnoop m.pa).answer m.who (.atomic m) bs st
  if s.atomSealed m.who m.pa then done s [] stRetry
  else
    match s.homeWords false ws with
    | .lost => done s (leBytes 1 (s.lostWord ws)) 4
    | .bad => done s (leBytes 1 (s.lostWord ws)) 2
    | .owned k o => s.revokeHome k o (.atomicAtHome m)
    | .free =>
      let old := s.opValue m.pa m.wide
      let s := match atomNew m.op (if m.wide then 64 else 32) old m.b.toNat m.c.toNat with
        | some x => s.opWrite m.pa m.wide x
        | none => s
      done (s.writerDrops m.who.core ws) (leBytes 8 old) 0

/-- ATOMIC_AT_HOME (R266). -/
def execAtomicAtHome (m : Machine.AtomicMsg) (s : State) : Outcome :=
  if (opWords m.pa m.wide).any s.scHeld then .next (s.post (.atomicAtHome m))
  else
    match (opWords m.pa m.wide).filterMap fun k => s.homeNeed m.who.core k true with
    | n :: _ => .next (s.waitHome m.who.core n (.atomicAtHome m))
    | [] => .next (s.homeAtomic m)

/-- The op that waited for a word's data at its home goes on once no other word of it is awaited. -/
def State.homeGo (s : State) (op : Instr) : State :=
  if s.dev.homeWait.any (fun h => decide (h.op = op)) then s
  else
    match op with
    | .bypassWrite m => s.homeBypass m
    | .atomicAtHome m => s.homeAtomic m
    | _ => s

/-- The data of a word that was revoked to its home has come, or is LOST. -/
def State.homeData (s : State) (k : Nat) (d : Option Word) (bad : Bool) : State :=
  let ops := (s.dev.homeWait.filter fun h => h.word = k).map (·.op)
  let s := s.setDev { s.dev with homeWait := s.dev.homeWait.filter fun h => h.word ≠ k }
  let s := match d with
    | some d => ((s.putWord k d).setOwner k none).markHome k bad
    | none => s.setOwner k (some ⟨ownLost, 0⟩)
  ops.foldl State.homeGo s

/-- FDATA (R253). -/
def execFdata (m : Machine.FdataMsg) (s : State) : Outcome :=
  match m.dest with
  | .home =>
    if 2 ^ 52 ≤ m.word ∧ ¬ s.hostOwned m.word then
      .next (s.waitHome 0 (.hostLine (m.word / 128) true) (.fdata m))
    else .next (s.homeData m.word (some m.data) m.bad)
  | .core n =>
    let x := (s.core n).word m.word
    if x.st ≠ .pending then .next s
    else
      match x.got with
      | some gr => .next (s.ownNow n m.word gr.grant m.data m.bad)
      | none => .next (s.setCore n ((s.core n).setWord m.word { x with fdata := some (m.data, m.bad) }))

/-! ## Revokes (R258, R259, R370) -/

/-- The bridge asks the host for a half that it owns, and serves a message once the host answers. -/
def State.askHost (s : State) (k : Nat) (i : Instr) : State :=
  s.setDev { s.dev with bisnp := s.dev.bisnp ++ [⟨k / 64, true, some i, s.dev.cycle⟩] }

/-- A write-back of the word under the tag is on its way. -/
def State.wbSent (s : State) (k owner : Nat) (tag : BitVec 22) : Bool :=
  s.pending.any fun i => match i with
    | .wb x => decide (x.word = k) && decide (x.owner = owner) && decide (tagOf x.grant = tag)
    | _ => false

/-- The forward that was on its way to a core for a word is not wanted any more: the core has given the word up, and
drops the forward as it comes (R258). -/
def State.forgetForward (s : State) (core k : Nat) : State :=
  let gone (word : Nat) (dest : FwdTo) : Bool := decide (word = k) && decide (dest = .core core)
  let pending := s.pending.filterMap fun i => match i with
    | .fdata m => if gone m.word m.dest then none else some i
    | .gone m => if gone m.word m.dest then none else some i
    | .lostReply (.fdata w n) => if gone w (.core n) then none else some i
    | .revoke m => some (if gone m.word m.dest then .revoke { m with forward := false } else i)
    | _ => some i
  { s with pending, dev := { s.dev with gone := s.dev.gone.filter fun m => !gone m.word m.dest } }

/-- A pending word whose grant the tag names gives the word up at once when nothing is to be forwarded; its written
bytes are the old registration's (R258). -/
def L1Word.yieldsTo (x : L1Word) (m : RevokeMsg) : Bool :=
  !m.forward && (match x.got with
    | some g => decide (tagOf g.grant = m.tag)
    | none => false)

/-- A revoke addressed to a core that has died is answered LOST (R260). -/
def State.revokeLost (s : State) (m : RevokeMsg) : State :=
  if !m.forward then s
  else
    match m.dest with
    | .home => s.homeData m.word none false
    | .core n => s.post (.lostReply (.fdata m.word n))

/-- REVOKE (R258). -/
def execRevoke (m : Machine.RevokeMsg) (s : State) : Outcome :=
  let c := s.core m.owner
  let x := c.word m.word
  if m.owner = ownBridge then .next (s.askHost m.word (.revoke m))
  else if c.dead then .next (s.revokeLost m)
  else if s.wbSent m.word m.owner m.tag then
    .next (if m.forward then s.post (.gone ⟨m.word, m.owner, m.tag, m.dest⟩) else s)
  else if x.st = .pending then
    .next (if x.yieldsTo m then (s.forgetForward m.owner m.word).putL1 m.owner m.word {} else s.post (.revoke m))
  else if x.st = .O ∧ tagOf x.grant = m.tag then
    let s := s.putL1 m.owner m.word {}
    .next (if m.forward then s.post (.fdata ⟨m.word, m.dest, x.data, m.tag, c.isBad m.word⟩) else s)
  else .next (if m.forward then s.revokeLost m else s)

/-- GONE (R259). -/
def execGone (m : Machine.GoneMsg) (s : State) : Outcome :=
  .next (s.setDev { s.dev with gone := s.dev.gone ++ [m] })

/-- WB (R256). -/
def execWb (m : Machine.WbMsg) (s : State) : Outcome :=
  let k := m.word
  let tag := tagOf m.grant
  let early := s.pending.any fun i => match i with
    | .revoke r => decide (r.word = k) && decide (r.owner = m.owner) && decide (r.tag = tag)
    | .gone r => decide (r.word = k) && decide (r.owner = m.owner) && decide (r.tag = tag)
    | _ => false
  let host := decide (2 ^ 52 ≤ k) && !s.hostOwned k
  if early then .next (s.post (.wb m))
  else if host then .next (s.waitHome m.owner (.hostLine (k / 128) true) (.wb m))
  else
    let s := s.wbDone m.owner k
    match s.dev.gone.find? (fun r => decide (r.word = k) && decide (r.owner = m.owner) && decide (r.tag = tag)) with
    | some r =>
      let s := s.setDev { s.dev with gone := s.dev.gone.filter (· ≠ r) }
      .next (match r.dest with
        | .home => s.homeData k (some m.data) m.bad
        | .core _ => s.post (.fdata ⟨k, r.dest, m.data, tag, m.bad⟩))
    | none =>
      .next (if s.ownerOf k = some ⟨m.owner, tag⟩ then ((s.putWord k m.data).setOwner k none).markHome k m.bad else s)

/-! ## Reads (R255, R260, R263) -/

/-- Count a read of a line; 64 of them within 1,024 cycles, while none of its words is registered, may replicate it
(R263). -/
def State.countRead (s : State) (k : Nat) : State :=
  let l := k / 128
  let now := s.dev.cycle.toNat
  if s.dev.owner.any fun p => decide (p.1 / 128 = l) && p.2.isSome then
    s.setDev { s.dev with hot := Map.del s.dev.hot l }
  else
  let (t, n) := Map.get (0, 0) s.dev.hot l
  let (t, n) := if n = 0 ∨ 1024 ≤ now - t then (now, 1) else (t, n + 1)
  let s := s.setDev { s.dev with hot := Map.put (0, 0) s.dev.hot l (t, n) }
  if 64 ≤ n ∧ l ∉ s.dev.replicas ∧ (.hotLineReplicate l) ∉ s.pending then s.post (.hotLineReplicate l) else s

/-- A core's read touches a private page for the first time (R261): recorded, or a full table gives up its oldest
entry first. -/
def State.touchPrivate (s : State) (m : ReadMsg) : Except Need State :=
  let core := m.who.core
  match s.privAt m.word, m.page with
  | none, some p =>
    let mine := s.dev.priv.filter fun q => homeDie q.1 = homeDie p
    if mine.length < 65536 then .ok (s.setDev { s.dev with priv := s.dev.priv ++ [(p, core)] })
    else
      match mine with
      | q :: _ => .error (.unpriv q.1 q.2)
      | [] => .ok s
  | _, _ => .ok s

/-- A read that its op must make again, its tile having gone (R287). -/
def State.readAgain (s : State) (m : ReadMsg) : State :=
  match m.why with
  | .fill => s.unaskCore m.who.core (isWord m.word)
  | .lda slot => s.answer m.who (.lda slot m.word m.va) [] stRetry

/-- A read that fails with a status. -/
def State.readFails (s : State) (m : ReadMsg) (status : Nat) : State :=
  match m.why with
  | .fill => s.answerWord m.who.core m.word status
  | .lda slot => s.answer m.who (.lda slot m.word m.va) [] status

/-- The tile of a word is not there for the reader. -/
def State.tileGone (s : State) (m : ReadMsg) : Bool :=
  match s.tileAt m.word with
  | some r => decide (r.st ≠ .declared) && decide (r.st ≠ .sealed) && !s.slices m.who r.tile &&
      !r.lateAt m.word
  | none => false

/-- A home may give up the lines of a sealed tile (R287). -/
def State.mayDrop (s : State) : State :=
  if Config.evicts (2 * s.tick + 1) then
    let can := s.dev.recipes.filter fun r => decide (r.st = .sealed) && decide (r.pins = 0)
    match can[Config.pick s.tick % max 1 can.length]? with
    | some r => s.dropTile r
    | none => s
  else s

/-- The registered words of a line that its slice may give up: none of them LOST, and nothing about them on its way
(R251). -/
def State.evictable (s : State) (line : Nat) : List (Nat × Owner) :=
  let l := s.dev.owner.filterMap fun p => if p.1 / 128 = line then p.2.map fun o => (p.1, o) else none
  if l.all fun p => decide (p.2.agent ≠ ownLost) && !s.inTransit p.1 && !s.scHeld p.1 then l else []

/-- A slice gives a line up: it revokes each owner of a word of it, with write-back (R251). -/
def State.sliceEvict (s : State) : State :=
  if Config.sliceEvicts s.tick then
    let lines := (s.dev.owner.map fun p => p.1 / 128).eraseDups
    (s.evictable (lines.getD (Config.pick s.tick % max 1 lines.length) 0)).foldl (fun s p =>
      s.revokeHome p.1 p.2 (.revoke ⟨p.1, p.2.agent, p.2.tag, .home, true⟩)) s
  else s

/-- Serve a read at its home. -/
def State.homeRead (s : State) (m : ReadMsg) : State :=
  let k := m.word
  let s := (s.sliceEvict.mayDrop).countRead k
  if s.tileGone m then s.readAgain m
  else
    match s.touchPrivate m with
    | .error n => s.waitHome m.who.core n (.read m)
    | .ok s =>
      match s.homeNeed m.who.core k false with
      | some n => s.waitHome m.who.core n (.read m)
      | none =>
        match s.ownerOf k with
        | none =>
          if k ∈ s.dev.badMem then (s.unsnoop k).readFails m 2
          else (s.unsnoop k).post (.data ⟨m, s.wordAt k, s.grantOf k⟩)
        | some o =>
          if o.agent = ownLost then (s.unsnoop k).post (.lostReply (.read m)) else s.post (.fwd ⟨o.agent, m, false⟩)

/-- READ (R255). -/
def execRead (m : Machine.ReadMsg) (s : State) : Outcome :=
  .next (s.homeRead m)

/-- RETRY (R258). -/
def execRetry (m : Machine.ReadMsg) (s : State) : Outcome :=
  let wbOut := s.pending.any fun i => match i with
    | .wb x => decide (x.word = m.word)
    | _ => false
  .next (if wbOut then s.post (.retry m) else s.homeRead m)

/-- The home has the core as the word's owner: a forward to it is for the registration that it awaits (R258). -/
def State.homeNames (s : State) (core k : Nat) : Bool :=
  match s.ownerOf k with
  | some o => decide (o.agent = core)
  | none => false

/-- A revoke of the word has yet to be applied by its owner, which holds the forwards behind it (R258). -/
def State.revokeHeld (s : State) (core k : Nat) : Bool :=
  s.pending.any fun i => match i with
    | .revoke r => decide (r.word = k) && decide (r.owner = core)
    | _ => false

/-- FWD (R255). A pending word holds the forward of the registration that it awaits, and those that stand behind a
revoke; a forward for a registration that the core has given up is answered RETRY (R258). A forward of the pod's table is
answered with a word that has been written whole before its grant has come (R272; log entry 103). The answer of a word
that is not to be corrected fails the read (R354; log entry 104). -/
def execFwd (m : Machine.FwdMsg) (s : State) : Outcome :=
  let c := s.core m.owner
  let x := c.word m.read.word
  if m.owner = ownBridge then .next (s.askHost m.read.word (.fwd m))
  else if c.dead then .next (s.post (.lostReply (.read m.read)))
  else if x.st = .pending ∧ m.pod ∧ x.mask = 15#4 then .next (s.post (.data ⟨m.read, x.data, x.grant⟩))
  else if x.st = .pending ∧ (m.pod ∨ s.homeNames m.owner m.read.word ∨ s.revokeHeld m.owner m.read.word) then
    .next (s.post (.fwd m))
  else if x.st = .O then
    .next (if c.isBad m.read.word then s.readFails m.read 2 else s.post (.data ⟨m.read, x.data, x.grant⟩))
  else .next (s.post (.retry m.read))

/-- The reply of one grant number is older than that of another (R252). -/
def grantOlder (a b : Word) : Bool := decide (2 ^ 31 ≤ (a - b).toNat)

/-- A line records the highest grant number among the replies installed into it (R252). -/
def Core.noteGrant (k : Core) (line : Nat) (g : Word) : Core :=
  { k with lineGrant := Map.put none k.lineGrant line (some (match Map.get none k.lineGrant line with
      | some h => if grantOlder g h then h else g
      | none => g)) }

/-- Install a reply's word (R252, R255, R261). Other words of it that are on their way may be older (R274), and a word that
some context may not use does not come in as P; log entry 102. -/
def State.installWord (s : State) (m : DataMsg) : State :=
  let core := m.read.who.core
  let k := m.read.word
  let x := (s.core core).word k
  let mine := match s.privAt k with
    | some (_, o) => decide (o = core)
    | none => false
  if s.hostBias k then s
  else if mine && !m.read.hidden.isEmpty then s.unaskCore core (isWord k)
  else if x.st = .I ∨ (x.st = .V ∧ ¬ grantOlder m.grant x.grant) then
    let hidden := (m.read.hidden ++ s.hiddenNow k).eraseDups
    let s := (s.hideWord core k).putL1 core k
      { st := if mine then .P else .V, data := m.data, grant := m.grant, va := m.read.va, hidden }
    (s.setCore core ((s.core core).noteGrant (k / 128) m.grant)).makeRoom core k
  else s.unaskCore core (isWord k)

/-- DATA (R255). -/
def execData (m : Machine.DataMsg) (s : State) : Outcome :=
  let s := s.installWord m
  match m.read.why with
  | .fill => .next s
  | .lda slot => .next (s.answer m.read.who (.lda slot m.read.word m.read.va) (leBytes 4 m.data.toNat) 0)

/-- LOST_REPLY (R260). The home records LOST in place of the core's registration, unless another has followed it. -/
def execLostReply (m : Machine.LostMsg) (s : State) : Outcome :=
  match m with
  | .read r => .next (s.readFails r 4)
  | .fdata k core =>
    let s := if s.homeNames core k then
        (s.setOwner k (some ⟨ownLost, 0⟩)).log (homeDie k) 0x10 (s.core core).asid 1023 7 0
      else s
    .next ((s.putL1 core k {}).granted core k)

/-- HOT_LINE_REPLICATE (R263). -/
def execHotLineReplicate (line : Nat) (s : State) : Outcome :=
  let registered := s.dev.owner.any fun p => decide (p.1 / 128 = line) && p.2.isSome
  .next (if registered ∨ line ∈ s.dev.replicas then s
    else s.setDev { s.dev with replicas := s.dev.replicas ++ [line] })

/-! ## Private pages (R261) -/

/-- The word lies in a private page. -/
def inPage (page k : Nat) : Bool :=
  decide (page / 4 * 4 ≤ k) && decide (k < page / 4 * 4 + 2 ^ pageBits (page % 4))

/-- UNPRIV (R261). -/
def execUnpriv (page owner : Nat) (s : State) : Outcome :=
  let words := (s.core owner).l1.filter fun p => decide (p.2.st = .P) && inPage page p.1
  let s := words.foldl (fun s p =>
    let bad := (s.core owner).isBad p.1
    let s := if p.2.dirty then (s.putWord p.1 p.2.data).markHome p.1 bad else s
    let s := s.putL1 owner p.1 { p.2 with st := .V, dirty := false, mask := 0, grant := s.grantOf p.1 }
    s.setCore owner ((s.core owner).markWord p.1 bad)) s
  let s := s.setDev { s.dev with
    priv := s.dev.priv.map fun q => if q.1 = page then (page, ownLost) else q }
  .next (s.post (.unprivAck page owner))

/-- The translations of a page that some TLB of the device holds. -/
def State.pageEntries (s : State) (page : Nat) : List (Nat × TlbEntry) :=
  let same (e : TlbEntry) : Bool := decide (e.cls = clsPrivate) && decide (s.key e.pa + e.level = page)
  (s.cores.flatMap fun c => (c.2.tlb.filter same).map fun e => (c.1, e)) ++
    s.dev.podTlb.flatMap fun t => (t.2.filter same).map fun e => (podMate (coreAt (t.1 / 6 * 4) (t.1 % 6 * 4)) 0, e)

/-- What an engine's work for an address space needs first, with the address space. -/
def needOf {α : Type} (asid : Nat) (none_ : α) : EngRes α → Except (Nat × Need) α
  | .ok x => .ok x
  | .need n => .error (asid, n)
  | .err _ => .ok none_

/-- The leaf entries of every address space that map a private page (R261). -/
def pageLeaves (s : State) (page : Nat) (l : List (Nat × Asid)) : Except (Nat × Need) (List (Nat × Nat)) :=
  match exAll (fun (a : Nat × Asid) =>
      match needOf a.1 [] (if a.2.bound then s.leaves a.1 else .ok []) with
      | .error e => .error e
      | .ok ls => .ok (ls.filterMap fun e =>
          if bitsOf e.2.1 61 59 = 0 ∧ s.key (bitsOf e.2.1 51 16 * 65536) + e.2.2 = page then some (a.1, e.1)
          else none)) l with
  | .error e => .error e
  | .ok ls => .ok ls.flatten

/-- Rewrite leaf entries to class shared, those in another device's memory over the native flows (R261, R301). An entry
that cannot be read or written stays as it is. -/
def sharePages : List (Nat × Nat) → State → Except (Nat × Need) State
  | [], s => .ok s
  | (asid, a) :: t, s =>
    let ag := dispAgent 0 asid
    match needOf asid s ((s.entryBytes ag a).bind fun bs => s.putEntry ag a (leBytes 8 (leNat bs + 2 ^ 59))) with
    | .ok s => sharePages t s
    | .error e => .error e

/-- A page's leaf entries are rewritten, or what that needs first. -/
def State.sharePage (s : State) (page : Nat) : Except (Nat × Need) State :=
  match pageLeaves s page s.dev.asids with
  | .error e => .error e
  | .ok ls => sharePages ls s

/-- The agent that asks for what the rewriting of entries needs: its second part asks for the writes. -/
def entryAgent (asid : Nat) (n : Need) : Agent := match n with
  | .native 3 _ _ _ => (dispAgent 0 asid).part 1
  | _ => dispAgent 0 asid

/-- A read that was on its way under a private translation that is gone is served as a shared one (R261). -/
def sharedRead (page : Nat) : Instr → Instr
  | .read m => if m.page = some page then .read { m with page := none } else .read m
  | .retry m => if m.page = some page then .retry { m with page := none } else .retry m
  | i => i

/-- UNPRIV_ACK (R261). -/
def execUnprivAck (page owner : Nat) (s : State) : Outcome :=
  match s.sharePage page with
  | .error (asid, n) => .next ((s.meetNeed (entryAgent asid n) 0 n).post (.unprivAck page owner))
  | .ok s =>
    let s := s.engDone (dispAgent 0 0)
    let s := (s.pageEntries page).foldl (fun s e =>
      s.dropTlb e.2.asid fun x => decide (x.pa = e.2.pa) && decide (x.level = e.2.level)) s
    .next { s with
      pending := s.pending.map (sharedRead page),
      dev := { s.dev with priv := s.dev.priv.filter fun q => q.1 ≠ page } }

/-! ## Sequentially consistent atomics (R276 to R279) -/

/-- The core's first wheel position strictly after a cycle that no other bundle has claimed. -/
def Core.nextPosition (k : Core) (now : Nat) : Nat :=
  let free := (List.range (8192 + 4096 * k.claims.length)).find? fun i =>
    decide ((now + 1 + i) % 4096 ∈ k.wheel) && decide (now + 1 + i ∉ k.claims)
  now + 1 + free.getD 0

/-- ATOMSC_SEND (R277). -/
def execAtomscSend (who : Machine.Who) (s : State) : Outcome :=
  let k := s.core who.core
  let first := k.ctxs.any fun c => decide (c.1 ≠ who.ctx) && decide ((.atomscSend ⟨who.core, c.1⟩) ∈ s.pending) &&
    s.before who.core c.1 who.ctx
  if k.wheel.isEmpty then .next s
  else if first then .next (s.post (.atomscSend who))
  else
    let now := s.dev.cycle.toNat
    let c := k.nextPosition now
    let s := s.setCore who.core { k with claims := c :: k.claims.filter fun x => decide (now < x) }
    .next (s.postAll ((s.ctx who).waits.filterMap fun x => match x with
      | .atomsc op => some (.atomscArrive { op with key := c * 16 + op.slot })
      | _ => none))

/-- Send back the failure of an ATOMSC op. -/
def State.scFails (s : State) (op : ScOp) (status : Nat) : State :=
  let s := (s.unsnoop op.pa).setDev { (s.unsnoop op.pa).dev with scq := s.dev.scq.filter (· ≠ op) }
  s.answer op.who (.atomsc { op with key := 0 }) (leBytes 1 (s.lostWord (opWords op.pa op.wide))) status

/-- ATOMSC_ARRIVE (R278). -/
def execAtomscArrive (op : Machine.ScOp) (s : State) : Outcome :=
  let stalled := match s.dev.stall with
    | some c => decide (c.toNat ≤ op.key / 16)
    | none => false
  if stalled || decide (s.dev.cycle.toNat < op.key / 16) then .next (s.post (.atomscArrive op))
  else
    match (opWords op.pa op.wide).filterMap fun k => s.homeNeed op.who.core k true with
    | n :: _ => .next (s.waitHome op.who.core n (.atomscArrive op))
    | [] =>
      let s := s.setDev { s.dev with scq := s.dev.scq ++ [op] }
      let s := (opWords op.pa op.wide).foldl (fun s k =>
        match s.ownerOf k with
        | some o => if o.agent = ownLost ∨ s.homeHeld k then s else s.revokeHome k o (.atomscApply op)
        | none => s) s
      .next (s.post (.atomscApply op))

/-- An op of an earlier key is to be applied at the same home first. -/
def State.scEarlier (s : State) (op : ScOp) : Bool :=
  let first (o : ScOp) : Bool := decide (o.key < op.key) && decide (homeSlice o.pa = homeSlice op.pa)
  s.dev.scq.any first || s.pending.any fun i => match i with
    | .atomscArrive o => first o
    | _ => false

/-- ATOMSC_APPLY (R278). A word of the core's own private page goes home first, so that the op reads its value (R279; log
entry 102). -/
def execAtomscApply (op : Machine.ScOp) (s : State) : Outcome :=
  let ws := opWords op.pa op.wide
  if s.dev.cycle.toNat < op.key / 16 + 256 ∨ s.scEarlier op ∨ ws.any s.homeHeld then .next (s.post (.atomscApply op))
  else if s.atomSealed op.who op.pa then .next (s.scFails op stRetry)
  else
    let s := ws.foldl (fun s k => s.sendHome op.who.core k) s
    match s.homeWords false ws with
    | .lost => .next (s.scFails op 4)
    | .bad => .next (s.scFails op 2)
    | .owned k o => .next ((s.revokeHome k o (.atomscApply op)).post (.atomscApply op))
    | .free =>
      let old := s.opValue op.pa op.wide
      let s := match atomNew op.op (if op.wide then 64 else 32) old op.b.toNat 0 with
        | some x => s.opWrite op.pa op.wide x
        | none => s
      let s := s.writerDrops op.who.core ws
      let s := (s.unsnoop op.pa).setDev { (s.unsnoop op.pa).dev with scq := s.dev.scq.filter (· ≠ op) }
      .next (s.post (.atomscReply op (BitVec.ofNat 64 old)))

/-- ATOMSC_REPLY (R277). -/
def execAtomscReply (op : Machine.ScOp) (old : Dword) (s : State) : Outcome :=
  .next (s.answer op.who (.atomsc { op with key := 0 }) (leBytes 8 old.toNat) 0)

end Sys2Proof.Machine
end

