-- ==== Sys2Proof/Machine/Channel.lean ====
section
/-! DEFINITION. Transfers on the copy channels: tile moves, bulk copies, the gather queue, landing
acknowledgements, and stores that wait (R206, R214 to R231, R240). -/

namespace Sys2Proof.Machine

/-! ## Spans that may lie in the pool window -/

/-- Write a span for an engine. -/
def State.engStore (s : State) (g : Agent) (va : Nat) (bs : List Byte) : EngRes State :=
  let k := s.core g.core
  if inWindow va then
    (if (windowFault k.binding va bs.length).isSome then .err 3 else .ok (s.setCore g.core (k.poolWrite va bs)))
  else if inAperture va then .err 3
  else s.engWriteVa g va bs

/-- An engine's step needs something first. -/
def State.engWait (s : State) (g : Agent) (va : Nat) (n : Need) (again : Instr) : State :=
  (s.meetNeed g va n).post again

def State.findXfer (s : State) (x : XferId) : Option Xfer :=
  (s.core x.core).xfers.find? fun t => decide (t.ch = x.ch) && decide (t.id = x.id)

/-! ## Tile transfers (R206, R217, R218, R240) -/

/-- A metadata nibble is legal (R88). -/
def nibbleOk (n : Nat) : Bool :=
  decide (n = 4) || decide (n = 8) || decide (n = 12) || decide (n = 9) || decide (n = 13) || decide (n = 14)

/-- Poison reasons that loaded bytes give by themselves (R218). -/
def loadPoison (d : Dword) (mode : BitVec 2) (data mdata : List Byte) : BitVec 2 :=
  let nibbles := (mdata.flatMap fun b => [b.toNat % 16, b.toNat / 16]).take (descD2 d * (descD1 d / 4) * descD0 d)
  if mode.getLsbD 0 && nibbles.any (fun n => !nibbleOk n) then 2
  else
    match descFmt d with
    | .tern => if data.any (fun b => decide (243 ≤ b.toNat)) then 1 else 0
    | _ => 0

/-- A place of an image lies on another device, so that its unit moves whole (log entry 13). -/
def State.farPlace (s : State) (g : Agent) (va : Nat) : Bool :=
  !inWindow va && match s.engPlace g va .read with
    | .ok q => s.isRemote q.pa
    | _ => false

/-- The piece of its image at `va` that a transfer moves next: the one that it has begun, or one that Config chooses. -/
def State.nextPiece (s : State) (g : Agent) (va : Nat) (t : Xfer) : Option (Nat × Nat) :=
  match t.cur with
  | some p => some p
  | none => pieceOf va (Config.grain (3 * s.tick)) (Config.grain (3 * s.tick + 1)) (Config.grain (3 * s.tick + 2))
      (fun o => s.farPlace g (va + o)) t.todo

/-- A word as an engine reads it, and whether it is bad: LOST, or not to be corrected (R218). -/
def State.rawWord (s : State) (g : Agent) (k : Nat) : EngRes (Word × Bool) :=
  match s.engWord g k with
  | .ok w => .ok (w, false)
  | .need n => .need n
  | .err e => if e = 4 then .ok (s.wordAt k, true) else .err e

/-- Read bytes of one unit for TLD, bad data as they stand (R217, R218). -/
def State.unitRead (s : State) (g : Agent) (va n : Nat) : EngRes (List Byte × Bool) :=
  let k := s.core g.core
  if inWindow va then
    (if (windowFault k.binding va n).isSome then .err 3 else .ok (k.poolSpan va n, k.poolPoison va n))
  else if inAperture va then .err 3
  else
    (s.engPlace g va .read).bind fun q =>
      if s.isRemote q.pa then
        match s.natAnswer g q.pa with
        | some (0, bs) => .ok (bs, false)
        | some (st, bs) => if natError st = 4 then .ok ((bs ++ List.replicate n 0).take n, true) else .err (natError st)
        | none => .need (.native 1 q.pa n [])
      else
        let first := q.key / 4
        (engAll (fun i => s.rawWord g ((first + i) * 4)) (List.range ((q.key + n + 3) / 4 - first))).bind fun ws =>
          .ok (((ws.flatMap fun w => leBytes 4 w.1.toNat).drop (q.key % 4)).take n, ws.any (·.2))

/-- The bytes of a tile's footprint in the core whose pool holds it. -/
def Core.tileBytes (k : Core) (d : Dword) (r : Nat × Nat) : List Byte := k.poolSpan (descOff d + r.1) r.2

/-- The bytes of a piece have moved; what has been read is kept. -/
def Xfer.took (t : Xfer) (o : Nat) (bs : List Byte) (bad : Bool) : Xfer :=
  { t with todo := cutPiece o bs.length t.todo, cur := none, got := putBytes t.got o bs, bad := t.bad || bad }

/-- The bytes [o, o + n) of its image that a transfer has read. -/
def Xfer.span (t : Xfer) (o n : Nat) : List Byte := walkBytes n o (t.got.dropWhile fun p => decide (p.1 < o))

def State.setXfer (s : State) (x : XferId) (t : Xfer) : State :=
  let k := s.core x.core
  s.setCore x.core { k with xfers := k.xfers.map fun y => if y.ch = x.ch ∧ y.id = x.id then t else y }

/-- The poison that a finished TLD leaves, 0 for none (R218). -/
def Xfer.reason (t : Xfer) (d : Dword) (mode : BitVec 2) : BitVec 2 :=
  if t.bad then 3
  else loadPoison d mode (t.span 0 (descData d)) (if mode.getLsbD 0 then t.span (descMetaOff d) (descMetaSize d) else [])

/-- Bad data that a tile transfer reads is recorded, with its source (R355). -/
def State.noteBad (s : State) (bad : Bool) (w : Who) (src : Nat) : State := if bad then s.logCtx w 0x09 src else s

/-- The transfer unit has made a request of 128 bytes (R232). -/
def State.requested (s : State) (core : Nat) : State :=
  let k := s.core core
  s.setCore core { k with unit := k.unit + 1 }

/-- A piece at `o` of a transfer has moved, which now is `t`: `ends` follows the last one. -/
def State.pieceMoved (s : State) (x : XferId) (va o : Nat) (t : Xfer) (ends : State → State) : State :=
  let s := s.setXfer x t
  let s := if unitLeft va o t.todo then s else s.requested x.core
  if t.todo.isEmpty then ends s else s.post (.transferComplete x)

/-- A piece needs something first; the transfer stays with it. -/
def State.pieceWaits (s : State) (g : Agent) (x : XferId) (t : Xfer) (va : Nat) (p : Nat × Nat) (n : Need) : State :=
  (s.setXfer x { t with cur := some p }).engWait g (va + p.1) n (.transferComplete x)

/-- The next bytes of a TLD (R217, R218). -/
def State.loadTile (s : State) (g : Agent) (x : XferId) (t : Xfer) (reg : Nat) (d : Dword) (mode : BitVec 2) (va : Nat) :
    State :=
  let w : Who := ⟨x.core, g.ctx⟩
  let ends (t : Xfer) (s : State) : State := ((s.engDone g).setPoison w reg (t.reason d mode)).completeXfer x 0
  match s.nextPiece g va t with
  | none => ends t s
  | some (o, n) =>
    match s.unitRead g (va + o) n with
    | .need m => s.pieceWaits g x t va (o, n) m
    | .err e =>
      let s := (s.engRefused g (s.lineRefused g (va + o) .read)).engDone g
      (if t.bad then s.setPoison w reg 3 else s).completeXfer x e
    | .ok (bs, bad) =>
      let t := t.took o bs bad
      let s := (((s.engPiece g).useSpan g (va + o) n).forgetSpan x.core (va + o) n).noteBad bad w
        (if inWindow (va + o) then 4 else 5)
      (s.setCore x.core ((s.core x.core).poolWrite (descOff d + o) bs)).pieceMoved x va o t (ends t)

/-- A piece of a store whose words are LOST or not to be corrected is written by whole words, so that a full word makes
its word afresh (R257, R260): the piece widened to them, as far as its range goes. -/
def wholeWords (va : Nat) (p : Nat × Nat) (todo : List (Nat × Nat)) : Nat × Nat :=
  match todo.find? fun r => decide (r.1 ≤ p.1) && decide (p.1 + p.2 ≤ r.1 + r.2) with
  | none => p
  | some r =>
    let lo := max r.1 (p.1 - (va + p.1) % 4)
    let hi := min (r.1 + r.2) ((va + p.1 + p.2 + 3) / 4 * 4 - va)
    (lo, hi - lo)

/-- The next bytes of a transfer to memory, of a TST or of a scatter (R217, R228); bytes that are poisoned end it
(R354). -/
def State.storePiece (s : State) (g : Agent) (x : XferId) (t : Xfer) (va : Nat) (bytes : Nat → Nat → List Byte)
    (bad : Nat → Nat → Bool) : State :=
  match s.nextPiece g va t with
  | none => s.completeXfer x 0
  | some p =>
    let (o, n) := match s.engStore g (va + p.1) (bytes p.1 p.2) with
      | .err e => if e = 4 then wholeWords va p t.todo else p
      | _ => p
    if bad o n then (s.engDone g).completeXfer x 4
    else
      match s.engStore g (va + o) (bytes o n) with
      | .need m => s.pieceWaits g x t va (o, n) m
      | .err e => ((s.engRefused g (s.lineRefused g (va + o) .write)).engDone g).completeXfer x e
      | .ok s =>
        ((s.engDone g).useSpan g (va + o) n).pieceMoved x va o (t.took o (bytes o n) false) fun s => s.completeXfer x 0

/-- The next bytes that a transfer reads of a tile's footprint in a pool: those of a TCPY, which it writes at once, or
of the image that TSTX sends (R206, R240). -/
def State.readPiece (s : State) (g : Agent) (x : XferId) (t : Xfer) (from_ : Nat) (sd : Dword) (dst : Option Nat)
    (ends : Xfer → State → State) : State :=
  match s.nextPiece g 0 t with
  | none => ends t s
  | some (o, n) =>
    let k := s.core from_
    let bs := k.tileBytes sd (o, n)
    let bad := k.poolPoison (descOff sd + o) n
    let t := t.took o bs bad
    let s := match dst with
      | some off => (s.noteBad bad ⟨x.core, g.ctx⟩ 4).setCore x.core ((s.core x.core).poolWrite (off + o) bs)
      | none => s
    s.pieceMoved x 0 o t (ends t)

/-- The next bytes of a TCPY (R206). -/
def State.copyTile (s : State) (g : Agent) (x : XferId) (t : Xfer) (reg : Nat) (dd sd : Dword) : State :=
  s.readPiece g x t (if descRemote sd then podMate x.core (descMate sd) else x.core) sd (some (descOff dd)) fun t s =>
    (s.setPoison ⟨x.core, g.ctx⟩ reg (if t.bad then 3 else 0)).completeXfer x 0

/-- The transfer stands within a 128-byte unit (R362). -/
def Xfer.midUnit (t : Xfer) : Bool :=
  let va := match t.kind with
    | .tld _ _ _ va => va
    | .tst _ _ _ va => va
    | .scatter va _ => va
    | _ => 0
  let edge (o : Nat) : Bool := decide ((va + o) % 128 = 0) ||
    t.kind.ranges.any fun r => decide (r.1 = o) || decide (r.1 + r.2 = o)
  t.todo.any fun r => !edge r.1 || !edge (r.1 + r.2)

/-- The image that TSTX sends: each named region, zero between (R240). -/
def Xfer.image (t : Xfer) : List Byte :=
  t.span 0 (t.kind.ranges.foldl (fun n r => max n (r.1 + r.2)) 0)

/-- TRANSFER_COMPLETE (R214). -/
def execTransferComplete (x : Machine.XferId) (s : State) : Outcome :=
  match s.findXfer x with
  | none => .next s
  | some t =>
    if (s.core x.core).scoreWaits t.key then .next (s.post (.transferComplete x)) else
    let ag := s.agent ⟨x.core, t.ctx⟩ x.ch x.id
    match t.kind with
    | .tld reg d mode va => .next (s.loadTile ag x t reg d mode va)
    | .tst _ d _ va =>
      let k := s.core x.core
      .next (s.storePiece ag x t va (fun o n => k.tileBytes d (o, n)) fun o n => k.poolPoison (descOff d + o) n)
    | .tcpy reg dd sd => .next (s.copyTile ag x t reg dd sd)
    | .tstx d _ h =>
      .next (s.readPiece ag x t x.core d none fun t s =>
        if t.bad then s.completeXfer x 4 else s.sendLanding x t.asid h [(0, t.image)])
    | .copy .. => .next s
    | .scatter va bs =>
      if (s.ctx ⟨x.core, t.ctx⟩).gqAddr.head? ≠ some (.scatter x) then .next (s.post (.transferComplete x))
      else .next (s.storePiece ag x t va (fun o n => (bs.drop o).take n) fun _ _ => false)

/-! ## Bulk copies (R220 to R226) -/

/-- Fields of a template's control word (R222). -/
def tplWord (t : List Byte) : Dword := BitVec.ofNat 64 (leNat (t.take 8))
def tplLoops (t : List Byte) : Nat := bitsOf (tplWord t) 28 26
def tplScope (t : List Byte) : Nat := bitsOf (tplWord t) 25 24
def tplCw (t : List Byte) : Bool := (tplWord t).getLsbD 23
def tplRnd (t : List Byte) : BitVec 3 := (tplWord t).extractLsb' 20 3
def tplOvf (t : List Byte) : Bool := (tplWord t).getLsbD 19
def tplDfmt (t : List Byte) : BitVec 6 := (tplWord t).extractLsb' 13 6
def tplSfmt (t : List Byte) : BitVec 6 := (tplWord t).extractLsb' 7 6
def tplCvt (t : List Byte) : Bool := (tplWord t).getLsbD 6
def tplKind (t : List Byte) : Nat := bitsOf (tplWord t) 5 4
def tplEsz (t : List Byte) : Nat := bitsOf (tplWord t) 3 0

/-- Count, source stride and destination stride of loop `j`. -/
def tplCount (t : List Byte) (j : Nat) : Nat := leNat ((t.drop (8 + 12 * j)).take 4)
def tplStride (t : List Byte) (j o : Nat) : Int := (BitVec.ofNat 32 (leNat ((t.drop (8 + 12 * j + o)).take 4))).toInt

/-- The template obeys R222. -/
def tplOk (t : List Byte) : Bool :=
  let n := tplLoops t
  let fmtOk (c : BitVec 6) : Bool := fmtAssigned c && isIF (fmtOf c) && decide (8 ≤ (fmtOf c).width)
  decide (bitsOf (tplWord t) 63 29 = 0) && decide (1 ≤ n) && decide (n ≤ 6) && decide (tplEsz t < 8) &&
    (List.range 6).all (fun j => if j < n then decide (tplCount t j ≠ 0)
      else ((t.drop (8 + 12 * j)).take 12).all fun b => decide (b = 0)) &&
    (t.drop 80).all (fun b => decide (b = 0)) &&
    (if tplCvt t then
      decide ((tplRnd t).toNat ≤ 4) && fmtOk (tplSfmt t) && fmtOk (tplDfmt t) &&
        decide (8 * 2 ^ tplEsz t = (fmtOf (tplSfmt t)).width)
     else decide (bitsOf (tplWord t) 22 19 = 0) && decide (bitsOf (tplWord t) 18 7 = 0))

/-- Fields of the parameter block (R221). -/
def parWord (p : List Byte) (i : Nat) : Dword := BitVec.ofNat 64 (leNat ((p.drop (8 * i)).take 8))

/-- Bytes that one element writes, and elements in all. -/
def tplOut (t : List Byte) : Nat := if tplCvt t then (fmtOf (tplDfmt t)).width / 8 else 2 ^ tplEsz t
def tplElems (t : List Byte) : Nat := (List.range (tplLoops t)).foldl (fun a j => a * tplCount t j) 1

/-- Why an accepted copy ends before any byte moves, 0 for no reason; none when it must wait for a slot
(R220 to R223, R240). -/
def Core.copyFault (k : Core) (value : Dword) (p t : List Byte) : Option Nat :=
  let b := k.binding
  let at_ := b.pb1 + 32 * bitsOf value 31 16
  if bitsOf value 63 32 ≠ 0 then some 7
  else if b.pb2 < at_ + 32 then some 5
  else if b.c < bitsOf value 15 0 + 16 ∨ !tplOk t ∨ tplCw t ∧ bitsOf (parWord p 2) 2 0 ≠ 0 then
    some 1
  else if tplKind t = 2 then
    let d := parWord p 1
    let w := Map.get 0 k.cb d.toNat
    if 8 ≤ d.toNat ∨ !cbValid w ∨ !cbEngine w then some 5 else if cbFree w = 0 then none else some 0
  else if tplKind t = 3 ∧ !handleOk (parWord p 1) (tplElems t * tplOut t) then some 5
  else some 0

/-- The order in which a copy performs its elements: any, but loop order into a landing slot (R223, R240). -/
def copyOrder (key : Nat) : Nat → List Nat → List Nat
  | 0, _ => []
  | n + 1, l =>
    let i := l.getD (Config.nextElem key (n + 1) % (n + 1)) 0
    i :: copyOrder key n (l.erase i)

/-- The number that stands for a copy in what the spec leaves open of it. -/
def copyKey (x : XferId) : Nat := (x.id.toNat * 16 + x.ch) * 576 + x.core

/-- The order for a template. -/
def elemOrder (x : XferId) (t : List Byte) : List Nat :=
  let n := tplElems t
  if tplKind t = 3 then List.range n else copyOrder (copyKey x) n (List.range n)

/-- The transfer with another kind. -/
def Core.setKind (k : Core) (x : XferId) (f : XferKind) : Core :=
  { k with xfers := k.xfers.map fun t => if t.ch = x.ch ∧ t.id = x.id then { t with kind := f } else t }

/-- A copy begins its elements. -/
def Core.startRun (k : Core) (x : XferId) (f : XferKind) (left : List Nat) : Core :=
  { k with xfers := k.xfers.map fun t => if t.ch = x.ch ∧ t.id = x.id then { t with kind := f, run := { left } } else t }

/-- The store of a copy is performed. -/
def State.storeTaken (s : State) (w : Who) (x : XferId) : State :=
  let c := s.ctx w
  s.setCtx w { c with acc := c.acc.filter fun a => a.kind ≠ .xfer x }

/-- APERTURE_STORE (R220). -/
def execApertureStore (x : Machine.XferId) (s : State) : Outcome :=
  match s.findXfer x with
  | none => .next s
  | some t =>
    match t.kind with
    | .copy value _ _ _ _ =>
      let k := s.core x.core
      let b := k.binding
      let par := k.poolSpan (b.pb1 + 32 * bitsOf value 31 16) 32
      let tpl := k.poolSpan (b.constBase + 8 * bitsOf value 15 0) 128
      let bad := k.poolPoison (b.pb1 + 32 * bitsOf value 31 16) 32 || k.poolPoison (b.constBase + 8 * bitsOf value 15 0) 128
      match if bad then some 4 else k.copyFault value par tpl with
      | none => .next (s.post (.apertureStore x))
      | some 0 =>
        let s := s.storeTaken ⟨x.core, t.ctx⟩ x
        let k := s.core x.core
        let n := (parWord par 1).toNat
        let w := Map.get 0 k.cb n
        let (k, base) := if tplKind tpl = 2 then
            ({ k with cb := Map.put 0 k.cb n (cbGetSlot w).2 }, (cbGetSlot w).1) else (k, 0)
        .next ((s.setCore x.core (k.startRun x (.copy value true par tpl base) (elemOrder x tpl))).post (.copyComplete x))
      | some e => .next ((s.storeTaken ⟨x.core, t.ctx⟩ x).completeXfer x e)
    | _ => .next s

/-- The addresses of element `i` in loop order: offsets at source and destination (R223). -/
def elemOffsets (t : List Byte) : Nat → Nat → Nat → Int × Int
  | 0, _, _ => (0, 0)
  | n + 1, j, i =>
    let c := max 1 (tplCount t j)
    let (a, b) := elemOffsets t n (j + 1) (i / c)
    (a + (i % c : Nat) * tplStride t j 4, b + (i % c : Nat) * tplStride t j 8)

/-- The bytes that an element writes: unchanged, or converted as VCVT does (R137, R223). -/
def convertElem (t : List Byte) (bs : List Byte) : List Byte :=
  if tplCvt t then
    let f := fmtOf (tplDfmt t)
    leBytes (tplOut t)
      (f.round (if tplOvf t then .ovf else .sat) (tplRnd t) 0 (tplDfmt t) ((fmtOf (tplSfmt t)).read (leNat bs))).1
  else bs

/-- Write bytes of one element at their destination (R223, R240). -/
def State.copyBytes (s : State) (g : Agent) (t p : List Byte) (slotBase : Nat) (off : Int) (bs : List Byte) :
    EngRes (State × List (Nat × List Byte)) :=
  let k := s.core g.core
  let n := bs.length
  let d := parWord p 1
  match tplKind t with
  | 0 => (s.engStore g (d + BitVec.ofInt 64 off).toNat bs).bind fun s => .ok (s, [])
  | 1 =>
    let o : Int := d.toNat + off
    if o < 0 ∨ (k.binding.pb2 : Int) < o + n then .err 5 else .ok (s.setCore g.core (k.poolWrite o.toNat bs), [])
  | 2 =>
    let size := cbSize (Map.get 0 k.cb d.toNat)
    if off < 0 ∨ (size : Int) < off + n then .err 5
    else .ok (s.setCore g.core (k.poolWrite (slotBase + off.toNat) bs), [])
  | _ => if off < 0 ∨ (handleCount d : Int) < off + n then .err 5 else .ok (s, [(off.toNat, bs)])

/-- The bytes of an element at `off` that no later element has written (R223): each with its place; the whole element
where none overlaps. -/
def standing (i : Nat) (off : Int) (bs : List Byte) (done : List (Nat × Int)) : List (Int × List Byte) :=
  let n : Int := bs.length
  let later := done.filter fun p => decide (i < p.1) && decide (p.2 < off + n) && decide (off < p.2 + n)
  if later.isEmpty then [(off, bs)]
  else (bs.zipIdx.filter fun b => later.all fun p =>
    decide (off + b.2 < p.2) || decide (p.2 + n ≤ off + b.2)).map fun b => (off + b.2, [b.1])

/-- Write the standing parts of an element. -/
def copyParts (g : Agent) (t p : List Byte) (slotBase : Nat) :
    List (Int × List Byte) → State → EngRes (State × List (Nat × List Byte))
  | [], s => .ok (s, [])
  | q :: rest, s =>
    (s.copyBytes g t p slotBase q.1 q.2).bind fun r =>
      (copyParts g t p slotBase rest r.1).bind fun u => .ok (u.1, r.2 ++ u.2)

/-- The translations of an element's two places have been used (R302). -/
def State.usedElem (s : State) (g : Agent) (t p : List Byte) (i : Nat) : State :=
  let (so, do_) := elemOffsets t (tplLoops t) 0 i
  let s := s.useSpan g (parWord p 0 + BitVec.ofInt 64 so).toNat (2 ^ tplEsz t)
  if tplKind t = 0 then s.useSpan g (parWord p 1 + BitVec.ofInt 64 do_).toNat (tplOut t) else s

/-- One element: read, converted, and written where no later element has written (R223). The requests of its read and
of its write to other devices are its own. -/
def State.copyElem (s : State) (g : Agent) (t p : List Byte) (slotBase i : Nat) (done : List (Nat × Int)) :
    EngRes (State × List (Nat × List Byte)) :=
  let (so, do_) := elemOffsets t (tplLoops t) 0 i
  (s.engSpan (g.part (2 * i + 1)) (parWord p 0 + BitVec.ofInt 64 so).toNat (2 ^ tplEsz t)).bind fun bs =>
    copyParts (g.part (2 * i + 2)) t p slotBase (standing i do_ (convertElem t bs) done) s

/-- What a copy has after the first of the elements that are left: not performed, performed, or failed (R225). -/
def CopyRun.skip (r : CopyRun) : CopyRun := { r with left := r.left.drop 1 }

def CopyRun.performed (r : CopyRun) (t : List Byte) (i : Nat) (ps : List (Nat × List Byte)) : CopyRun :=
  { r.skip with pieces := r.pieces ++ ps, done := (i, (elemOffsets t (tplLoops t) 0 i).2) :: r.done }

def CopyRun.fails (r : CopyRun) (i e : Nat) : CopyRun := { r.skip with err := e, fail := i }

/-- One step of a copy: its next element is performed, or passed over, as an element after the failing one may be; the
state and what the copy has then, or what the element needs first (R223, R225). -/
def State.copyStep (s : State) (g : Agent) (x : XferId) (t p : List Byte) (slotBase i : Nat) (r : CopyRun) :
    EngRes (State × CopyRun) :=
  let spare : Bool := decide (r.err ≠ 0) && decide (r.fail < i)
  if spare && !Config.laterWritten (copyKey x) i then .ok (s, r.skip)
  else
    match s.copyElem g t p slotBase i r.done with
    | .ok (s, ps) => .ok (s, r.performed t i ps)
    | .need m => if spare then .ok (s, r.skip) else .need m
    | .err e => .ok (s, if spare then r.skip else r.fails i e)

/-- Pieces that follow one another become one. -/
def joinRanges : List (Nat × List Byte) → List (Nat × List Byte)
  | [] => []
  | p :: t =>
    match joinRanges t with
    | [] => [p]
    | q :: r => if p.1 + p.2.length = q.1 then (p.1, p.2 ++ q.2) :: r else p :: q :: r

/-- The target that turned element `i` of a copy away, as it was read or as it was written (R306). -/
def State.elemRefused (s : State) (g : Agent) (t p : List Byte) (i : Nat) : Option Nat :=
  let (so, do_) := elemOffsets t (tplLoops t) 0 i
  match s.spanRefused g (parWord p 0 + BitVec.ofInt 64 so).toNat (2 ^ tplEsz t) .read with
  | some d => some d
  | none =>
    if tplKind t = 0 then s.spanRefused g (parWord p 1 + BitVec.ofInt 64 do_).toNat (tplOut t) .write else none

/-- The completion write, then the identifier (R223). -/
def State.finishCopy (s : State) (g : Agent) (x : XferId) (t p : List Byte) : State :=
  if !tplCw t then (s.engDone g).completeXfer x 0
  else
    match s.engStore g (parWord p 2).toNat (leBytes 8 (parWord p 3).toNat) with
    | .ok s => (s.engDone g).completeXfer x 0
    | .need n => s.engWait g (parWord p 2).toNat n (.copyComplete x)
    | .err e => ((s.engRefused g (s.lineRefused g (parWord p 2).toNat .write)).engDone g).completeXfer x e

/-- Another copy's slot of the buffer was gotten before this one's (R210). -/
def Core.slotEarlier (k : Core) (n base : Nat) : Bool :=
  let w := Map.get 0 k.cb n
  let oldest := (cbP w + cbSlots w - cbGot w % cbSlots w) % cbSlots w
  decide (base ≠ cbBase w + oldest * cbSize w)

/-- COPY_COMPLETE (R223). -/
def execCopyComplete (x : Machine.XferId) (s : State) : Outcome :=
  match s.findXfer x with
  | none => .next s
  | some t =>
    match t.kind with
    | .copy value _ par tpl base =>
      let ag := s.agent ⟨x.core, t.ctx⟩ x.ch x.id
      let n := (parWord par 1).toNat
      let written (s : State) : State :=
        s.setCore x.core ((s.core x.core).setKind x (.copy value false par tpl base))
      let isDone := match t.kind with
        | .copy _ started _ _ _ => !started
        | _ => false
      if isDone then .next (s.finishCopy ag x tpl par)
      else if tplKind tpl = 2 ∧ (s.core x.core).slotEarlier n base then .next (s.post (.copyComplete x))
      else
        let r := t.run
        match r.left with
        | i :: _ =>
          match s.copyStep ag x tpl par base i r with
          | .need m => .next (s.engWait ag (parWord par 0).toNat m (.copyComplete x))
          | .err e => .next ((s.engDone ag).completeXfer x e)
          | .ok (s, r) =>
            let s := (((s.usedElem ag tpl par i).engDone ag).setXfer x { t with run := r }).requested x.core
            .next (s.post (.copyComplete x))
        | [] =>
          let s := if tplKind tpl = 2 then
              (let k := s.core x.core
               s.setCore x.core { k with cb := Map.put 0 k.cb n (cbFill (Map.get 0 k.cb n)) })
            else s
          let s := if tplKind tpl = 3 then s.sendLanding x t.asid (parWord par 1) (joinRanges r.pieces) else s
          if r.err ≠ 0 then
            .next ((if r.err = 3 then s.engRefused ag (s.elemRefused ag tpl par r.fail) else s).completeXfer x r.err)
          else if tplKind tpl = 3 then .next ((written s).addAcc ⟨x.core, t.ctx⟩ ⟨t.seq, t.cls, 0, 0, .copyOut x⟩)
          else .next ((written s).finishCopy ag x tpl par)
    | _ => .next s

/-! ## Landing acknowledgements (R240, R241, R376) -/

/-- A landing transfer has landed whole. -/
def State.landed (s : State) (x : XferId) : State :=
  match s.findXfer x with
  | none => s
  | some t =>
    match t.kind with
    | .copy .. => s.post (.copyComplete x)
    | _ => s.completeXfer x 0

/-- LZACK (R376). A frozen address space sends no further packet (R362). -/
def execLzack (m : Machine.LzAck) (s : State) : Outcome :=
  match s.dev.lzSends.find? fun l => l.x = m.send with
  | none => .next s
  | some l =>
    let gone := (s.setDev { s.dev with lzSends := s.dev.lzSends.filter (· ≠ l) }).nextLanding l
    if m.status ≠ 0 then .next (gone.completeXfer m.send 6)
    else if l.base + l.pkts.length ≤ m.count then .next (gone.landed m.send)
    else
      let l' : LzSend := { l with
        acked := max l.acked m.count, since := if l.acked < m.count then s.dev.cycle else l.since }
      let s := s.setDev { s.dev with lzSends := s.dev.lzSends.map fun y => if y = l then l' else y }
      match (if handleNode l.handle = s.dev.node.toNat ∧ ¬ s.frozenCore m.send.core then l.pkts[m.count - l.base]?
        else none) with
      | some p => .next (s.post (.lzpkt p))
      | none => .next s

/-! ## The gather queue (R227, R228) -/

/-- GATHER_ROW_ARRIVE (R227). -/
def execGatherRowArrive (who : Machine.Who) (s : State) : Outcome :=
  let c := s.ctx who
  let again : Instr := .gatherRowArrive who
  match c.gqAddr with
  | .gather i table seq got :: rest =>
    let va := gqAddrOf table i
    let n := gqRow table
    let at_ := va + got.length
    let m := min (n - got.length) (128 - at_ % 128)
    if 16 ≤ c.gqData.length ∨ (got = [] ∧ c.mustWait false seq seq (gqClass table) va (va + n)) then .next (s.post again)
    else
      let ag := s.agent who 16 (BitVec.ofNat 32 seq)
      let finish (s : State) (row : GqRow) : State :=
        let s := s.engDone ag
        let c := s.ctx who
        s.setCtx who { c with
          gqAddr := rest, gqData := c.gqData ++ [row], acc := c.acc.filter fun a => a.kind ≠ .gather seq }
      match s.engSpan ag at_ m with
      | .ok bs =>
        let s := ((s.useSpan ag at_ m).forgetSpan who.core at_ m).requested who.core
        if m = n - got.length then .next (finish s ⟨i, table, got ++ bs, none⟩)
        else
          let s := s.engDone ag
          .next ((s.setCtx who { s.ctx who with gqAddr := .gather i table seq (got ++ bs) :: rest }).post again)
      | .need x => .next (s.engWait ag at_ x again)
      | .err e =>
        let s := if e = 4 then s.logCtx who 0x09 (if inWindow at_ then 4 else 5) else s
        .next (finish (s.logRefusedBy (s.spanRefused ag va n .read) ag.asid)
          ⟨i, table, [], some (s.rowFault ag va n e)⟩)
  | [] => .next s
  | _ => .next (if c.gqAddr.any (fun e => match e with
      | .gather .. => true
      | _ => false) then s.post again else s)

/-! ## Stores and transfers that wait in the M unit (R219, R270, R272, R280) -/

/-- A waiting op may be performed now. -/
def Ctx.mayPerform (c : Ctx) (h : Held) : Bool :=
  !c.mustWait (match h.op with
    | .write .. => true
    | _ => false) h.seq h.seq h.cls h.lo h.hi &&
  match h.op with
  | .write _ (some sc) => c.performed h.seq 0xFFFF sc.toNat
  | _ => true

/-- The parts of a store that a recipe tile's state forbids by the time they are made, and why (R288, R291). -/
def State.sealedParts (s : State) (w : Who) (ps : List Write) : List Write × List OpRes :=
  let why (p : Write) : Option OpRes := match p.pa with
    | some pa => if s.isRemote pa then none else s.recipeWrite w (s.key pa) p.va
    | none => none
  (ps.filter fun p => (why p).isNone, ps.filterMap why)

/-- A store that its context issued does not commit: a slice fails with it (R291), and elsewhere the fault is reported
where failed stores are (R288, R408, log entry 86). -/
def State.lateFault (s : State) (w : Who) (h : Held) (fs : List OpRes) : State :=
  match fs with
  | .trap c i :: _ =>
    let x := s.ctx w
    if x.slice.isSome then s.failSlice w cRFAIL 1 c.toNat none
    else s.setCtx w { x with storeFail := x.storeFail ++ [(h.seq, h.cls, c, i)] }
  | _ => s

/-- The words of an OWN that a recipe tile's state forbids by the time they are registered; its access waits for them
no longer. -/
def State.sealedWords (s : State) (w : Who) (ws : List (Nat × Nat × Bool)) : State × List (Nat × Nat × Bool) :=
  let bad := ws.filter fun x => (s.recipeWrite w x.1 x.2.1).isSome
  let c := bad.foldl (fun c x => dropAcc x.1 c) (s.ctx w)
  (s.setCtx w c, ws.filter fun x => x ∉ bad)

/-- Perform one waiting op, a store as far as the free registration entries allow (R254); none when nothing of
it can be made yet. -/
def State.performHeld (s : State) (w : Who) (h : Held) : Option State :=
  let c := s.ctx w
  let out := s.setCtx w { c with mq := c.mq.filter (· ≠ h) }
  let acc (x : XferId) : State := out.addAcc w ⟨h.seq, h.cls, h.lo, h.hi, (s.core w.core).accKind x⟩
  match h.op with
  | .write all release =>
    let (ps, faults) := s.sealedParts w all
    let out := out.lateFault w h faults
    let out := if release = some 3#2 then (s.core w.core).dirtyPs.foldl (fun s k => s.writeBack w.core k true) out
      else out
    match storeAll w h.seq h.cls ps out with
    | some s => some s
    | none =>
      let (t, rest) := storeSome w h.seq h.cls ps out
      if rest = ps ∧ faults.isEmpty then none
      else
        let left : Held := ⟨h.seq, h.cls, partsLo rest, partsHi rest, .write rest release⟩
        let c := t.ctx w
        some (t.setCtx w { c with mq := left :: c.mq })
  | .transfer x => some ((acc x).post (.transferComplete x))
  | .landing x => some ((acc x).post (.transferComplete x))
  | .aperture x => some ((acc x).post (.apertureStore x))
  | .own all =>
    let (out, ws) := out.sealedWords w all
    let (t, rest) := ownSome w ws out
    if rest = all then none
    else if rest.isEmpty then some t
    else
      let c := t.ctx w
      some (t.setCtx w { c with mq := { h with op := .own rest } :: c.mq })

/-- The lines of host memory that a context's words are written back to are asked for, where the bridge does not own
them (R372). -/
def State.askHostLines (s : State) (w : Who) : State :=
  ((s.ctx w).dirty.filter fun d => decide (2 ^ 52 ≤ d.word) && !s.hostOwned d.word).foldl (fun s d =>
    s.meetNeed (s.agent w 18 0) 0 (.hostLine (d.word / 128) true)) s

/-- HELD_STORE_PERFORM (R219). -/
def execHeldStorePerform (who : Machine.Who) (s : State) : Outcome :=
  let c := s.ctx who
  let s :=
    if c.wantsFlush && s.wet who && s.flushReady who then s.sysFlush who
    else
      let s := if c.wantsFlush then s.askHostLines who else s
      match c.mq.find? c.mayPerform with
      | none => s
      | some h =>
        match s.performHeld who h with
        | some t => t
        | none =>
          match h.op with
          | .write ps _ => (s.privateMisses who.core ps).foldl (fun s m => s.askFill who m.1 m.2) s
          | _ => s
  let c := s.ctx who
  .next (if c.mq.isEmpty && !(c.wantsFlush && s.wet who) then s else s.post (.heldStorePerform who))

end Sys2Proof.Machine
end

