-- ==== Sys2Proof/Machine/Walk.lean ====
section
/-! DEFINITION. Page walks end (R302 to R304, R343). -/

namespace Sys2Proof.Machine

/-- Bits of XLHOLD (R307). -/
def xlholdOf (va : Nat) (a : Access) : Dword :=
  let code := match a with
    | .fetch => 0
    | .read => 1
    | .write => 2
    | .atomic => 2
  BitVec.ofNat 64 (2 ^ 63 + code * 2 ^ 58 + va % 2 ^ 52)

/-- The slots of the bundle that a context waits to issue, and the captured operands of all its slots (R344). -/
def State.heldBundle (s : State) (w : Who) : Nat × List (Nat × List Nat) :=
  let c := s.ctx w
  let s' := s.setCur { core := w.core, ctx := w.ctx, replay := decide (c.replay ≠ 0) }
  match s'.myCore.fetch s'.isRegrow c.regs.pc with
  | .bundle _ ops _ _ => (((ops.filter fun o => s'.runs o.1).map fun o => 2 ^ o.1).sum, s'.captureAll ops)
  | _ => (0, [])

/-- A hold of a context begins (R304, R343). -/
def State.beginHold (s : State) (w : Who) (va : Nat) (a : Access) : State :=
  let (mask, capt) := s.heldBundle w
  let c := s.ctx w
  let s := s.setCtx w { c with
    hold := true, xlhold := xlholdOf va a, heldMask := BitVec.ofNat 11 mask, heldCapt := capt,
    waits := [], asked := [], replies := [] }
  let k := s.core w.core
  s.setCore w.core { k with port := if k.port = some w.ctx then none else k.port }

/-- A walk of a fetch for a packet that the context does not come to next: such a fetch is ahead of issue, and
starts no hold (R61). The packet at TRAPPC, whose bundle TRET looks at, is not fetched ahead (R341). -/
def Ctx.aheadFetch (c : Ctx) (x : Wait) : Bool := match x with
  | .walk va .fetch =>
    decide (va / 64 ≠ ((c.branch.map fun b => b.target).getD c.regs.pc.toNat) / 64) &&
      !(c.h && c.sv && decide (va / 64 = imgWord c.snap 3 / 64))
  | _ => false

/-- Answer every walk of the page that a context waits for. -/
def State.answerWalks (s : State) (v : Who) (va reason : Nat) : State :=
  (s.ctx v).asked.foldl (fun s x => if isWalk va x then s.answer v x [] reason else s) s

/-- The walk has failed: each engine that waits for it ends with the error of that (R225, R300, R303). -/
def State.enginesFail (s : State) (w : Walk) (prot : Bool) (reason : Nat) (die : Option Nat) : State :=
  let es := s.walkEngines w
  s.setDev { s.dev with engWalks := s.dev.engWalks.map fun e =>
    if e ∈ es then { e with fail := some (prot, reason, die) } else e }

/-- The walk met an svc entry: each context that waits for it holds, but for ctxS and launches without a hold
vector (R304). -/
def State.svcMet (s : State) (w : Walk) : State :=
  (s.walkWaiters w).foldl (fun s v =>
    let c := s.ctx v
    let first := c.asked.find? fun x => isWalk w.va x && !c.aheadFetch x
    match first with
    | some (.walk va a) =>
      if v.ctx = 4 ∨ (s.core v.core).binding.holdVec = 0 then s.answerWalks v w.va 1 else s.beginHold v va a
    | _ => s.answerWalks v w.va 1) s

/-- A failed walk answers every context that waits for it (R304, R305). -/
def State.walkFails (s : State) (w : Walk) (reason : Nat) : State :=
  (s.walkWaiters w).foldl (fun s v => s.answerWalks v w.va reason) s

/-- The contexts that wait for a walk translate afresh. -/
def State.walkAgain (s : State) (w : Walk) : State :=
  (s.walkWaiters w).foldl (fun s v => s.unask v (isWalk w.va)) s

/-- A walk has found a leaf: it is installed at every core that waits for it (R303, R304). -/
def State.walkFound (s : State) (w : Walk) (e : TlbEntry) : State :=
  let es := s.walkEngines w
  let cores := ((s.walkWaiters w).map (·.core) ++ es.map (·.id.core)).eraseDups
  let s := cores.foldl (fun s m => s.installLeaf m e) s
  (s.setDev { s.dev with engWalks := s.dev.engWalks.filter fun e => decide (e ∉ es) }).walkAgain w

/-- WALK_COMPLETE (R304). An uncorrectable entry of a table that several address spaces share freezes them (R362). -/
def execWalkComplete (w : Machine.Walk) (s : State) : Outcome :=
  let core := w.who.core
  let pod := corePod core
  let ag : Agent := ⟨core, w.who.ctx, w.asid, ⟨core, 18, BitVec.ofNat 32 (w.va / 65536)⟩⟩
  let done (s : State) : Outcome := .next ((s.engDone ag).startWalks pod 4)
  if w ∈ s.dev.walks then
    done ((s.setDev { s.dev with walks := s.dev.walks.filter (· ≠ w) }).walkAgain w)
  else if (s.walkWaiters w).isEmpty && (s.walkEngines w).isEmpty then done s
  else
    match s.walk ag w.va with
    | .leaf e => done (s.walkFound w e)
    | .svc => done ((s.enginesFail w false 1 none).svcMet w)
    | .bad r =>
      let s := if r = 4 then s.log (coreDie core) 0x09 w.asid core w.who.ctx 5 else s
      let as := if r = 4 then s.sharedWalk ag w.va else []
      done (((s.enginesFail w false r none).walkFails w r).freezeAll as)
    | .refused die =>
      if (s.walkWaiters w).isEmpty then done (s.enginesFail w true 2 die)
      else done (((s.logRefusedBy die w.asid).enginesFail w true 2 none).walkFails w 0x102)
    | .need n => .next (s.engWait ag w.va n (.walkComplete w))

end Sys2Proof.Machine
end

