-- ==== Sys2Proof/Machine/Native.lean ====
section
/-! DEFINITION. The native flows between devices (R308, R374, R376, R408). -/

namespace Sys2Proof.Machine

/-! ## Requests from other devices -/

/-- The agent that serves another device's request: no core of this one. -/
def NatMsg.agent (m : NatMsg) : Agent := ⟨1022, 0, m.asid.toNat, ⟨1022, 18, BitVec.ofNat 32 m.tag.toNat⟩⟩

/-- Send an answer to another device (R376). -/
def State.natReply (s : State) (m : NatMsg) (kind status : Nat) (data : List Byte) : State :=
  s.setDev { s.dev with sent := s.dev.sent ++ [⟨BitVec.ofNat 8 kind, s.dev.node, m.src, m.asid, m.tag, 0, m.pa,
    BitVec.ofNat 12 status, data⟩] }

/-- Why a request for `n` bytes at the message's address fails before it reaches memory, 0 for no reason:
malformed or unpopulated 3, access table 1 (R376). -/
def State.natCheck (s : State) (m : NatMsg) (n : Nat) (bad : Bool) (rights : List Nat) : Nat :=
  let k := m.pa.toNat
  if bad || decide (m.rsv ≠ 0) || decide (128 < k % 128 + n) then 3
  else if !(s.populated k) && !(isAgent k) then 3
  else if (s.refusedBy m.src.toNat m.asid.toNat k rights).isSome then 1
  else 0

/-- A refusal is recorded in the black box of the target's die (R306). -/
def State.natRefuse (s : State) (m : NatMsg) (kind status : Nat) : State :=
  let s := if status = 1 then s.logRefusal (homeDie m.pa.toNat) m.asid.toNat else s
  s.natReply m kind status []

/-- Bytes that RD and WR name. -/
def NatMsg.size (m : NatMsg) : Nat := m.aux.toNat % 128 + 1

/-- A recipe tile that is not there answers another device as unpopulated (log entry 35). -/
def State.natAbsent (s : State) (k : Nat) : Bool :=
  match s.tileAt k with
  | some r => decide (r.st ≠ .declared) && decide (r.st ≠ .sealed)
  | none => false

/-- A request waits at its home. -/
def State.holdNative (s : State) (m : NatMsg) : State :=
  s.setDev { s.dev with natHeld := s.dev.natHeld ++ [m] }

/-- A request waits for what the home needs. -/
def State.waitNative (s : State) (m : NatMsg) (n : Need) : State := (s.meetNeed m.agent 0 n).holdNative m

/-- RD (R376). -/
def execRd (m : Machine.NatMsg) (s : State) : Outcome :=
  let k := m.pa.toNat
  let n := m.size
  match s.natCheck m n (decide (128 ≤ m.aux.toNat) || !m.data.isEmpty) [0] with
  | 0 =>
    if isAgent k then .next (s.natReply m 2 0 (s.agentRead k n))
    else if s.natAbsent k then .next (s.natReply m 2 3 [])
    else
      match s.engBytes m.agent k n with
      | .ok bs => .next ((s.engDone m.agent).natReply m 2 0 bs)
      | .need x => .next (s.waitNative m x)
      | .err _ => .next ((s.engDone m.agent).natReply m 2 (s.homeStatus k n) [])
  | st => .next (s.natRefuse m 2 st)

/-- WR (R376). -/
def execWr (m : Machine.NatMsg) (s : State) : Outcome :=
  let k := m.pa.toNat
  let n := m.size
  let bs := m.data.take n
  match s.natCheck m n (decide (128 ≤ m.aux.toNat) || decide (m.data.length < n)) (rightsOf .write k) with
  | 0 =>
    if isAgent k then
      let st : ApStore := ⟨if k < 2 ^ 43 then k % 4096 else k - 2 ^ 43, bs, m.src.toNat, m.asid.toNat, false⟩
      .next ((s.post (if k < 2 ^ 43 then .windowStore ((k - 2 ^ 39) / 4096) st else .mailboxStore st)).natReply m 4 0 [])
    else
      match s.engPut m.agent k bs with
      | .ok s => .next ((s.engDone m.agent).natReply m 4 0 [])
      | .need x => .next (s.waitNative m x)
      | .err 3 => .next ((s.engDone m.agent).natReply m 4 1 [])
      | .err _ => .next ((s.engDone m.agent).natReply m 4 (s.homeStatus k n) [])
  | st => .next (s.natRefuse m 4 st)

/-- The operation that the bits of a native ATOM name; none for a reserved pattern (R376). -/
def natAtom (aux : BitVec 12) : Option AtomOp :=
  let a := aux.toNat
  if 64 ≤ a ∨ (a / 8 % 4 ≠ 0 ∧ a % 8 ≠ 0) ∨ a / 8 % 4 = 3 then none
  else if a / 8 % 4 = 1 then some .swap
  else if a / 8 % 4 = 2 then some .cas
  else some (atomOf (BitVec.ofNat 3 a))

/-- Every owner's word of an operand comes back to the home (R257); none while one cannot yet. -/
def takeBackAll : List Nat → State → Option State
  | [], s => some s
  | k :: t, s =>
    match s.ownerOf k with
    | none => takeBackAll t s
    | some o =>
      if ((s.core o.agent).word k).st = .O then takeBackAll t (s.takeBack k o.agent) else none

/-- ATOM_MSG (R376). -/
def execAtomMsg (m : Machine.NatMsg) (s : State) : Outcome :=
  let k := m.pa.toNat
  let wide := decide (m.aux.toNat / 32 % 2 = 1)
  let n := if wide then 8 else 4
  match natAtom m.aux with
  | none => .next (s.natRefuse m 6 3)
  | some op =>
    match s.natCheck m n (isAgent k || decide (k % n ≠ 0) || decide (m.data.length < 16)) [0, 1] with
    | 0 =>
      if (s.tileAt k).any fun r => decide (r.st ≠ .declared) then .next (s.natReply m 6 1 [])
      else if s.hostBias k && !s.dev.answered (k / 64) true then .next (s.waitNative m (.snoop (k / 64) true))
      else
        match s.engBytes m.agent k n with
        | .need x => .next (s.waitNative m x)
        | .err _ => .next ((s.engDone m.agent).natReply m 6 (s.homeStatus k n) [])
        | .ok _ =>
          match takeBackAll (opWords k wide) s with
          | none => .next (s.holdNative m)
          | some s =>
            let old := s.opValue k wide
            let arg (i : Nat) : Nat := leNat ((m.data.drop (8 * i)).take n)
            let s := match atomNew op (8 * n) old (arg 0) (arg 1) with
              | some x => s.opWrite k wide x
              | none => s
            .next ((s.engDone m.agent).natReply m 6 0 (leBytes n old))
    | st => .next (s.natRefuse m 6 st)

/-- TLBINV_MSG (R376). -/
def execTlbinvMsg (m : Machine.NatMsg) (s : State) : Outcome :=
  let asid := m.pa.toNat % 2 ^ 16
  let w : Who := ⟨1022, m.src.toNat⟩
  if m.rsv ≠ 0 ∨ m.aux ≠ 0 ∨ 2 ^ 16 ≤ m.pa.toNat ∨ !m.data.isEmpty then .next (s.natReply m 0x0D 3 [])
  else
  match s.dev.tlbWaits.find? fun t => decide (t.who = w) && decide (t.slot = m.tag.toNat) with
  | none =>
    let t := s.startDrop w m.tag.toNat asid [] fun _ => true
    if t.dropDone (t.dropWait w m.tag.toNat) then .next ((t.endDrop w m.tag.toNat).natReply m 0x0D 0 [])
    else .next (t.holdNative m)
  | some d =>
    .next (if s.dropDone d then (s.endDrop w m.tag.toNat).natReply m 0x0D 0 [] else s.holdNative m)

/-! ## Answers from other devices (R408) -/

/-- The cause and TRAPINFO that a failed store leaves. -/
def storeFault (status va pa : Nat) : Byte × Dword :=
  if status = 1 then (cPROT, addrInfo 2 va)
  else if status = 2 then (cSEGERR, BitVec.ofNat 64 (5 * 2 ^ 52 + pa % 2 ^ 52))
  else if status = 4 then (cOWNLOST, BitVec.ofNat 64 (pa % 2 ^ 52))
  else (cDATAF, addrInfo 3 va)

/-- The requester's black box has its record of a refusal by another device's table elsewhere: a store's in R408, a
transfer's as it ends. -/
def NatReq.recorded (r : NatReq) : Bool :=
  r.wait.isNone && (match r.engine with
    | some id => decide (id.ch % 32 < 16)
    | none => true)

/-- A request is answered with a status and bytes: to the op or the engine that made it, or, for a store, in
its context's account (R306, R408). -/
def State.natDone (s : State) (r : NatReq) (status : Nat) (bs : List Byte) : State :=
  let s := s.setDev { s.dev with natReqs := s.dev.natReqs.filter (· ≠ r) }
  let s := if status = 1 && !r.recorded then s.logCtx r.who 0x0F 2 else s
  match r.wait, r.engine with
  | some x, _ => s.answer r.who x bs status
  | none, some id => s.setDev { s.dev with natGot := s.dev.natGot ++ [(id, r.pa, status, bs)] }
  | none, none =>
    let c := s.ctx r.who
    let c := { c with acc := c.acc.filter fun a => a.kind ≠ .native r.tag ∨ a.seq ≠ r.seq }
    if status = 0 then s.setCtx r.who c
    else
      let f := storeFault status r.va r.pa
      (s.setCtx r.who { c with storeFail := c.storeFail ++ [(r.seq, r.cls, f.1, f.2)] }).logCtx r.who
        (if status = 2 then 0x09 else 0x0F) status

/-- The outstanding request of a kind that an answer belongs to. -/
def State.natRequest (s : State) (m : NatMsg) (kind : Nat) : Option NatReq :=
  s.dev.natReqs.find? fun r => decide (r.tag = m.tag.toNat) && decide (r.dst = m.src.toNat) && decide (r.kind = kind)

/-- An answer that nothing asked for, or a malformed one, is dropped and recorded (R376). -/
def State.natStray (s : State) (m : NatMsg) : State := s.log 0 0x11 m.asid.toNat 1023 7 m.kind.toNat

/-- The message is not taken: no port carries native flows before NODE is set, it is for another node, or it is of a kind
that Ethernet does not carry (R375, R376). -/
def State.natDropped (s : State) (m : NatMsg) : Bool :=
  let eth := decide ((Map.get {} s.dev.routes m.src.toNat).kind = 1#2)
  !s.dev.nodeSet || decide (m.dst ≠ s.dev.node) || (eth && (decide (m.kind.toNat < 7) || decide (11 < m.kind.toNat)))

/-- Take an answer. -/
def State.natAnswered (s : State) (m : NatMsg) (kind n : Nat) : State :=
  match s.natRequest m kind with
  | none => s.natStray m
  | some r =>
    let st := m.aux.toNat
    if m.rsv ≠ 0 ∨ 5 ≤ st ∨ (st = 0 ∧ m.data.length < min n r.len) then s.natStray m
    else s.natDone r st m.data

/-- RDRSP (R408). -/
def execRdrsp (m : Machine.NatMsg) (s : State) : Outcome :=
  .next (s.natAnswered m 1 128)

/-- WRACK (R408). -/
def execWrack (m : Machine.NatMsg) (s : State) : Outcome :=
  .next (s.natAnswered m 3 0)

/-- ATOMRSP (R408). -/
def execAtomrsp (m : Machine.NatMsg) (s : State) : Outcome :=
  .next (s.natAnswered m 5 8)

/-- TLBACK (R308). -/
def execTlback (m : Machine.NatMsg) (s : State) : Outcome :=
  let ack := (m.src.toNat, m.tag.toNat)
  match (if m.rsv ≠ 0 ∨ m.aux ≠ 0 ∨ !m.data.isEmpty then none else s.dev.tlbWaits.find? fun w => decide (ack ∈ w.acks)) with
  | none => .next (s.natStray m)
  | some w =>
    let w' : TlbWait := { w with acks := w.acks.filter (· ≠ ack) }
    if w.who.core = 1023 ∧ w'.acks.isEmpty then .next (s.setDev { s.dev with tlbWaits := s.dev.tlbWaits.erase w })
    else
      .next ((s.setDev { s.dev with tlbWaits := s.dev.tlbWaits.map fun x => if x = w then w' else x }).settleDrop w.who)

/-- NATIVE_REQUEST_TIMEOUT (R376). -/
def execNativeRequestTimeout (tag : Nat) (s : State) : Outcome :=
  match s.dev.natReqs.find? fun r => decide (r.tag = tag) && decide (125000 ≤ (s.dev.cycle - r.sent).toNat) with
  | none => .next s
  | some r => .next (s.natDone r 3 [])

/-- UNLISTED_MESSAGE (R376). -/
def execUnlistedMessage (m : Machine.NatMsg) (s : State) : Outcome :=
  .next (s.natStray m)

end Sys2Proof.Machine
end

