-- ==== Sys2Proof/Machine/HostPort.lean ====
section
/-! DEFINITION. What hosts do: reads and writes of device memory, snoops, and the answers to the bridge's own
requests (R264, R367 to R372). -/

namespace Sys2Proof.Machine

/-- The words of a 64-byte half, by key. -/
def halfWords (half : Nat) : List Nat := (List.range 16).map fun i => half * 64 + 4 * i

/-- The port that a host's answers stand under, and the port of snoop answers. -/
def hostPort (host : Nat) : Nat := 0x1000 + host
def snoopPort : Nat := 0x2000

/-- An answer to a host: the half and its 64 bytes. -/
def State.answerHost (s : State) (port half : Nat) (bs : List Byte) : State :=
  let ws := (List.range 8).map fun i => BitVec.ofNat 64 (leNat ((bs.drop (8 * i)).take 8))
  s.setDev { s.dev with answers := s.dev.answers ++ [(port, BitVec.ofNat 64 half :: ws)] }

/-- What a host reads of a word: the spec states no value of a word that is LOST or uncorrectable, so that value is free
(log entry 96). -/
def State.hostWord (s : State) (k : Nat) : Word :=
  let lost : Bool := match s.ownerOf k with
    | some o => decide (o.agent = ownLost)
    | none => false
  if lost || decide (k ∈ s.dev.badMem) then Config.hostLost s.tick k else s.wordAt k

/-- A half as a host reads it at its home. -/
def State.halfBytes (s : State) (half : Nat) : List Byte :=
  (halfWords half).flatMap fun k => leBytes 4 (s.hostWord k).toNat

/-- Every uncorrectable word that a host's read meets is recorded (R355). -/
def State.noteBadHalf (s : State) (half : Nat) : State :=
  ((halfWords half).filter fun k => decide (k ∈ s.dev.badMem)).foldl (fun s k => s.log (homeDie k) 0x09 0 1023 7 5) s

/-- The range that holds a half belongs to the host; otherwise the request is refused and recorded (R368). -/
def State.ofHost (s : State) (m : HostReq) : Bool :=
  match s.hostRangeAt (m.half * 64) with
  | some r => decide (r.host = m.host)
  | none => false

/-- The node under which a host's requests meet the access tables, with ASID 0 (log entry 85). -/
def hostNode (m : HostReq) : Nat := m.host.toNat % 256

/-- The die of the target whose access table turns a host's request away (R306). -/
def State.hostRefused (s : State) (m : HostReq) (r : Nat) : Option Nat :=
  s.refusedBy (hostNode m) 0 (m.half * 64) [r]

def State.refuseHost (s : State) (m : HostReq) : State := s.log (homeDie (m.half * 64)) 0x0F 0 1023 7 2

/-- The half's words come back from the cores that own them (R253): none while one is on its way. -/
def claimHalf : List Nat → State → Option State
  | [], s => some s
  | k :: t, s =>
    if s.inTransit k then none
    else
      match s.ownerOf k with
      | none => claimHalf t s
      | some o =>
        if o.agent = ownBridge ∨ o.agent = ownLost then claimHalf t s
        else if ((s.core o.agent).word k).st = .O then claimHalf t (s.takeBack k o.agent)
        else none

/-- Register a half's words to the bridge (R264, R369); a LOST word stays LOST unless it is written. -/
def State.registerHalf (s : State) (half : Nat) (written : Bool) : State :=
  (halfWords half).foldl (fun s k =>
    match s.ownerOf k with
    | some o =>
      if o.agent = ownBridge ∨ (o.agent = ownLost ∧ ¬ written) then s
      else
        let (s, gr) := (s.recall k).bumpGrant k
        (s.setOwner k (some ⟨ownBridge, tagOf gr⟩)).log (homeDie k) 0x10 0 1023 7 1
    | none =>
      let (s, gr) := (s.recall k).bumpGrant k
      s.setOwner k (some ⟨ownBridge, tagOf gr⟩)) s

/-- Put 64 bytes at a half's home: each of its words is whole again. -/
def State.putHalf (s : State) (half : Nat) (bs : List Byte) : State :=
  let s := s.setDev { s.dev with badMem := s.dev.badMem.filter fun k => decide (k ∉ halfWords half) }
  (halfWords half).zipIdx.foldl (fun s p =>
    s.putWord p.1 (BitVec.ofNat 32 (leNat ((bs.drop (4 * p.2)).take 4)))) s

/-- A host's write under host bias is a bypassing write of the whole half: LOST words are fresh, which their homes record
(R257, R260). -/
def State.freshHalf (s : State) (half : Nat) : State :=
  (halfWords half).foldl (fun s k =>
    let lost : Bool := match s.ownerOf k with
      | some o => decide (o.agent = ownLost)
      | none => false
    let (s, _) := (s.recall k).bumpGrant k
    let s := s.setOwner k none
    if lost then s.log (homeDie k) 0x10 0 1023 7 1 else s) s

/-- A host's request waits at the bridge. -/
def State.holdHost (s : State) (write : Bool) (m : HostReq) : State :=
  s.setDev { s.dev with hostHeld := s.dev.hostHeld ++ [(write, m)] }

/-- A private page that a host touches is reclassified first (R261). -/
def State.hostUnpriv (s : State) (p o : Nat) : State := s.meetNeed (s.agent ⟨1022, 0⟩ 18 0) 0 (.unpriv p o)

/-- Every port of the host is down, so that nothing of it arrives (R367). -/
def State.hostDown (s : State) (m : HostReq) : Bool :=
  let ports := s.dev.pbr.filter fun p => decide (p.2 = m.host)
  !ports.isEmpty && ports.all fun p => decide (p.1 ∈ s.dev.portsDown)

/-- A host's request at the agent apertures (R309, R373): a read returns the bytes that stand there, a write goes on as a
store, and a request that would cache a window line is refused and recorded. -/
def State.hostAperture (s : State) (m : HostReq) (write : Bool) : State :=
  let k := m.half * 64
  let q := (k - 2 ^ 39) / 4096
  let refused := s.hostRefused m 0
  let st : ApStore := ⟨if k < 2 ^ 43 then k % 4096 else k - 2 ^ 43, m.data.take 64, hostNode m, 0, m.cache⟩
  if write then s.post (if k < 2 ^ 43 then .windowStore q st else .mailboxStore st)
  else if refused.isSome then s.logRefusedBy refused 0
  else if m.cache then s.log 0 0x12 0 1023 7 q
  else s.answerHost (hostPort m.host.toNat) m.half (s.agentRead k 64)

/-- HOST_READ (R369). -/
def execHostRead (m : Machine.HostReq) (s : State) : Outcome :=
  let k := m.half * 64
  let refused := s.hostRefused m 0
  if s.hostDown m then .next s
  else if isAgent k then .next (s.hostAperture m false)
  else if !s.ofHost m then .next (s.refuseHost m)
  else if refused.isSome then .next (s.logRefusedBy refused 0)
  else if s.flipping k then .next (s.holdHost false m)
  else if s.hostBias k then .next ((s.noteBadHalf m.half).answerHost (hostPort m.host.toNat) m.half (s.halfBytes m.half))
  else
    match s.privAt k with
    | some (p, o) => .next ((s.hostUnpriv p o).holdHost false m)
    | none =>
      match claimHalf (halfWords m.half) s with
      | none => .next (s.holdHost false m)
      | some s =>
        let s := s.registerHalf m.half false
        .next ((s.noteBadHalf m.half).answerHost (hostPort m.host.toNat) m.half (s.halfBytes m.half))

/-- HOST_WRITE (R369). -/
def execHostWrite (m : Machine.HostReq) (s : State) : Outcome :=
  let k := m.half * 64
  let bs := m.data.take 64 ++ List.replicate (64 - m.data.length) 0
  let refused := s.hostRefused m 1
  if s.hostDown m then .next s
  else if isAgent k then .next (s.hostAperture m true)
  else if !s.ofHost m then .next (s.refuseHost m)
  else if refused.isSome then .next (s.logRefusedBy refused 0)
  else if s.flipping k then .next (s.holdHost true m)
  else if s.hostBias k then
    .next ((s.freshHalf m.half).putHalf m.half bs)
  else
    match s.privAt k with
    | some (p, o) => .next ((s.hostUnpriv p o).holdHost true m)
    | none =>
      match claimHalf (halfWords m.half) s with
      | none => .next (s.holdHost true m)
      | some s => .next ((s.registerHalf m.half true).putHalf m.half bs)

/-! ## Host memory (R372) -/

/-- The key of a half of host memory. -/
def hostKey (half : Nat) : Nat := half * 64 + 2 ^ 52

/-- HOST_SNOOP (R372). -/
def execHostSnoop (half : Nat) (take : Bool) (s : State) : Outcome :=
  let line := hostKey half / 128
  match Map.get none s.dev.hostLines line with
  | none => .next (s.answerHost snoopPort half [])
  | some l =>
    let s := s.answerHost snoopPort half ((l.bytes.drop (hostKey half % 128)).take 64)
    .next (if take then s.setDev { s.dev with hostLines := Map.put none s.dev.hostLines line none } else s)

/-- CXL_CACHE_RESPONSE (R372). -/
def execCxlCacheResponse (line : Nat) (owned : Bool) (bytes : List Byte) (s : State) : Outcome :=
  let asked := (line, false) ∈ s.dev.hostAsk ∨ (line, true) ∈ s.dev.hostAsk
  if !asked then .next s
  else
    let l : HostLine := match Map.get none s.dev.hostLines line with
      | some l => if l.owned then l else ⟨owned, bytes.take 128⟩
      | none => ⟨owned, bytes.take 128⟩
    .next (s.setDev { s.dev with
      hostLines := Map.put none s.dev.hostLines line (some l),
      hostAsk := s.dev.hostAsk.filter fun a => decide (a.1 ≠ line) || (a.2 && !owned) })

/-! ## Back-invalidates (R370) -/

/-- The grant number under which the bridge holds a word: the latest that has its tag. -/
def State.bridgeGrant (s : State) (k : Nat) (tag : BitVec 22) : Word :=
  let g := s.grantOf k
  g - ((tagOf g - tag).setWidth 32)

/-- The tag under which the bridge holds a word: its registration's, or that of a revoke which the bridge has yet to
serve; none when it holds the word no more (R258, R264). -/
def State.bridgeTag (s : State) (k : Nat) : Option (BitVec 22) :=
  let revoked (i : Instr) : Option (BitVec 22) := match i with
    | .revoke m => if m.word = k ∧ m.owner = ownBridge then some m.tag else none
    | _ => none
  match s.ownerOf k with
  | some o => if o.agent = ownBridge then some o.tag else
    (s.dev.bisnp.filterMap (·.serve) ++ s.pending).findSome? revoked
  | none => (s.dev.bisnp.filterMap (·.serve) ++ s.pending).findSome? revoked

/-- The bridge serves one message as an owner would; `word` gives its value, none when it is LOST. -/
def State.serveBridge (s : State) (word : Nat → Option Word) (i : Instr) : State :=
  match i with
  | .revoke m =>
    if !m.forward then s
    else
      match word m.word with
      | some d => s.post (.fdata ⟨m.word, m.dest, d, m.tag, false⟩)
      | none => s.revokeLost m
  | .fwd m =>
    match s.bridgeTag m.read.word with
    | none => s.post (.retry m.read)
    | some tag =>
      match word m.read.word with
      | some d => s.post (.data ⟨m.read, d, s.bridgeGrant m.read.word tag⟩)
      | none => s.post (.lostReply (.read m.read))
  | _ => s

/-- A revoke of a word has yet to reach the bridge: its new owner gets what the host gave (R253, R264). -/
def State.bridgeOwes (s : State) (k : Nat) : Bool :=
  s.pending.any fun i => match i with
    | .revoke m => decide (m.word = k) && decide (m.owner = ownBridge)
    | _ => false

/-- A flip asked for the half itself (R371). -/
def BiSnp.ofFlip (b : BiSnp) : Bool := match b.serve with
  | some (.biasFlipEnd _) => true
  | _ => false

/-- The asks for a half are answered: a flip's own counts for the flip, one that a request made stands for that request. -/
def State.snoopAnswered (s : State) (half : Nat) (asks : List BiSnp) : State :=
  let flip (f : Flip) : Flip :=
    if asks.any BiSnp.ofFlip && decide (f.page / 64 ≤ half) && decide (half < f.page / 64 + 64) then
      { f with acked := half :: f.acked } else f
  s.setDev { s.dev with
    bisnp := s.dev.bisnp.filter fun b => b.half ≠ half,
    flips := s.dev.flips.map flip,
    snooped := (asks.filter (·.serve.isNone)).map (fun b => (half, b.inv)) ++ s.dev.snooped }

/-- What the bridge keeps of a word. -/
def State.keepHeld (s : State) (k : Nat) (d : Option Word) : State :=
  s.setDev { s.dev with bridgeHeld := Map.put none s.dev.bridgeHeld k d }

/-- BISNP_RESPONSE (R370). -/
def execBisnpResponse (half : Nat) (dirty : Option (List Byte)) (s : State) : Outcome :=
  let asks := s.dev.bisnp.filter fun b => b.half = half
  if asks.isEmpty then .next s
  else
    let value (k : Nat) : Option Word := match dirty, Map.get none s.dev.bridgeHeld k with
      | some bs, _ => some (BitVec.ofNat 32 (leNat ((bs.drop (k - half * 64)).take 4)))
      | none, some d => some d
      | none, none => some (s.wordAt k)
    let t := asks.foldl (fun t b => match b.serve with
      | some i => t.serveBridge value i
      | none => t) s
    let t := (halfWords half).foldl (fun t k =>
      match t.ownerOf k with
      | some o => if o.agent = ownBridge then (t.putWord k ((value k).getD 0)).setOwner k none else t
      | none => if t.hostBias k then t.putWord k ((value k).getD 0) else t) t
    let t := (halfWords half).foldl (fun t k => t.keepHeld k (if s.bridgeOwes k then value k else none)) t
    .next (t.snoopAnswered half asks)

/-- The port that the host link's error report stands under (R370). -/
def errorPort (host : Nat) : Nat := 0x5000 + host

/-- HOST_SNOOP_TIMEOUT (R370). The host link reports it to the range's host. -/
def execHostSnoopTimeout (half : Nat) (s : State) : Outcome :=
  let asks := s.dev.bisnp.filter fun b => b.half = half
  if asks.all fun b => decide ((s.dev.cycle - b.sent).toNat < 125000) then .next s
  else
    let t := asks.foldl (fun t b => match b.serve with
      | some i => t.serveBridge (fun _ => none) i
      | none => t) s
    let t := (halfWords half).foldl (fun t k =>
      let lose : Bool := match t.ownerOf k with
        | some o => decide (o.agent = ownBridge)
        | none => t.hostBias k
      if lose then t.setOwner k (some ⟨ownLost, 0⟩) else t) t
    let t := t.log (homeDie (half * 64)) 0x10 0 1023 7 0
    let t := match t.hostRangeAt (half * 64) with
      | some r => t.answerHost (errorPort r.host.toNat) half []
      | none => t
    .next (t.snoopAnswered half asks)

end Sys2Proof.Machine
end

