-- ==== Sys2Proof/Machine/Work.lean ====
section
/-! DEFINITION. Launch windows, the dispatcher's judgement of a record, completion, and binds (R309 to R317,
R325, R326). -/

namespace Sys2Proof.Machine

/-! ## The record (R311, R312) -/

/-- A field of `n` bytes at an offset. -/
def recField (bs : List Byte) (o n : Nat) : Nat := leNat ((bs.drop o).take n)

/-- The record as the dispatcher parses it (R311). -/
def parseRecord (bs : List Byte) : LaunchRec := {
  image := recField bs 0x00 8, n := recField bs 0x08 4, c := recField bs 0x0C 2,
  flags := BitVec.ofNat 16 (recField bs 0x0E 2), args := BitVec.ofNat 64 (recField bs 0x10 8),
  prio := recField bs 0x18 2, rclass := recField bs 0x1A 2, maxSteps := recField bs 0x1C 4,
  levels := (List.range 8).map fun i => BitVec.ofNat 64 (recField bs (0x20 + 8 * i) 8),
  pb1 := recField bs 0x60 4, pb2 := recField bs 0x64 4, pb3 := recField bs 0x68 4, w := recField bs 0x6C 4,
  trapVec := recField bs 0x70 4, holdVec := recField bs 0x74 4, tt := recField bs 0x78 8,
  compAddr := recField bs 0x80 8, compVal := BitVec.ofNat 64 (recField bs 0x88 8),
  zeros := ((bs.drop 0x90).take 0x6F).all fun b => decide (b = 0) }

/-- Bytes of the dictionary with its padding, and of dictionary and constants together (R33). -/
def LaunchRec.dictSize (rc : LaunchRec) : Nat := (48 * rc.n + 63) / 64 * 64
def LaunchRec.size (rc : LaunchRec) : Nat := rc.dictSize + 8 * rc.c

/-- The image offset of the code (R33). -/
def LaunchRec.codeAt (rc : LaunchRec) : Nat := (rc.size + 63) / 64 * 64

/-- Image address, N and C (R34). -/
def LaunchRec.imageOk (rc : LaunchRec) : Bool :=
  decide (1 ≤ rc.n) && decide (rc.n ≤ 2048) && decide (rc.image % 64 = 0) && decide (rc.size ≤ 2 ^ 21 - rc.pb3)

/-- Pool boundaries (R196). -/
def LaunchRec.poolOk (rc : LaunchRec) : Bool :=
  decide (rc.pb1 % 16384 = 0) && decide (rc.pb2 % 16384 = 0) && decide (rc.pb3 % 16384 = 0) &&
    decide (16384 ≤ rc.pb1) && decide (rc.pb1 < rc.pb2) && decide (rc.pb2 < rc.pb3) && decide (rc.pb3 < 2 ^ 21) &&
    decide (131072 ≤ rc.pb3 - rc.pb2) && decide (2 ^ 21 - rc.pb3 ≤ 196608)

/-- Contexts in an instance of a domain (R2, R9, R93, R312), `pod` cores of each pod taking strands; a fabric partition
as this device's part of it. -/
def domainSize (cap pod dies : Nat) (d : Nat) : Nat :=
  if d = 0 then 1 else if d = 1 then cap else if d = 2 then pod * cap else if d = 3 then 9 * pod * cap
  else dies * 9 * pod * cap

/-- A scope contains a domain (R312). -/
def scopeHolds (scope dom : Nat) : Bool :=
  decide ((if dom ≤ 1 then 0 else if dom = 2 then 1 else if dom ≤ 4 then 2 else 3) ≤ scope)

/-- Each level by itself and against the one below: zero bits, domain, count, scope (R312). -/
def levelsPlain : List Dword → Nat → Bool
  | [], _ => true
  | e :: t, below =>
    decide (bitsOf e 63 31 = 0) && decide (lvDomain e ≤ 5) && decide (below ≤ lvDomain e) &&
      (decide (lvDomain e ≠ 0) || decide (lvCount e = 1)) && scopeHolds (lvScope e).toNat (lvDomain e) &&
      levelsPlain t (lvDomain e)

/-- Every gang group fits its domain (R312): `fit` is how many groups of the level below an instance of its
domain holds at once. -/
def gangsFit (cap pod dies : Nat) (all : Bool) : List Dword → Nat → Nat → Bool
  | [], _, _ => true
  | e :: t, below, fit =>
    let fit := fit * (domainSize cap pod dies (lvDomain e) / domainSize cap pod dies below)
    (!(all || lvGang e) || decide (lvCount e ≤ fit)) && gangsFit cap pod dies all t (lvDomain e) (fit / lvCount e)

/-- Groups of level `n` in the launch. -/
def groupsAt (ls : List Dword) (n : Nat) : Nat := (ls.drop (n + 1)).foldl (fun a d => a * lvCount d) 1

/-- The outermost groups of a domain are no more than the part has instances of it (R2, R312). -/
def domainFits (ls : List Dword) (d have_ : Nat) : Bool :=
  match ((List.range ls.length).filter fun n => lvDomain (ls.getD n 0) = d).getLast? with
  | some n => decide (groupsAt ls n ≤ have_)
  | none => true

/-- Level entries (R312). In a twin-protected launch only the leader of each pair takes strands (R361). -/
def LaunchRec.levelsOk (rc : LaunchRec) (dies : Nat) : Bool :=
  let ls := levelsOf rc
  let pod := if rc.flags.getLsbD 2 then 8 else 16
  let cap := if rc.flags.getLsbD 0 then 3 else 4
  !ls.isEmpty && (rc.levels.drop ls.length).all (fun d => decide (d = 0)) && levelsPlain ls 0 &&
    gangsFit cap pod dies (rc.flags.getLsbD 3) ls 0 1 &&
    domainFits ls 1 (dies * 9 * pod) && domainFits ls 2 (dies * 9) && domainFits ls 3 dies

/-- Strands of the launch, and wheel positions of each (R276, R312). -/
def LaunchRec.strands (rc : LaunchRec) : Nat := (levelsOf rc).foldl (fun a d => a * lvCount d) 1
def LaunchRec.wheelEach (rc : LaunchRec) : Nat := ((levelsOf rc).map lvWheel).sum

/-! ## The bind table (R313) -/

/-- A ring or zone of a bind-table entry: its pool bytes. -/
def bindSpan (e : Dword) : Nat × Nat :=
  if bindKind e = 1 then
    let lo := bitsOf e 13 0 * 128
    (lo, lo + (bitsOf e 22 14 + 1) * 128 * (bitsOf e 28 23 + 1))
  else
    let lo := bitsOf e 12 0 * 256
    (lo, lo + (bitsOf e 20 13 + 1) * 256 * (bitsOf e 26 21 + 1))

/-- One entry obeys R208, R234 and R313. -/
def bindEntryOk (rc : LaunchRec) (e : Dword) : Bool :=
  let inside := decide (rc.pb1 ≤ (bindSpan e).1) && decide ((bindSpan e).2 ≤ rc.pb2)
  if bindKind e = 1 then decide (bindNum e < 8) && decide (bitsOf e 54 29 = 0) && inside
  else if bindKind e = 2 then decide (bindNum e < 4) && decide (bitsOf e 55 35 = 0) && inside
  else if bindKind e = 3 ∨ bindKind e = 4 then decide (bindNum e < 8) && decide (bitsOf e 55 45 = 0)
  else false

/-- Two entries name different things, and a zone overlaps no ring or zone (R234, R313). -/
def bindApart (a b : Dword) : Bool :=
  let ka := bindKind a
  let kb := bindKind b
  let zone := (decide (ka = 2) && decide (kb ≤ 2)) || (decide (kb = 2) && decide (ka ≤ 2))
  !(decide (ka = kb) && decide (bindNum a = bindNum b)) &&
    !(zone && overlaps (bindSpan a).1 (bindSpan a).2 (bindSpan b).1 (bindSpan b).2)

def allApart : List Dword → Bool
  | [] => true
  | e :: t => t.all (bindApart e) && allApart t

/-- The bind table among the constants, as far as they could be read, obeys R313. -/
def LaunchRec.bindOk (rc : LaunchRec) (consts : List (Option Dword)) : Bool :=
  if !rc.flags.getLsbD 4 then true
  else if rc.c = 0 then false
  else
    match consts.getD (rc.c - 1) none with
    | none => true
    | some h =>
      let n := bitsOf h 15 0
      if bitsOf h 63 60 ≠ 0xF ∨ bitsOf h 59 16 ≠ 0 ∨ rc.c ≤ n then false
      else
        let es := ((consts.drop (rc.c - 1 - n)).take n).filterMap id
        es.all (bindEntryOk rc) && allApart es

/-! ## Reads and writes of the dispatcher -/

/-- What the dispatcher reads of one line under the launch's ASID; errors are the reasons of R314. -/
def State.dispLine (s : State) (g : Agent) (launch : Bool) (va n : Nat) : EngRes (List Byte) :=
  if inWindow va ∨ inAperture va ∨ 2 ^ 52 ≤ va then .err 10
  else
    match s.walk g va with
    | .need x => .need x
    | .svc => .err 10
    | .bad _ => .err 10
    | .refused _ => .err 10
    | .leaf e =>
      let pa := e.paOf va
      let k := s.key pa
      if (s.leafFault e va .read).isSome ∨ e.cls = clsRecipe then .err 10
      else if s.isRemote pa then
        match s.natAnswer g pa with
        | some (0, bs) => .ok bs
        | some (st, _) => .err (if st = 1 ∧ launch then 9 else 10)
        | none => .need (.native 1 pa n [])
      else if isAgent k then .err 10
      else if (s.refusedBy s.dev.node.toNat g.asid k [if launch then 2 else 0]).isSome then
        .err (if launch then 9 else 10)
      else
        match s.engBytes g k n with
        | .ok bs => .ok bs
        | .need x => .need x
        | .err _ => .err 10

/-- The die of the target that turns the dispatcher's read of a span away (R306). -/
def State.dispRefused (s : State) (g : Agent) (launch : Bool) (va n : Nat) : Option Nat :=
  (linesOf va n).findSome? fun p =>
    match s.walk g p.1 with
    | .refused die => die
    | .leaf e =>
      let pa := e.paOf p.1
      if (s.leafFault e p.1 .read).isSome || s.isRemote pa || isAgent (s.key pa) then none
      else s.refusedBy s.dev.node.toNat g.asid (s.key pa) [if launch then 2 else 0]
    | _ => none

/-- The dispatcher meets an uncorrectable error in a span that it reads. -/
def State.dispBad (s : State) (g : Agent) (launch : Bool) (va n : Nat) : Bool :=
  (linesOf va n).any fun p =>
    match s.walk g p.1 with
    | .bad r => decide (r = 4)
    | .leaf e =>
      let pa := e.paOf p.1
      let k := s.key pa
      if (s.leafFault e p.1 .read).isSome || decide (e.cls = clsRecipe) then false
      else if s.isRemote pa then decide ((s.natAnswer g pa).map (·.1) = some 2)
      else if isAgent k || (s.refusedBy s.dev.node.toNat g.asid k [if launch then 2 else 0]).isSome then false
      else match s.engBytes g k p.2 with
        | .err _ => true
        | _ => false
    | _ => false

/-- What turned the dispatcher's read of a span away, and what was not to be corrected, is recorded (R306, R355). -/
def State.logDisp (s : State) (g : Agent) (launch : Bool) (va n : Nat) : State :=
  let t := s.logRefusedBy (s.dispRefused g launch va n) g.asid
  if s.dispBad g launch va n then t.log 0 0x09 g.asid 1023 7 5 else t

/-- The bytes of a span, or the lowest reason for which one of its lines cannot be read. -/
def State.dispRead (s : State) (g : Agent) (launch : Bool) (va n : Nat) : EngRes (List Byte) :=
  let parts := (linesOf va n).map fun p => s.dispLine g launch p.1 p.2
  match parts.findSome? (fun r => match r with
      | .need x => some x
      | _ => none) with
  | some x => .need x
  | none =>
    let errs := parts.filterMap fun r => match r with
      | .err e => some e
      | _ => none
    if errs.isEmpty then
      .ok (parts.flatMap fun r => match r with
        | .ok bs => bs
        | _ => [])
    else .err (errs.foldl min 10)

/-- The double words of a span as far as they can be read, and the lowest reason for which one cannot, 11 for none. -/
def State.dispWords (s : State) (g : Agent) (launch : Bool) (va n : Nat) : EngRes (List (Option Dword) × Nat) :=
  let parts := (linesOf va (8 * n)).map fun p => (p.2 / 8, s.dispLine g launch p.1 p.2)
  match parts.findSome? (fun r => match r.2 with
      | .need x => some x
      | _ => none) with
  | some x => .need x
  | none =>
    .ok (parts.flatMap fun r => match r.2 with
        | .ok bs => (List.range r.1).map fun i => some (BitVec.ofNat 64 (recField bs (8 * i) 8))
        | _ => List.replicate r.1 none,
      (parts.filterMap fun r => match r.2 with
        | .err e => some e
        | _ => none).foldl min 11)

/-! ## Timetables (R325) -/

/-- The groups that one entry covers; none where it breaks a rule. -/
def ttEntry (rc : LaunchRec) (frame : Nat) (e : Dword) : Option (List TtGroup) :=
  let ls := levelsOf rc
  let n := bitsOf e 34 32
  let g := bitsOf e 63 48
  let groups := groupsAt ls n
  let make (i : Nat) : TtGroup := ⟨n, i, bitsOf e 15 0, bitsOf e 31 16, false, false⟩
  if bitsOf e 47 35 ≠ 0 ∨ ls.length ≤ n ∨ ¬ lvTimed (ls.getD n 0) ∨ ¬ gangLevel rc n ∨
      bitsOf e 31 16 ≤ bitsOf e 15 0 ∨ frame ≤ bitsOf e 31 16 then none
  else if g = 0xFFFF then some ((List.range groups).map make)
  else if g < groups then some [make g]
  else none

/-- No group is covered twice. -/
def ttOnce : List TtGroup → Bool
  | [] => true
  | t :: l => l.all (fun u => decide (u.level ≠ t.level) || decide (u.index ≠ t.index)) && ttOnce l

/-- The groups of a timetable's words (R325). -/
def ttGroups (rc : LaunchRec) (frame : Nat) (words : List Dword) : Option (List TtGroup) :=
  let l := words.map (ttEntry rc frame)
  if l.all (·.isSome) then
    let gs := l.flatMap fun x => x.getD []
    if ttOnce gs then some gs else none
  else none

/-- The timetable of a launch: its groups, or an error that is the lowest reason of its refusal. An entry that cannot be
read leaves the others to be judged (R314). -/
def State.readTimetable (s : State) (g : Agent) (rc : LaunchRec) : EngRes (List TtGroup) :=
  if !rc.flags.getLsbD 1 then .ok []
  else if rc.tt % 64 ≠ 0 then .err 8
  else
    (s.dispWords g false rc.tt 1).bind fun h =>
      match h.1.getD 0 none with
      | none => .err h.2
      | some x =>
        let n := x.toNat
        if n = 0 ∨ 255 < n then .err 8
        else
          (s.dispWords g false (rc.tt + 8) n).bind fun ws =>
            let frame := (s.dev.parts.map (·.length)).foldl max 1
            match ttGroups rc frame (ws.1.filterMap id) with
            | none => .err 8
            | some gs => if ws.2 = 11 then .ok gs else .err ws.2

/-! ## Judging a record (R314) -/

/-- Priority, reservation class, flags and reserved bytes (R311, R314, R330). -/
def State.plainOk (s : State) (q : Nat) (rc : LaunchRec) : Bool :=
  decide (rc.prio ≤ 15) && decide (rc.prio ≤ (Map.get {} s.dev.queues q).prio.toNat) &&
    decide (rc.flags.toNat < 64) && rc.zeros && decide (rc.compAddr % 16 = 0) &&
    (decide (rc.rclass = 0) || (match Map.get none s.dev.rclass rc.rclass with
      | some c => decide (c.queue = q)
      | none => false))

/-- The reasons that the record alone gives. -/
def State.plainReasons (s : State) (q : Nat) (rc : LaunchRec) : List Nat :=
  (if rc.imageOk then [] else [1]) ++ (if rc.poolOk then [] else [2]) ++
    (if 1 ≤ rc.w ∧ rc.w ≤ 64 then [] else [3]) ++
    (if 1 ≤ rc.maxSteps ∧ rc.maxSteps ≤ 65536 then [] else [4]) ++
    (if rc.levelsOk s.dies then [] else [5]) ++
    (if rc.strands * rc.wheelEach ≤ 4096 then [] else [6]) ++ (if s.plainOk q rc then [] else [8])

/-- The lowest reason of R314 that applies, 0 for none, and the timetable's groups. -/
def State.judge (s : State) (g : Agent) (q : Nat) (rc : LaunchRec) : EngRes (Nat × List TtGroup) :=
  let plain := s.plainReasons q rc
  let low := plain.foldl min 11
  let a := Map.get {} s.dev.asids g.asid
  if low < 7 then .ok (low, [])
  else if !a.bound || a.frozen then .ok (min low 10, [])
  else
    (s.dispWords g true rc.image (rc.dictSize / 8)).bind fun dict =>
      (s.dispWords g true (rc.image + rc.dictSize) rc.c).bind fun consts =>
        match s.readTimetable g rc with
        | .need x => .need x
        | tt =>
          let (b, gs) := match tt with
            | .ok gs => (11, gs)
            | .err e => (e, [])
            | _ => (11, [])
          let m := min (min low (if rc.bindOk consts.1 then 11 else 7)) (min (min dict.2 consts.2) b)
          .ok (if m = 11 then 0 else m, gs)

/-- The bytes of a timetable that the dispatcher reads. -/
def State.ttBytes (s : State) (g : Agent) (rc : LaunchRec) : Nat :=
  match s.dispRead g false rc.tt 8 with
  | .ok h => 8 + 8 * min 255 (recField h 0 8)
  | _ => 8

/-- What could not be read as a record was judged is recorded (R306, R355). -/
def State.logJudged (s : State) (g : Agent) (rc : LaunchRec) : State :=
  let a := Map.get {} s.dev.asids g.asid
  if !a.bound || a.frozen then s
  else
    let s := s.logDisp g true rc.image rc.size
    if rc.flags.getLsbD 1 then s.logDisp g false rc.tt (s.ttBytes g rc) else s

/-! ## Completion records (R314) -/

/-- A completion write has failed. -/
def State.compFailed (s : State) (queue asid outcome reason : Nat) : State :=
  let q := Map.get {} s.dev.queues queue
  let s := s.log 0 0x15 asid 1023 7 (outcome + 256 * reason)
  s.setDev { s.dev with queues := Map.put {} s.dev.queues queue { q with faults := q.faults + 1 } }

/-- Write the completion record of a launch, or log that there is none to write or that the write fails. -/
def State.complete (s : State) (g : Agent) (queue : Nat) (rc : LaunchRec) (outcome reason : Nat) :
    EngRes State :=
  if rc.compAddr = 0 ∨ rc.compAddr % 16 ≠ 0 then
    .ok (s.log 0 0x16 g.asid 1023 7 (outcome + 256 * reason))
  else if inWindow rc.compAddr ∨ inAperture rc.compAddr ∨ ¬ (Map.get {} s.dev.asids g.asid).bound then
    .ok (s.compFailed queue g.asid outcome reason)
  else
    match s.engWriteVa g rc.compAddr (leBytes 8 rc.compVal.toNat ++ leBytes 8 (outcome + 256 * reason)) with
    | .ok s => .ok (s.engDone g)
    | .need x => .need x
    | .err _ =>
      .ok (((s.logRefusedBy (s.spanRefused g rc.compAddr 16 .write) g.asid).engDone g).compFailed queue g.asid
        outcome reason)

/-- The launch is over: its entry, its cards and its place in its queue are gone. -/
def State.closeLaunch (s : State) (n : Nat) : State :=
  let l := s.launch n
  let q := Map.get {} s.dev.queues l.queue
  s.setDev { s.dev with
    launches := Map.put {} s.dev.launches n {},
    cards := s.dev.cards.filter fun d => d.launch ≠ n,
    queues := Map.put {} s.dev.queues l.queue { q with backlog := q.backlog.filter (· ≠ n) } }

/-- Accept a record's launch (R310, R314): refused, its completion is written; accepted, it waits for its
strands to be bound. None of it happens while the dispatcher waits for something. -/
def State.dispatch (s : State) (q : Nat) (seq : BitVec 7) (bs : List Byte) : EngRes State :=
  let qu := Map.get {} s.dev.queues q
  let rc := parseRecord bs
  let id := s.dev.nextLaunch
  let g := dispAgent id qu.asid
  let s' := s.setDev { s.dev with nextLaunch := id + 1 }
  (s.judge g q rc).bind fun r =>
    if r.1 ≠ 0 then
      (s'.complete g q rc 1 r.1).bind fun t => .ok ((if 7 ≤ r.1 then t.logJudged g rc else t).engDone g)
    else
      let s := (s'.engDone g).setLaunch id
        { rc := rc, asid := qu.asid, queue := q, seq := seq, strands := rc.strands, tt := r.2 }
      .ok (s.setDev { s.dev with queues := Map.put {} s.dev.queues q { qu with backlog := qu.backlog ++ [id] } })

/-! ## Launch windows (R309, R310) -/

/-- A write to a launch window that is not taken (R366). -/
def State.logWindow (s : State) (q asid : Nat) : State := s.log 0 0x12 asid 1023 7 q

/-- The offset of slot `k`'s seal byte. -/
def sealAt (k : Nat) : Nat := 256 * k + 255

/-- The slot of an offset is sealed. -/
def sealedAt (m : Map Byte) (o : Nat) : Bool := (Map.get 0 m (sealAt (o / 256))).getLsbD 7

/-- The bytes of a store that fall in slots that are not sealed. -/
def openBytes (m : Map Byte) (st : ApStore) : List (Nat × Byte) :=
  (st.bytes.zipIdx.map fun p => (st.off + p.2, p.1)).filter fun p => decide (p.1 < 4096) && !sealedAt m p.1

/-- A window after a store. -/
def windowWrite (m : Map Byte) (l : List (Nat × Byte)) : Map Byte := l.foldl (fun m p => Map.put 0 m p.1 p.2) m

/-- The aperture's access table turns a store away; that is recorded (R306). -/
def State.apertureRefused (s : State) (m : ApStore) (a r : Nat) : Option Nat := s.refusedBy m.node m.asid a [r]

/-- WINDOW_STORE (R309). A store that lacks the launch right is refused (R306). -/
def execWindowStore (queue : Nat) (m : Machine.ApStore) (s : State) : Outcome :=
  let q := Map.get {} s.dev.queues queue
  let refused := s.apertureRefused m (2 ^ 39 + 4096 * queue + m.off) 2
  if refused.isSome then .next (s.logRefusedBy refused m.asid)
  else if m.cached ∨ ¬ q.bound ∨ q.closing.isSome then .next (s.logWindow queue m.asid)
  else
    let l := openBytes q.window m
    let w := windowWrite q.window l
    let s := if l.length < m.bytes.length then s.logWindow queue m.asid else s
    let s := s.setDev { s.dev with queues := Map.put {} s.dev.queues queue { q with window := w } }
    let again : Instr := .launchSeal queue
    .next (if sealedAt w (256 * q.k.toNat) ∧ again ∉ s.pending then s.post again else s)

/-- The 256 bytes of a slot. -/
def slotBytes (m : Map Byte) (k : Nat) : List Byte := (List.range 256).map fun i => Map.get 0 m (256 * k + i)

/-- The monitor looks at the next slot (R310). -/
def State.watchNext (s : State) (queue : Nat) : State :=
  let q := Map.get {} s.dev.queues queue
  let again : Instr := .launchSeal queue
  if sealedAt q.window (256 * q.k.toNat) ∧ again ∉ s.pending then s.post again else s

/-- A record that SPAWN submitted is taken: the oldest of a die's queue (R318). -/
def State.takeSpawn (s : State) (die : Nat) : Outcome :=
  match Map.get [] s.dev.spawnQ die with
  | [] => .next s
  | (q, bs) :: t =>
    let rest (s : State) : State := s.setDev { s.dev with spawnQ := Map.put [] s.dev.spawnQ die t }
    let qu := Map.get {} s.dev.queues q
    if !qu.bound || qu.closing.isSome then .next (rest s)
    else
      match s.dispatch q (Config.spawnSeq s.dev.nextLaunch) bs with
      | .ok s => .next (rest s)
      | .need x => .next ((s.meetNeed (dispAgent s.dev.nextLaunch qu.asid) 0 x).post (.launchSeal (65536 + die)))
      | .err _ => .next (rest s)

/-- LAUNCH_SEAL (R310). A number from 65,536 on names the spawn queue of a die. -/
def execLaunchSeal (queue : Nat) (s : State) : Outcome :=
  if 65536 ≤ queue then s.takeSpawn (queue - 65536)
  else
    let q := Map.get {} s.dev.queues queue
    let b := Map.get 0 q.window (sealAt q.k.toNat)
    let put (s : State) (q : Queue) : State :=
      s.setDev { s.dev with queues := Map.put {} s.dev.queues queue q }
    let open_ := Map.put 0 q.window (sealAt q.k.toNat) 0
    if !q.bound || q.closing.isSome || !b.getLsbD 7 then .next s
    else if b.toNat ≠ 128 + q.e.toNat then
      .next (put (s.log 0 0x17 q.asid 1023 7 queue) { q with window := open_ })
    else
      match s.dispatch queue q.e (slotBytes q.window q.k.toNat) with
      | .need x => .next ((s.meetNeed (dispAgent s.dev.nextLaunch q.asid) 0 x).post (.launchSeal queue))
      | .err _ => .next s
      | .ok s =>
        let q := Map.get {} s.dev.queues queue
        .next ((put s { q with window := open_, e := q.e + 1, k := q.k + 1 }).watchNext queue)

/-! ## The end of a launch (R314) -/

/-- What the strand that a context ran has outstanding is done; a context that runs another strand has
nothing left of it. -/
def State.strandDone (s : State) (w : Who) : Bool :=
  let c := s.ctx w
  c.strand.isSome || (c.acc.isEmpty && c.mq.isEmpty && (s.core w.core).xfers.all fun t => t.ctx ≠ w.ctx)

/-- A transfer that a saved strand left on its core has completed (R314, R346). -/
def State.leftDone (s : State) (x : XferId) : Bool :=
  (s.core x.core).xfers.all fun t => decide (t.ch ≠ x.ch) || decide (t.id ≠ x.id)

/-- No word that the launch stored to is on its way (R272). -/
def State.launchSettled (s : State) (l : Launch) : Bool :=
  l.dirty.all fun p => decide (((s.core p.1).word p.2).st ≠ .pending) && !s.inTransit p.2

/-- Lines of host memory that the launch's words go home to and that the bridge does not own (R372). -/
def State.awayLines (s : State) (l : Launch) : List Nat :=
  ((l.dirty.filter fun p => decide (2 ^ 52 ≤ p.2) && !s.hostOwned p.2).map fun p => p.2 / 128).eraseDups

/-- The words that the launch stored to, and the dirty P words of its cores, go home: the release at sys of
its completion (R272, R314). -/
def State.flushLaunch (s : State) (l : Launch) : State :=
  let ps := ((l.bound.filterMap (strandAt l)).map (·.core)).eraseDups.flatMap fun c =>
    (s.core c).l1.filterMap fun p => if p.2.st = .P ∧ p.2.dirty then some (c, p.1) else none
  (l.dirty ++ ps).foldl (fun s p => s.writeBack p.1 p.2 true) s

/-- LAUNCH_COMPLETE (R314). -/
def execLaunchComplete (launch : Nat) (s : State) : Outcome :=
  let l := s.launch launch
  let again : Instr := .launchComplete launch
  let ws := l.bound.filterMap (strandAt l)
  if l.strands = 0 ∨ l.ended.length < l.strands then .next s
  else if !ws.all s.strandDone || !l.left.all s.leftDone || !s.launchSettled l then .next (s.post again)
  else if !(s.awayLines l).isEmpty then
    .next (((s.awayLines l).foldl (fun s n => s.meetNeed (dispAgent launch l.asid) 0 (.hostLine n true)) s).post again)
  else
    let g := dispAgent launch l.asid
    let s := s.flushLaunch l
    match s.complete g l.queue l.rc 0 0 with
    | .need x => .next ((s.meetNeed g 0 x).post again)
    | .err _ => .next s
    | .ok s => .next (s.closeLaunch launch)

/-! ## Binds (R315, R316) -/

/-- The instance of a domain that a context lies in. -/
def domainKey (d : Nat) (w : Who) : Nat :=
  if d = 0 then w.core * 8 + w.ctx else if d = 1 then w.core else if d = 2 then corePod w.core
  else if d = 3 then coreDie w.core else 0

/-- Where a strand runs, or will by these records. -/
def placeOf (l : Launch) (rs : List BindRec) (k : Nat) : Option Who :=
  match rs.find? (fun r => r.strand = k) with
  | some r => some r.who
  | none => if k ∈ l.bound then strandAt l k else none

/-- A strand of the records stands rightly to its groups (R312, R315): gang groups are whole, and each group lies
in one instance of its domain. -/
def groupOk (l : Launch) (rs : List BindRec) (r : BindRec) : Bool :=
  let ls := levelsOf l.rc
  (List.range ls.length).all fun n =>
    let ms := groupMembers l n r.strand
    let d := lvDomain (ls.getD n 0)
    (!gangLevel l.rc n || ms.all fun k => rs.any fun x => decide (x.strand = k)) &&
      ms.all fun k => match placeOf l rs k with
        | some w => decide (domainKey d w = domainKey d r.who)
        | none => true

/-- The strands of the record's groups that come before it are bound, or are bound with it: groups are bound in
ascending order (R315). -/
def inTurn (l : Launch) (rs : List BindRec) (r : BindRec) : Bool :=
  (List.range (levelsOf l.rc).length).all fun n =>
    (groupMembers l n r.strand).all fun k =>
      decide (r.strand ≤ k) || decide (k ∈ l.bound) || rs.any fun x => decide (x.strand = k)

/-- Channels of the context of `i`-th lowest number among `k` (R213). -/
def dealChannels (k i : Nat) : Half :=
  let w := 16 / k
  let hi := if i + 1 = k then 16 else (i + 1) * w
  BitVec.ofNat 16 (2 ^ hi - 2 ^ (i * w))

/-- The records of one core. -/
def recsOf (rs : List BindRec) (core : Nat) : List BindRec := rs.filter fun r => decide (r.who.core = core)

/-- No context of the core runs a strand: the bind loads the core anew. -/
def State.freshCore (s : State) (core : Nat) : Bool := (s.core core).ctxs.all fun c => c.2.strand.isNone

/-- A context keeps the channels that it has from this launch: it runs a strand, a strand saved from it may return to
them, or it is the regrow context of a core that runs strands (R93, R213, R346). -/
def State.keepsChannels (s : State) (l : Launch) (id core x : Nat) : Bool :=
  let k := s.core core
  k.bind.isSome && decide (k.binding.launch = id) && !s.freshCore core && decide ((k.ctx x).chmask ≠ 0) &&
    ((k.ctx x).strand.isSome || (decide (x = 3) && l.rc.flags.getLsbD 0) ||
      s.dev.saved.any fun v => match v.2 with
        | some v => decide (v.src = ⟨core, x⟩) && decide (v.strand.launch = id)
        | none => false)

/-- The contexts that share the core's channels under these records: those bound now, those that keep
channels of the same launch, and the regrow context. -/
def State.channelSharers (s : State) (l : Launch) (id : Nat) (rs : List BindRec) (core : Nat) : List Nat :=
  (List.range 4).filter fun x =>
    (recsOf rs core).any (fun r => decide (r.who.ctx = x)) || (decide (x = 3) && l.rc.flags.getLsbD 0) ||
      s.keepsChannels l id core x

/-- The channel mask of a context: the record's, the one it already has from this launch, or its deal. -/
def State.maskFor (s : State) (l : Launch) (id : Nat) (rs : List BindRec) (core x : Nat) : Half :=
  let given := ((recsOf rs core).find? fun r => decide (r.who.ctx = x)).bind (·.chmask)
  let sharers := s.channelSharers l id rs core
  match given with
  | some m => m
  | none =>
    if s.keepsChannels l id core x then ((s.core core).ctx x).chmask
    else dealChannels sharers.length (sharers.idxOf x)

/-- No channel of the core goes to two contexts. -/
def State.masksApart (s : State) (l : Launch) (id : Nat) (rs : List BindRec) (core : Nat) : Bool :=
  let ms := (s.channelSharers l id rs core).map fun x => s.maskFor l id rs core x
  (ms.foldl (fun (a : Bool × Half) m => (a.1 && decide (a.2 &&& m = 0), a.2 ||| m)) (true, 0)).1

/-- A core of the part, in a pair only as its leader (R9, R361, R379). -/
def State.coreOk (s : State) (l : Launch) (core : Nat) : Bool :=
  decide (coreRow core < s.gridSize) && decide (coreCol core < s.gridSize) && !(s.core core).dead &&
    (!l.rc.flags.getLsbD 2 || (s.dev.twin.getLsbD (corePod core) && decide (core % 2 = 0)))

/-- One record is such as the management core writes. -/
def State.recGood (s : State) (l : Launch) (rs : List BindRec) (r : BindRec) : Bool :=
  let cap := if l.rc.flags.getLsbD 0 then 3 else 4
  decide (r.strand < l.strands) && decide (r.strand ∉ l.bound) && decide (r.who.ctx < cap) &&
    s.coreOk l r.who.core && decide (r.depth.toNat ≤ 4) && decide (r.wheel.length = l.rc.wheelEach) &&
    r.wheel.all (fun p => decide (p < 4096)) && groupOk l rs r &&
    l.tt.all fun t => decide (t.index ≠ r.strand / groupSize (levelsOf l.rc) t.level) ||
      decide (t.deadline < (s.dev.parts.find? fun p => p.pods.getLsbD (corePod r.who.core)).elim 0 (·.length))

/-- How many of the free positions, in rising order, fit between `cur` and `hi` with `g` cycles or more between
neighbours. -/
def fitBetween (g hi : Nat) : List Nat → Nat → Nat
  | [], _ => 0
  | p :: t, cur => if cur + g ≤ p ∧ p + g ≤ hi then fitBetween g hi t p + 1 else fitBetween g hi t cur

/-- `n` positions can be added to `old` ones with `g` cycles or more between neighbours of the ring (R276). -/
def canSpace (free old : List Nat) (n g : Nat) : Bool :=
  let round := free ++ free.map (· + 4096)
  let starts := if old.isEmpty then free else old.take 1
  starts.any fun a =>
    let marks := (old.filter fun p => decide (a < p)) ++ [a + 4096]
    let sum := marks.foldl (fun (x : Nat × Nat) b => (x.1 + fitBetween g b round x.2, b)) (0, a)
    decide (n ≤ sum.1 + (if old.isEmpty then 1 else 0))

/-- A core's positions in rising order; the least number of cycles between neighbours on the ring of 4,096. -/
def insertSorted (x : Nat) : List Nat → List Nat
  | [] => [x]
  | y :: t => if x ≤ y then x :: y :: t else y :: insertSorted x t

def leastGap (l : List Nat) : Nat :=
  match l.foldr insertSorted [] with
  | [] => 4096
  | a :: t => ((t ++ [a + 4096]).foldl (fun (x : Nat × Nat) b => (min x.1 (b - x.2), b)) (4096, a)).1

/-- The positions that records give a core lie as evenly as the free set allows: no choice of as many positions, of its
own and those that are free and go to no other core, keeps neighbours farther apart (R276, log entry 87). -/
def State.spaced (s : State) (rs : List BindRec) (core : Nat) : Bool :=
  let new := (recsOf rs core).flatMap (·.wheel)
  let old := (s.core core).wheel
  if new.isEmpty || decide (new.length + old.length ≤ 1) || decide (leastGap old ≤ leastGap (old ++ new)) then true
  else
    let others := (rs.filter fun r => decide (r.who.core ≠ core)).flatMap (·.wheel)
    let free := (List.range 4096).filter fun p =>
      decide (p ∈ new) || (decide (p ∉ others) && s.cores.all fun k => decide (p ∉ k.2.wheel))
    !canSpace free (old.foldr insertSorted []) new.length (leastGap (old ++ new) + 1)

/-- No two of a list are equal. -/
def distinct : List Nat → Bool
  | [] => true
  | x :: t => decide (x ∉ t) && distinct t

/-- Wheel positions that no other core holds (R276). -/
def State.wheelFree (s : State) (r : BindRec) : Bool :=
  r.wheel.all fun p => s.cores.all fun k => decide (p ∉ k.2.wheel)

/-- A list of records that the dispatch hardware can obey. -/
def State.recsStand (s : State) (l : Launch) (id : Nat) (rs : List BindRec) : Bool :=
  !rs.isEmpty && rs.all (fun r => decide (r.launch = id)) && distinct (rs.map (·.strand)) &&
    distinct (rs.map fun r => r.who.core * 8 + r.who.ctx) && distinct (rs.flatMap (·.wheel)) &&
    rs.all (s.recGood l rs) && rs.all fun r => s.masksApart l id rs r.who.core

/-- A list of records as the management core's firmware writes it; it writes no other. -/
def State.recsGood (s : State) (l : Launch) (id : Nat) (rs : List BindRec) : Bool :=
  s.recsStand l id rs && rs.all fun r => s.spaced rs r.who.core

/-- The context is free: it runs nothing, and nothing it issued is outstanding (R92, R214). -/
def State.contextFree (s : State) (core x : Nat) : Bool :=
  let k := s.core core
  let c := k.ctx x
  (decide (c.life = .idle) || decide (c.life = .stopped)) && c.strand.isNone && c.slice.isNone && c.acc.isEmpty &&
    c.mq.isEmpty && c.gqAddr.isEmpty && k.xfers.all fun t => t.ctx ≠ x

/-- The core can take the launch now (R93, R231): every strand it runs is of the launch; for a new bind,
nothing on it is outstanding that the bind would upset. -/
def State.coreFree (s : State) (l : Launch) (id : Nat) (rs : List BindRec) (core : Nat) : Bool :=
  let k := s.core core
  let drained (x : Nat) : Bool := k.xfers.all fun t => !(s.maskFor l id rs core x).getLsbD t.ch
  if s.freshCore core then
    (List.range 5).all (fun x => s.contextFree core x) && k.xfers.isEmpty && k.retires.isEmpty
  else decide (k.binding.launch = id) && (recsOf rs core).all fun r => drained r.who.ctx

/-- Everything the records need is free (R92, R276, R310, R315). -/
def State.bindReady (s : State) (l : Launch) (id : Nat) (rs : List BindRec) : Bool :=
  decide ((Map.get {} s.dev.queues l.queue).backlog.head? = some id) &&
    rs.all fun r => s.contextFree r.who.core r.who.ctx && s.coreFree l id rs r.who.core && s.wheelFree r && inTurn l rs r

/-- A core changes its address space (R17, R188, R211, R250). -/
def State.changeSpace (s : State) (core : Nat) : State :=
  let lines := ((s.core core).l1.map fun p => p.1 / 128).eraseDups
  let s := (lines.foldl (fun s l => s.evictLine core l) s).reclaimZones core
  let k := s.core core
  let s := s.setCore core { k with
    ctxs := [], pool := [], pkts := [], plane := {}, score := [], retires := [], cb := [], tlb := [], poison := [],
    links := k.links.filterMap (fun p => if p.2.down then some (p.1, { down := true }) else none),
    svc := none, l1 := k.l1.filter (fun p => decide (p.2.st = .pending)) }
  { s with pending := s.pending.filter fun i => match i with
      | .packetFill f => decide (f.core ≠ core)
      | .sequentialPrefetch c _ => decide (c ≠ core)
      | _ => true }

/-- The pool boundaries of the L1 move: every line is written back and dropped (R196). -/
def State.moveL1 (s : State) (core : Nat) : State :=
  (((s.core core).l1.map fun p => p.1 / 128).eraseDups).foldl (fun s l => s.evictLine core l) s

/-- A circular buffer at bind (R208). -/
def cbAtBind (e : Dword) : Dword :=
  BitVec.ofNat 64 (bitsOf e 28 0 + 2 ^ 29 + (bitsOf e 28 23 + 1) * 2 ^ 30 + bitsOf e 55 55 * 2 ^ 63)

/-- The landing right that a zone grants to its group (R234); it stays when the zone is gone, or the core changes its
address space (R17, R250; log entry 101). -/
def State.grantLanding (s : State) (core zone group : Nat) : State :=
  let t := Map.get {} s.dev.tables (2 * 65536 + core)
  let r := Map.get 0 t.rights group ||| BitVec.ofNat 256 (2 ^ (4 * zone + 3))
  s.setDev { s.dev with
    tables := Map.put {} s.dev.tables (2 * 65536 + core) { t with rights := Map.put 0 t.rights group r } }

/-- The values of the record that hold for the launch on a core. -/
def bindOf (l : Launch) (id : Nat) : Bind :=
  let rc := l.rc
  ⟨id, l.asid, rc.pb1, rc.pb2, rc.pb3, rc.w, rc.maxSteps, rc.n, rc.c, rc.image, rc.trapVec, rc.holdVec,
    rc.flags.getLsbD 0, rc.flags.getLsbD 5⟩

/-- A core takes the launch: address space, boundaries, dictionary and constants, buffers and zones (R34, R36,
R63, R196, R208, R234, R315). What moved boundaries make scratchpad is not cleared (log entry 100). -/
def State.loadCore (s : State) (l : Launch) (id core : Nat) (img : List Byte) (r : BindRec) : State :=
  let rc := l.rc
  let k := s.core core
  let old := k.binding
  let s := if k.asid ≠ l.asid then s.changeSpace core
    else if old.pb2 ≠ rc.pb2 ∨ old.pb3 ≠ rc.pb3 then s.moveL1 core
    else s
  let s := s.reclaimZones core
  let k := s.core core
  let k : Core := { k with
    asid := l.asid, bind := some (bindOf l id), pkts := [], ctxs := (Map.put {} k.ctxs 4 {}).map fun c => (c.1, { c.2 with chmask := 0 }),
    pool := putBytes (k.pool.filter fun p => decide (p.1 < rc.pb3)) rc.pb3 img,
    depth := r.depth, ageing := r.ageing, claims := [], port := none, yielded := [],
    order := [], tileq := [], steps := 0, fetched := 0, classStart := s.dev.cycle, classDone := false }
  let t := k.bindTable rc.flags
  let k := { k with
    cb := (t.filter fun e => decide (bindKind e = 1)).foldl (fun m e => Map.put 0 m (bindNum e) (cbAtBind e)) [],
    zones := (t.filter fun e => decide (bindKind e = 2)).foldl (fun m e =>
      Map.put {} m (bindNum e) { cfg := BitVec.ofNat 36 (bitsOf e 34 0 + 2 ^ 35) }) [] }
  let s := s.setCore core k
  let s := { s with pending := s.pending.filter fun i => match i with
      | .packetFill f => decide (f.core ≠ core)
      | .sequentialPrefetch c _ => decide (c ≠ core)
      | _ => true }
  (t.filter fun e => decide (bindKind e = 2)).foldl (fun s e =>
    s.grantLanding core (bindNum e) (bitsOf e 34 27)) s

/-- The channels of a mask start from zero (R214). -/
def Core.resetChannels (k : Core) (m : Half) : Core :=
  let chs := (List.range 16).filter fun c => m.getLsbD c
  { k with
    cnext := chs.foldl (fun t c => Map.put 0 t c 0) k.cnext,
    cdone := chs.foldl (fun t c => Map.put 0 t c 0) k.cdone,
    xdone := k.xdone.filter fun p => decide (p.1 ∉ chs),
    cerr := k.cerr &&& ~~~m }

/-- Bind one strand to its context (R81, R95, R316). Its channels are no longer those of a strand that has ended (R213). -/
def State.bindStrand (s : State) (l : Launch) (id : Nat) (mask : Half) (r : BindRec) : State :=
  let rc := l.rc
  let k := (s.core r.who.core).resetChannels mask
  let k := { k with
    wheel := k.wheel ++ r.wheel,
    ctxs := k.ctxs.map fun (c : Nat × Ctx) => if c.1 = r.who.ctx then c else (c.1, { c.2 with chmask := c.2.chmask &&& ~~~mask }) }
  let ls := levelsOf rc
  let lvl : List Half := (List.range 8).map fun n => BitVec.ofNat 16 (lvlIndex ls n r.strand)
  let regs := k.entryRegs rc.flags (BitVec.ofNat 52 (rc.image + rc.codeAt)) (Map.put 0 [] 1 rc.args) r.strand
  let c := ((k.ctx r.who.ctx).enter regs (BitVec.ofNat 4 rc.prio) mask)
  let s := s.setCore r.who.core ((k.newStrand r.who.ctx).setCtx r.who.ctx { c with strand := some ⟨id, r.strand, lvl⟩ })
  let l' := s.launch id
  let g (t : TtGroup) : Bool := decide (t.index = r.strand / groupSize ls t.level)
  let s := s.setLaunch id { l' with
    at_ := Map.put none l'.at_ r.strand (some r.who), bound := l'.bound ++ [r.strand],
    tt := l'.tt.map fun t => if g t then { t with released := false, tripped := false } else t }
  s.logCtx r.who 0x0E r.strand

/-- The regrow context of a core gets its channels (R93, R213). -/
def State.bindRegrow (s : State) (core : Nat) (mask : Half) : State :=
  let k := (s.core core).resetChannels mask
  s.setCore core (k.setCtx 3 { k.ctx 3 with chmask := mask })

/-- Obey the records. -/
def State.bindAll (s : State) (l : Launch) (id : Nat) (rs : List BindRec) (img : List Byte) : State :=
  let cores := (rs.map (·.who.core)).eraseDups
  let fresh := cores.filter fun c => s.freshCore c
  let masks := rs.map fun r => (r, s.maskFor l id rs r.who.core r.who.ctx)
  let regrow := if l.rc.flags.getLsbD 0 then fresh.map fun c => (c, s.maskFor l id rs c 3) else []
  let s := fresh.foldl (fun s c => match (recsOf rs c).head? with
    | some r => s.loadCore l id c img r
    | none => s) s
  let s := regrow.foldl (fun s p => s.bindRegrow p.1 p.2) s
  let s := masks.foldl (fun s p => s.bindStrand l id p.2 p.1) s
  let l := s.launch id
  let q := Map.get {} s.dev.queues l.queue
  if l.bound.length = l.strands then
    s.setDev { s.dev with
      queues := Map.put {} s.dev.queues l.queue { q with backlog := q.backlog.filter (· ≠ id) } }
  else s

/-- The records wait (R92, R276, R315). -/
def State.holdBind (s : State) (rs : List BindRec) : State :=
  s.setDev { s.dev with bindHeld := s.dev.bindHeld ++ [rs] }

/-- The image cannot be read at bind: a launch of which nothing is bound is refused (R314). -/
def State.refuseBind (s : State) (l : Launch) (id reason : Nat) (rs : List BindRec) : State :=
  let g := dispAgent id l.asid
  if !l.bound.isEmpty then s
  else
    match s.complete g l.queue l.rc 1 reason with
    | .ok s => s.closeLaunch id
    | .need x => (s.meetNeed g 0 x).holdBind rs
    | .err _ => s.closeLaunch id

/-- The launch that a list of records names. -/
def launchOf (recs : List BindRec) : Nat := (recs.headD ⟨⟨0, 0⟩, 0, 0, none, 0, [], 0⟩).launch

/-- Obey records once everything they need is free; until then they are held (R315). -/
def State.tryBind (s : State) (recs : List BindRec) : Outcome :=
  let id := launchOf recs
  let l := s.launch id
  let g := dispAgent id l.asid
  if l.strands = 0 ∨ ¬ s.recsStand l id recs then .next s
  else if !s.bindReady l id recs || (Map.get {} s.dev.asids l.asid).frozen then .next (s.holdBind recs)
  else if recs.all fun r => !s.freshCore r.who.core then .next (s.bindAll l id recs [])
  else
    match s.dispRead g true l.rc.image l.rc.size with
    | .need x => .next ((s.meetNeed g 0 x).holdBind recs)
    | .err e =>
      .next (((s.logDisp g true l.rc.image l.rc.size).engDone g).refuseBind l id e recs)
    | .ok img => .next ((s.engDone g).bindAll l id recs img)

/-- BIND_RECORD (R315). How evenly the records space their positions is settled as they are written (R276). -/
def execBindRecord (recs : List Machine.BindRec) (s : State) : Outcome :=
  if s.recsGood (s.launch (launchOf recs)) (launchOf recs) recs then s.tryBind recs else .next s

/-- CLASSIFIER_WINDOW_END (R315). -/
def execClassifierWindowEnd (core : Nat) (s : State) : Outcome :=
  let k := s.core core
  .next (if k.classDone || decide ((s.dev.cycle - k.classStart).toNat < 65536) then s
    else s.setCore core { k with classDone := true })

end Sys2Proof.Machine
end

