-- ==== Sys2Proof/Machine/Errors.lean ====
section
/-! DEFINITION. Links that go down, frozen address spaces, cores and dies that stop, and teardown (R189, R235,
R260, R362, R363, R381). -/

namespace Sys2Proof.Machine

/-! ## Links (R189, R235, R375) -/

/-- A transfer on the link of a core in a direction. -/
def onLink (core : Nat) (d : Dir) (i : Instr) : Bool := match i with
  | .huskStripTransfer c e => decide (c = core) && decide (e = d)
  | .nlStreamTransfer c e => decide (c = core) && decide (e = d)
  | _ => false

/-- Landings whose path is pinned to a port end: slots tear with cause 1, transfers end with error 6, and the
reservations can send no more (R235, R238, R240). -/
def State.cutPaths (s : State) (port : Nat) (eth : Bool) : State :=
  let at_ : Option (Bool × Nat) := some (eth, port)
  let slots := s.cores.flatMap fun k => k.2.zones.flatMap fun z => z.2.slots.filterMap fun l =>
    if l.2.port = at_ ∧ l.2.live then some (k.1, z.1, l.1) else none
  let sends := s.dev.lzSends.filter fun l => match s.heldLanding l.handle with
    | some r => decide (r.port = at_)
    | none => false
  let s := slots.foldl (fun s p => s.tearSlot p.1 p.2.1 p.2.2 1) s
  let cut (q : LzQueued) : LzQueued := if q.port = at_ then { q with cut := true } else q
  let s := { s with cores := s.cores.map fun (k : Nat × Core) => (k.1, { k.2 with lzq := k.2.lzq.map cut }) }
  let s := s.setDev { s.dev with
    lzSends := s.dev.lzSends.filter fun l => decide (l ∉ sends),
    lzOut := s.dev.lzOut.map fun o => if o.port = at_ then { o with cut := true } else o,
    lzHeld := s.dev.lzHeld.map fun r => if r.port = at_ then { r with cut := true } else r }
  sends.foldl (fun s l => s.completeXfer l.x 6) s

/-- LINK_DOWN (R189). -/
def execLinkDown (link : Machine.LinkId) (s : State) : Outcome :=
  match link with
  | .neighbour core d =>
    match s.neighbour core d with
    | none => .next s
    | some m =>
      let s := s.setCore core ((s.core core).cutLink d)
      let s := s.setCore m ((s.core m).cutLink (dirBack d))
      let s := { s with pending := s.pending.filter fun i => !onLink core d i && !onLink m (dirBack d) i }
      .next (s.log (coreDie core) 0x06 (s.core core).asid core 7 d.toNat)
  | .ngufer p =>
    let s := s.cutPaths p false
    .next ((s.setDev { s.dev with portsDown := (p :: s.dev.portsDown).eraseDups }).log 0 0x06 0 1023 7 p)
  | .ethernet p =>
    let s := s.cutPaths p true
    .next ((s.setDev { s.dev with ethDown := (p :: s.dev.ethDown).eraseDups }).log 0 0x06 0 1023 7 (64 + p))

/-! ## Frozen address spaces (R362) -/

/-- ERROR_FREEZE (R362). -/
def execErrorFreeze (asids : List Nat) (s : State) : Outcome :=
  .next (s.freezeAll asids)

/-! ## Cores that stop (R260, R359, R381) -/

/-- What an engine or a message of a core has yet to do: it is dropped when the core stops or is taken down. -/
def ofCore (core : Nat) (i : Instr) : Bool := match i with
  | .transferComplete x => decide (x.core = core)
  | .apertureStore x => decide (x.core = core)
  | .copyComplete x => decide (x.core = core)
  | .gatherRowArrive w => decide (w.core = core)
  | .heldStorePerform w => decide (w.core = core)
  | .packetFill f => decide (f.core = core)
  | .sequentialPrefetch c _ => decide (c = core)
  | .tileWriteComplete c _ => decide (c = core)
  | .huskStripTransfer c _ => decide (c = core)
  | .nlStreamTransfer c _ => decide (c = core)
  | .atomscSend w => decide (w.core = core)
  | .jobCardSteal c _ => decide (c = core)
  | .preemptGrant w => decide (w.core = core)
  | .reg m => decide (m.owner = core)
  | .grant m => decide (m.owner = core)
  | .data m => decide (m.read.who.core = core)
  | .retry m => decide (m.who.core = core)
  | .slotZeroFillComplete c _ _ => decide (c = core)
  | _ => false

/-- The homes mark every word registered to a core LOST, and each die with such homes records it (R260). -/
def State.loseWords (s : State) (core : Nat) : State :=
  let mine (o : Option Owner) : Bool := match o with
    | some o => decide (o.agent = core)
    | none => false
  let dies := ((s.dev.owner.filter fun p => mine p.2).map fun p => homeDie p.1).eraseDups
  let s := dies.foldl (fun s d => s.log d 0x10 (s.core core).asid core 7 0) s
  s.setDev { s.dev with owner := s.dev.owner.map fun p => if mine p.2 then (p.1, some ⟨ownLost, 0⟩) else p }

/-- The written words of a core's private pages are lost with it, and the pages have no owner (R260, R261). -/
def State.losePrivate (s : State) (core : Nat) : State :=
  let ws := (s.core core).l1.filterMap fun p => if p.2.st = .P ∧ p.2.dirty then some p.1 else none
  let s := ws.foldl (fun s k => s.setOwner k (some ⟨ownLost, 0⟩)) s
  s.setDev { s.dev with priv := s.dev.priv.filter fun p => decide (p.2 ≠ core) }

/-- A core stops on a hardware error (R260, R359). -/
def State.stopCore (s : State) (core : Nat) : State :=
  if (s.core core).dead then s
  else
    let s := (s.loseWords core).losePrivate core
    let s := { s with pending := s.pending.filter fun i => !ofCore core i }
    let s := (List.range 4).foldl (fun s x => s.loseMember ⟨core, x⟩ 3) s
    let s := s.failSlice ⟨core, 3⟩ cRFAIL 1 0 none
    let k := s.core core
    let s := s.setCore core { k with
      dead := true, port := none, l1 := [], regOut := [],
      ctxs := k.ctxs.map fun c => (c.1, { c.2 with
        life := (if c.2.life = .idle then .idle else .stopped), waits := [], asked := [], replies := [] }) }
    s.setDev { s.dev with lzSends := s.dev.lzSends.filter fun l => decide (l.x.core ≠ core) }

/-- CORE_HARDWARE_STOP (R260). -/
def execCoreHardwareStop (core : Nat) (s : State) : Outcome :=
  .next ((s.stopCore core).log (coreDie core) 0x09 (s.core core).asid core 7 0)

/-- PLL_LOSS_OF_LOCK (R381). -/
def execPllLossOfLock (die : Nat) (s : State) : Outcome :=
  let cores := (List.range 576).filter fun c =>
    decide (coreDie c = die) && decide (coreRow c < s.gridSize) && decide (coreCol c < s.gridSize)
  let s := cores.foldl (fun s c => s.stopCore c) s
  .next ((s.setDev { s.dev with deadDies := s.dev.deadDies ||| (1#4 <<< die) }).log die 0x09 0 1023 7 1)

/-! ## Teardown (R363) -/

/-- The cores of an address space. -/
def State.coresOf (s : State) (asid : Nat) : List Nat :=
  (s.cores.filter fun k => decide (k.2.asid = asid) && k.2.bind.isSome).map (·.1)

/-- Step 1: every context of the address space stops, and what it had saved is discarded. -/
def State.stopContexts (s : State) (asid : Nat) : State :=
  let stop (c : Ctx) : Ctx := { c with
    life := .stopped, snap := [], ckpt := none, heldE := [], waits := [], asked := [], replies := [], seg := {},
    h := false, mask := false, sv := false, hold := false, mq := [], fences := [] }
  let core (k : Core) : Core := if k.asid = asid then { k with ctxs := k.ctxs.map fun c => (c.1, stop c.2) } else k
  let s := { s with cores := s.cores.map fun (k : Nat × Core) => (k.1, core k.2) }
  s.setDev { s.dev with saved := s.dev.saved.filter fun v => match v.2 with
    | some v => decide (v.asid ≠ asid)
    | none => false }

/-- The reservations that cores hold as senders are aborted, granted or not yet: their slots tear with cause 2
(R235, R363). -/
def State.abortSends (s : State) (cores : List Nat) : State :=
  let mine := s.dev.lzHeld.filter fun r => decide (r.who.core ∈ cores)
  let queued (q : LzQueued) : Bool := decide (q.req.node = s.dev.node.toNat) && decide (q.req.who.core ∈ cores)
  let s := { s with cores := s.cores.map fun (k : Nat × Core) =>
    (k.1, { k.2 with lzq := k.2.lzq.filter fun q => !queued q }) }
  let s := mine.foldl (fun s r => s.abortHeld r.asid r.handle) s
  s.setDev { s.dev with
    lzSends := s.dev.lzSends.filter fun l => decide (l.x.core ∉ cores),
    lzHeld := s.dev.lzHeld.filter fun r => decide (r ∉ mine),
    lzOut := s.dev.lzOut.map fun o => if o.req.who.core ∈ cores then { o with gone := true } else o }

/-- Step 2: transfers end with error 8, reservations are aborted, zones tear, regrows are killed. -/
def State.endTransfers (s : State) (asid : Nat) : State :=
  let cores := s.coresOf asid
  let xs := cores.flatMap fun c => (s.core c).xfers.map fun t => (⟨c, t.ch, t.id⟩ : XferId)
  let s := xs.foldl (fun s x => s.completeXfer x 8) s
  let s := s.abortSends cores
  let s := cores.foldl (fun s c => s.reclaimZones c) s
  let tiles := (s.dev.recipes.filter fun r => decide (r.asid = asid)).map (·.tile)
  let s := { s with pending := s.pending.filter fun i => match i with
      | .regrowRequest q => decide (q.asid ≠ asid)
      | .sliceStart t => decide (t ∉ tiles)
      | _ => !cores.any fun c => ofCore c i }
  let s := (s.dev.recipes.filter fun r => decide (r.asid = asid) && decide (r.st = .absent ∨ r.st = .queued)).foldl
    (fun s r => s.zeroTile r.tile) s
  s.setDev { s.dev with
    drops := s.dev.drops.filter (· ∉ tiles),
    recipes := s.dev.recipes.filter fun r => decide (r.asid ≠ asid),
    regrows := s.dev.regrows.filter fun q => decide (q.asid ≠ asid),
    regrowWait := s.dev.regrowWait.filter fun q => decide (q.asid ≠ asid) }

/-- Step 3: the words registered to the cores, and the written ones of their private pages, are LOST, and what
their L1s hold is gone. -/
def State.loseSpace (s : State) (asid : Nat) : State :=
  (s.coresOf asid).foldl (fun s c =>
    let s := (s.loseWords c).losePrivate c
    s.setCore c { s.core c with l1 := [], regOut := [] }) s

/-- Rewrite leaf entries to class quarantined. -/
def quarantine (g : Agent) : List (Nat × Dword × Nat) → State → EngRes State
  | [], s => .ok s
  | (a, e, l) :: t, s =>
    let page := (s.key (bitsOf e 51 16 * 65536), l)
    let s := s.setDev { s.dev with quarPages := page :: s.dev.quarPages.filter (· ≠ page) }
    let x := e.toNat - bitsOf e 61 59 * 2 ^ 59 + clsQuarantined.toNat * 2 ^ 59
    match s.engPut g (s.key a) (leBytes 8 x) with
    | .ok s => quarantine g t s
    | .need n => .need n
    | .err _ => quarantine g t s

/-- Step 4: every page mapped writable is quarantined, and translations are dropped as TLBINV kind 2 drops them
(R308): here, and asked to be on the other devices. -/
def State.quarantineSpace (s : State) (asid : Nat) : EngRes State :=
  (s.leaves asid).bind fun ls =>
    (quarantine (dispAgent 0 asid) (ls.filter fun e => e.2.1.getLsbD 56 && decide (bitsOf e.2.1 61 59 ≠ 4)) s).bind fun s =>
      let (s, acks) := (s.dropTlb asid fun _ => true).tlbinvAll asid
      let a := Map.get {} s.dev.asids asid
      .ok (s.setDev { s.dev with
        asids := Map.put {} s.dev.asids asid { a with quarantined := true },
        tlbWaits := if acks.isEmpty then s.dev.tlbWaits else s.dev.tlbWaits ++ [⟨⟨1023, 0⟩, asid, acks, [], []⟩] })

/-- Every device has dropped the translations, and no access under one of them is outstanding (R308). -/
def State.tlbDropped (s : State) (asid : Nat) : Bool :=
  !s.asidBusy asid none && !s.dev.tlbWaits.any fun w => decide (w.who.core = 1023) && decide (w.slot = asid)

/-- The live launches of an address space. -/
def State.launchesOf (s : State) (asid : Nat) : List Nat :=
  (s.dev.launches.filter fun l => decide (l.2.asid = asid) && decide (l.2.strands ≠ 0)).map (·.1)

/-- The completion records of torn-down launches. -/
def completeTorn (asid : Nat) : List Nat → State → EngRes State
  | [], s => .ok s
  | n :: t, s =>
    let l := s.launch n
    (s.complete (dispAgent n asid) l.queue l.rc 2 0).bind fun s => completeTorn asid t (s.closeLaunch n)

/-- Step 5: completions, and each core leaves the address space. -/
def State.leaveSpace (s : State) (asid : Nat) : EngRes State :=
  let cores := s.coresOf asid
  (completeTorn asid (s.launchesOf asid) s).bind fun s =>
    let s := cores.foldl (fun s c =>
      let s := s.changeSpace c
      s.setCore c { s.core c with
        asid := 0, bind := none, wheel := [], claims := [], xdone := [], cnext := [], cdone := [], cerr := 0 }) s
    .ok (s.setDev { s.dev with
      asids := Map.put {} s.dev.asids asid {},
      bindHeld := s.dev.bindHeld.filter fun rs => match rs.head? with
        | some r => decide ((s.launch r.launch).strands ≠ 0)
        | none => false })

/-- A step of a teardown is recorded, and the rings freeze (R363, R366). -/
def State.logTear (s : State) (asid n : Nat) : State := s.logDies 0x0C asid n

/-- Steps 1 to 3, made once. -/
def State.beginTear (s : State) (asid : Nat) : State :=
  let a := Map.get {} s.dev.asids asid
  if a.tearing then s
  else
    let s := s.setDev { s.dev with asids := Map.put {} s.dev.asids asid { a with frozen := true, tearing := true } }
    let s := (s.stopContexts asid).logTear asid 1
    let s := (s.endTransfers asid).logTear asid 2
    (s.loseSpace asid).logTear asid 3

/-- Step 4, made once: what it still needs, if anything. -/
def State.quarantineOnce (s : State) (asid : Nat) : State × Option Need :=
  if (Map.get {} s.dev.asids asid).quarantined then (s, none)
  else
    match s.quarantineSpace asid with
    | .ok s => (s.logTear asid 4, none)
    | .need n => (s, some n)
    | .err _ => (s, none)

/-- Step 5, once step 4 has been made everywhere. -/
def State.finishTear (s : State) (asid : Nat) : EngRes State :=
  if !s.tlbDropped asid then .need .wait
  else (s.leaveSpace asid).bind fun s => .ok (s.logTear asid 5)

end Sys2Proof.Machine
end

