-- ==== Sys2Proof/Machine/Fn.lean ====
section
/-! DEFINITION. The F-slot instructions (R142, R143). -/

namespace Sys2Proof.Machine

/-- An F op: class F alone, correctly rounded by RNE, latency 12, occupancy 4 (R102, R142). -/
def State.fnOp (s : State) (d : BitVec 7) (vs : List (BitVec 7)) (f : FltFmt → Nat → Nat × Flags) : OpRes :=
  s.vecOp (d :: vs) isF fun s =>
    if s.regs.occF ≠ 0 then s.struct_ 1
    else
      let fmt := shapeFmt s.shape
      let (xs, fl) := eachElem (fun i _ =>
        match fmt with
        | .flt g => f g i
        | _ => (0, 0)) (shapeN s.shape) 0 0
      .done ((s.setRegs { s.regs with occF := 4 }).deliverV d (packed fmt xs) 12 fl none)

/-- The function with number `fn` on each element of a register (R143). -/
def State.function (s : State) (fn : Nat) (d a : BitVec 7) : OpRes :=
  s.fnOp d [a] fun f i => f.elementary (shapeCode s.shape) fn (s.elem (readV s.regs a) i)

/-- FEXP2 (R143). -/
def execFexp2 (g : Guard) (d : BitVec 7) (a : BitVec 7) (s : State) : Outcome :=
  s.slotOp g (.fexp2 g d a) fun s => s.function 1 d a

/-- FLOG2 (R143). -/
def execFlog2 (g : Guard) (d : BitVec 7) (a : BitVec 7) (s : State) : Outcome :=
  s.slotOp g (.flog2 g d a) fun s => s.function 2 d a

/-- FRECIP (R143). -/
def execFrecip (g : Guard) (d : BitVec 7) (a : BitVec 7) (s : State) : Outcome :=
  s.slotOp g (.frecip g d a) fun s => s.function 3 d a

/-- FRSQRT (R143). -/
def execFrsqrt (g : Guard) (d : BitVec 7) (a : BitVec 7) (s : State) : Outcome :=
  s.slotOp g (.frsqrt g d a) fun s => s.function 4 d a

/-- FSQRT (R143). -/
def execFsqrt (g : Guard) (d : BitVec 7) (a : BitVec 7) (s : State) : Outcome :=
  s.slotOp g (.fsqrt g d a) fun s => s.function 5 d a

/-- FTANH (R143). -/
def execFtanh (g : Guard) (d : BitVec 7) (a : BitVec 7) (s : State) : Outcome :=
  s.slotOp g (.ftanh g d a) fun s => s.function 6 d a

/-- FSIGM (R143). -/
def execFsigm (g : Guard) (d : BitVec 7) (a : BitVec 7) (s : State) : Outcome :=
  s.slotOp g (.fsigm g d a) fun s => s.function 7 d a

/-- FSIN (R143). -/
def execFsin (g : Guard) (d : BitVec 7) (a : BitVec 7) (s : State) : Outcome :=
  s.slotOp g (.fsin g d a) fun s => s.function 8 d a

/-- FCOS (R143). -/
def execFcos (g : Guard) (d : BitVec 7) (a : BitVec 7) (s : State) : Outcome :=
  s.slotOp g (.fcos g d a) fun s => s.function 9 d a

/-- FDIV (R143). -/
def execFdiv (g : Guard) (d : BitVec 7) (a : BitVec 7) (b : BitVec 7) (s : State) : Outcome :=
  s.slotOp g (.fdiv g d a b) fun s =>
    s.fnOp d [a, b] fun f i =>
      f.divide (shapeCode s.shape) (s.elem (readV s.regs a) i) (s.elem (readV s.regs b) i)

end Sys2Proof.Machine
end

