-- ==== Sys2Proof/Machine/Package.lean ====
section
/-! DEFINITION. The package: power, bring-up, the management port, and SPDM (R366, R377 to R382, R385, R386). -/

namespace Sys2Proof.Machine

/-- An answer over a port: its words. -/
def State.answerPort (s : State) (port : Nat) (ws : List Dword) : State :=
  s.setDev { s.dev with answers := s.dev.answers ++ [(port, ws)] }

/-! ## Images (R377) -/

/-- An image as the number that its digest is taken over, and whether its signature verifies under the fused key. -/
def imageNumber (bs : List Byte) : Nat := leNat (bs ++ [1])
def imageVerifies (bs : List Byte) : Bool := Config.sm2Verifies Config.fuseKey (Config.sm3 (imageNumber bs)) bs

/-! ## SPDM (R378) -/

/-- What a measurement's digest is taken over: the boot ROM and the fuses never change; the firmware is the
image installed; the configuration is that of partitions, protection and ranges. -/
def State.measured (s : State) (index : Nat) : Nat :=
  let mix (l : List Nat) : Nat := l.foldl (fun a x => a * 2 ^ 64 + x % 2 ^ 64) 1
  if index = 2 then imageNumber s.dev.firmware
  else if index = 4 then
    index + 8 * mix ((s.dev.parts.flatMap fun p => [p.pods.toNat, p.length]) ++ [s.dev.twin.toNat] ++
      s.dev.ranges.flatMap fun r => match r.2 with
        | some h => [r.1, h.host.toNat, h.base, h.size]
        | none => [])
  else index

/-- A number of `n` double words. -/
def wordsOfNat (n x : Nat) : List Dword := (List.range n).map fun i => BitVec.ofNat 64 (x / 2 ^ (64 * i))

/-- The port that SPDM answers stand under, the answer's code, and the algorithm pair of R378 as the model
numbers it. -/
def spdmPort (port : Nat) : Nat := 0x4000 + port
def spdmError : Dword := 0x7F

/-- SPDM_REQUEST (R378). -/
def execSpdmRequest (port alg index : Nat) (s : State) : Outcome :=
  if port ∈ s.dev.portsDown then .next s
  else if alg ≠ 0 ∨ index < 1 ∨ 4 < index then .next (s.answerPort (spdmPort port) [spdmError])
  else
    let m := s.measured index
    .next (s.answerPort (spdmPort port)
      (BitVec.ofNat 64 index :: (wordsOfNat 4 (Config.sm3 m) ++ wordsOfNat 8 (Config.sm2 m))))

/-! ## The management port (R366, R385) -/

/-- I3C_READ_BLACK_BOX (R385): the events, and for each double fault the two causes with their TRAPINFO (R353). -/
def execI3cReadBlackBox (die : Nat) (s : State) : Outcome :=
  let b := Map.get {} s.dev.bbox die
  let s := s.answerPort (0x3000 + die) (b.events.flatMap fun e => [e.1, e.2])
  let s := s.answerPort (0x3400 + die) (b.doubles.flatMap fun d => [d.1.setWidth 64, d.2.1, d.2.2.1.setWidth 64, d.2.2.2])
  .next (s.setDev { s.dev with bbox := Map.put {} s.dev.bbox die { b with frozen := false } })

/-- I3C_READ_POWER_SAMPLES (R385). -/
def execI3cReadPowerSamples (s : State) : Outcome :=
  let recent := s.dev.samples.drop (s.dev.samples.length - 1024)
  .next (s.answerPort 0x3100 (recent.map fun p => BitVec.ofNat 64 (p.watts + p.amps * 2 ^ 32)))

/-- I3C_READ_BRINGUP_STATUS (R385). -/
def execI3cReadBringupStatus (s : State) : Outcome :=
  .next (s.answerPort 0x3200 [BitVec.ofNat 64 (s.dev.bringup.toNat + if s.dev.verified then 256 else 0)])

/-- I3C_WRITE_POWER_CAP (R385). -/
def execI3cWritePowerCap (watts : Nat) (s : State) : Outcome :=
  .next (if s.dev.form = 2 ∧ watts ≤ 750 then s.setDev { s.dev with pwrCap := watts } else s)

/-! ## Power (R377, R379, R382, R386) -/

/-- The pods of a part. -/
def podsOf (form : BitVec 2) : BitVec 36 :=
  if form = 2 then BitVec.ofNat 36 (0x7 + 0x7 * 2 ^ 6 + 0x7 * 2 ^ 12) else BitVec.allOnes 36

/-- The first step of bring-up that fails: a stated failure, or the verification of step 2. -/
def PowerUp.failed (p : PowerUp) : BitVec 3 :=
  if imageVerifies p.image ∨ (p.fail = 1#3) then p.fail else 2

/-- The mailbox bytes that report a failed bring-up: the status word of slot 0, refused with reason 6. -/
def bringupStatus (step : BitVec 3) : Map Byte := if step = 0 then [] else [(128, 1), (129, 6)]

/-- The host ports negotiate: one whose partner offers no supported mode stays down, and that is recorded (R367). -/
def State.negotiate (s : State) (l : HostLink) : State :=
  let s := s.setDev { s.dev with pbr := Map.put 0 s.dev.pbr l.port l.pbr }
  if l.supported then s
  else (s.setDev { s.dev with portsDown := l.port :: s.dev.portsDown }).log 0 0x06 0 1023 7 l.port

/-- POWER_ON (R382). Everything that power applied leaves as after reset; a step that fails is reported, and every later
step is undone. -/
def execPowerOn (p : Machine.PowerUp) (s : State) : Outcome :=
  let step := p.failed
  let up : State := { State.reset with
    tick := s.tick, pending := s.pending,
    dev := {
      form := p.form, verified := imageVerifies p.image && decide (step ≠ 2), firmware := p.image, bringup := step, pwrCap := if p.form = 2 then 750 else 3000,
      parts := [⟨podsOf p.form, 1, 0, false, 0, 0⟩], mbox := { bytes := bringupStatus step } } }
  .next (if s.dev.power then s
    else if step = 0 ∨ step = 7 then p.hosts.foldl State.negotiate up else up)

/-- POWER_LOSS (R386). Nothing in the package runs or survives; what applies power again is outside. -/
def execPowerLoss (s : State) : Outcome :=
  let on (i : Instr) : Bool := match i with
    | .powerOn _ => true
    | _ => false
  .next { State.reset with tick := s.tick, pending := s.pending.filter on, dev := { power := false } }

end Sys2Proof.Machine
end

