-- ==== Sys2Proof/Machine/Preempt.lean ====
section
/-! DEFINITION. Pre-emption: the request, the save and the restore (R345, R346). -/

namespace Sys2Proof.Machine

/-- PREEMPT_REQUEST (R345). -/
def execPreemptRequest (who : Machine.Who) (s : State) : Outcome :=
  let c := s.ctx who
  if c.strand.isNone ∨ c.preempt then .next s
  else if c.regs.snapbase = 0 then .next (s.tell (.notPreemptible who))
  else .next ((s.setCtx who { c with preempt := true }).post (.preemptGrant who))

/-- The image that the save writes (R346). -/
def State.saveImage (s : State) (w : Who) : List Byte :=
  let c := s.ctx w
  let b := (s.core w.core).binding
  scalarBytes (imageOf
    { asid := b.asid, v := true, kind := 1, who := w, cause := c.trapcause, info := c.trapinfo, pc := c.trappc,
      resume := c.regs.pc.toNat, status := c.status, mask := 0, draw := c.regs.lfsr, pbs := b.pbs, win := b.w }
    c.regs []) ++ vectorBytes c.regs b.w

/-- The saved context is free; its channels and queues stay on the core (R346). -/
def State.freeSaved (s : State) (w : Who) : State :=
  let c := s.ctx w
  match c.strand with
  | none => s
  | some st =>
    let l := s.launch st.launch
    let s := s.setLaunch st.launch { l with
      at_ := Map.put none l.at_ st.num none, dirty := l.dirty ++ c.dirty.map (fun d => (w.core, d.word)),
      left := l.left ++ ((s.core w.core).xfers.filter fun t => t.ctx = w.ctx).map fun t => ⟨w.core, t.ch, t.id⟩ }
    let v : Saved := ⟨c.regs.snapbase.toNat * 4096, (s.core w.core).asid, st, w, c.chmask, c.prio, c.seg⟩
    let s := s.setDev { s.dev with
      saved := Map.put none s.dev.saved s.dev.nextSaved (some v), nextSaved := s.dev.nextSaved + 1 }
    s.setCtx w { c with
      life := .idle, regs := {}, strand := none, waits := [], asked := [], replies := [], dirty := [], seg := {},
      ckpt := none, fences := [], preempt := false, h := false, mask := false, gangAbort := none }

/-- PREEMPT_GRANT (R346). -/
def execPreemptGrant (who : Machine.Who) (s : State) : Outcome :=
  let c := s.ctx who
  let again : Instr := .preemptGrant who
  if c.strand.isNone ∨ ¬ c.preempt then .next s
  else if c.life ≠ .saving then
    if s.canSave who then
      let s := s.endRewindOf who
      .next ((s.setCtx who { s.ctx who with
        life := .saving, waits := [], asked := [], replies := [] }).post again)
    else if decide (c.life = .running) || decide (c.life = .frozen) then .next (s.post again)
    else .next (s.setCtx who { c with preempt := false })
  else if !c.allPerformed 2 then .next (s.post again)
  else
    let g := s.agent who 21 0
    match s.engWriteVa g (c.regs.snapbase.toNat * 4096) (s.saveImage who) with
    | .ok s => .next ((s.engDone g).freeSaved who)
    | .need n => .next ((s.meetNeed g (c.regs.snapbase.toNat * 4096) n).post again)
    | .err e =>
      let s := (s.engFailed g (c.regs.snapbase.toNat * 4096) 0x1F400 .write e).engDone g
      .next (s.setCtx who { c with life := .running, preempt := false })

/-! ## Restoring (R346, R352) -/

/-- The image fits the context (R352). -/
def State.restoreFits (s : State) (who : Who) (v : Saved) (m : Map Dword) : Bool :=
  let h := imgWord m 0
  let b := (s.core who.core).binding
  let far : Bool := decide (h / 2 ^ 22 % 1024 ≠ who.core)
  let whole : Bool := h / 2 ^ 16 % 2 = 1
  decide (h % 2 ^ 16 = v.asid) && (whole || (!far && decide (h / 2 ^ 19 % 8 = who.ctx))) &&
    (!far || (decide (imgWord m 7 = b.pbs) && decide (imgWord m 9 % 128 = b.w) && decide (s.holdsOf v.src = 0)))

/-- The wheel positions of a strand move with it to another core (R276). -/
def State.moveStrandWheel (s : State) (each src dst : Nat) : State :=
  if src = dst then s
  else
    let k := s.core src
    let s := s.setCore dst { s.core dst with wheel := (s.core dst).wheel ++ k.wheel.take each }
    s.setCore src { k with wheel := k.wheel.drop each }

/-- GANGABORT for a member of the strand's gang that was lost while the strand was saved (R359). -/
def Launch.abortFor (l : Launch) (k : Nat) : Option Dword :=
  match innerGang l.rc with
  | none => none
  | some n =>
    (l.lost.find? fun p => decide (p.1 ≠ k) && decide (p.1 ∈ groupMembers l n k)).map fun p =>
      BitVec.ofNat 64 (p.2 * 2 ^ 20 + n * 2 ^ 16 + lvlIndex (levelsOf l.rc) n p.1)

/-- The slots of the bundle that a restored image's replay mask is held against (R341); the packet is read as the
restore's own access where it is not cached. -/
def State.restoredSlots (s : State) (g : Agent) (m : Map Dword) : EngRes Nat :=
  let pc : Addr := BitVec.ofNat 52 (imgWord m 3)
  let k := s.core g.core
  let slots (k : Core) : Nat := match k.fetch false pc with
    | .bundle _ ops _ _ => (ops.map fun o => 2 ^ o.1).sum
    | _ => 0
  let line := pc.toNat / 64
  if imgWord m 8 % 2 ^ 32 = 0 ∨ !(Map.get [] k.pkts line).isEmpty then .ok (slots k)
  else
    match s.engReadVa g (64 * line) 64 with
    | .ok bs => .ok (slots { k with pkts := Map.put [] k.pkts line bs })
    | .need n => .need n
    | .err _ => .ok (2 ^ 11 - 1)

/-- The strand goes on in its new context, by the effects of SNAPLD and TRET; `present` are the slots of the bundle at
the image's TRAPPC. -/
def State.restoreStrand (s : State) (who : Who) (n : Nat) (v : Saved) (m : Map Dword) (vec : List Byte)
    (present : Nat) : State :=
  let l := s.launch v.strand.launch
  let s := s.moveStrandWheel l.rc.wheelEach v.src.core who.core
  let s := s.setLaunch v.strand.launch { l with at_ := Map.put none l.at_ v.strand.num (some who) }
  let s := s.setDev { s.dev with saved := Map.put none s.dev.saved n none }
  let s := if who = v.src then s else s.setCore who.core ((s.core who.core).newStrand who.ctx)
  let old := s.ctx who
  let ch := if who = v.src then v.chmask else old.chmask
  let regs := if imgWord m 0 / 2 ^ 16 % 2 = 1 then regsOfVector vec {} else {}
  let c := { old.enter regs v.prio ch with
    strand := some v.strand, snap := m, sv := true, seg := v.seg, gangAbort := l.abortFor v.strand.num,
    gqt := old.gqt, gqAddr := old.gqAddr, gqData := old.gqData, celast := old.celast }
  let s := s.setCtx who c
  if c.imageBad present then
    (s.setCtx who { c with h := true, mask := true }).tretFails who (BitVec.ofNat 64 (0x24000000 + 2 * 2 ^ 36))
  else s.returnFromTrap who

/-- The context can take the strand: it is free on a core that is bound to the launch. -/
def State.canRestore (s : State) (who : Who) (v : Saved) : Bool :=
  let c := s.ctx who
  let b := (s.core who.core).binding
  decide (c.life = .idle) && c.strand.isNone && c.slice.isNone && c.acc.isEmpty && c.mq.isEmpty &&
    decide (who.ctx < (if b.recipes then 3 else 4)) && !(s.core who.core).dead &&
    decide (b.launch = v.strand.launch) && decide ((s.core who.core).asid = v.asid) &&
    (decide (who = v.src) || c.gqAddr.isEmpty)

/-- STRAND_RESTORE (R346). -/
def execStrandRestore (who : Machine.Who) (saved : Nat) (s : State) : Outcome :=
  let again : Instr := .strandRestore who saved
  match Map.get none s.dev.saved saved with
  | none => .next s
  | some v =>
    if !s.canRestore who v then .next (s.post again)
    else
      let g : Agent := ⟨who.core, who.ctx, v.asid, ⟨who.core, 21, 1⟩⟩
      match s.engReadVa g v.base 0x1F400 with
      | .need n => .next ((s.meetNeed g v.base n).post again)
      | .err e => .next (((s.engFailed g v.base 0x1F400 .read e).engDone g).post again)
      | .ok bs =>
        let m := imageOfBytes (bs.take 4096)
        match s.restoredSlots g m with
        | .need n => .next ((s.meetNeed g (imgWord m 3 / 64 * 64) n).post again)
        | .err _ => .next ((s.engDone g).post again)
        | .ok present =>
          let s := s.engDone g
          if s.restoreFits who v m then .next (s.restoreStrand who saved v m (bs.drop 4096) present)
          else .next (s.post again)

end Sys2Proof.Machine
end

