-- ==== Sys2Proof/Machine/Mailbox.lean ====
section
/-! DEFINITION. The management mailbox: its slots, its commands, and bias flips (R364, R371, R375, R383, R384). -/

namespace Sys2Proof.Machine

/-! ## Slots (R310, R383) -/

/-- A slot whose command has been accepted and has yet to complete. -/
def Device.slotBusy (d : Device) (k : Nat) : Bool :=
  d.mbox.accepted.any (fun c => decide (c.slot = k)) || d.flips.any (fun f => decide (f.cmd.slot = k)) ||
    d.queues.any fun q => match q.2.closing with
      | some c => decide (c.slot = k)
      | none => false

def State.setMbox (s : State) (m : Mailbox) : State := s.setDev { s.dev with mbox := m }

/-- The monitor looks at the mailbox's next slot, and goes on while it accepts. -/
def State.watchMbox (s : State) : Nat → State
  | 0 => s
  | n + 1 =>
    let m := s.dev.mbox
    let k := m.k.toNat
    let b := Map.get 0 m.bytes (sealAt k)
    if !b.getLsbD 7 || s.dev.slotBusy k then s
    else if b.toNat ≠ 128 + m.e.toNat then
      (s.setMbox { m with bytes := Map.put 0 m.bytes (sealAt k) 0 }).log 0 0x17 0 1023 7 (65536 + k)
    else
      (s.setMbox { m with
        e := m.e + 1, k := m.k + 1, accepted := m.accepted ++ [⟨k, slotBytes m.bytes k⟩] }).watchMbox n

/-- The mailbox is open: bring-up has succeeded, or only a new firmware image is awaited (R377, R382). -/
def Device.mboxOpen (d : Device) : Bool := decide (d.bringup = 0) || decide (d.bringup = 2)

/-- MAILBOX_STORE (R383). A store that lacks the write right is refused (R306). -/
def execMailboxStore (m : Machine.ApStore) (s : State) : Outcome :=
  let b := s.dev.mbox.bytes
  let refused := s.apertureRefused m (2 ^ 43 + m.off) 1
  if refused.isSome then .next (s.logRefusedBy refused m.asid)
  else if m.cached || !s.dev.mboxOpen then .next (s.log 0 0x12 m.asid 1023 7 65536)
  else
    let l := openBytes b m
    let s := if l.length < m.bytes.length then s.log 0 0x12 m.asid 1023 7 65536 else s
    .next ((s.setMbox { s.dev.mbox with bytes := windowWrite b l }).watchMbox 16)

/-! ## Commands (R384) -/

/-- A field of a command. -/
def Cmd.arg (c : Cmd) (o n : Nat) : Nat := recField c.bytes o n

/-- Every argument byte outside the listed fields is zero. -/
def Cmd.plain (c : Cmd) (listed : List (Nat × Nat)) : Bool :=
  (List.range 120).all fun i =>
    listed.any (fun f => decide (f.1 ≤ 8 + i) && decide (8 + i < f.1 + f.2)) || decide (c.arg (8 + i) 1 = 0)

/-- The command is no longer among those that wait to run. -/
def State.dropCmd (s : State) (c : Cmd) : State :=
  s.setMbox { s.dev.mbox with accepted := s.dev.mbox.accepted.filter (· ≠ c) }

/-- Bytes of a command's slot. -/
def State.putSlot (s : State) (c : Cmd) (o : Nat) (bs : List Byte) : State :=
  s.setMbox { s.dev.mbox with bytes := putBytes s.dev.mbox.bytes (256 * c.slot + o) bs }

/-- The command goes on in the background: its status reads 2. -/
def State.goOn (s : State) (c : Cmd) : State := (s.dropCmd c).putSlot c 128 (leBytes 8 2)

/-- The command ends: values, then status, then the seal (R383, R384). -/
def State.finishCmd (s : State) (c : Cmd) (status reason : Nat) (vals : List Byte) : State :=
  let s := (s.dropCmd c).putSlot c 136 vals
  let s := s.putSlot c 128 (leBytes 8 (status + 256 * reason))
  (s.putSlot c 255 [0]).watchMbox 16

/-- The command waits: its status reads 2 meanwhile (R383). -/
def State.waitCmd (s : State) (c : Cmd) : State := s.putSlot c 128 (leBytes 8 2)

def State.doneCmd (s : State) (c : Cmd) : State := s.finishCmd c 0 0 []
def State.refuseCmd (s : State) (c : Cmd) (reason : Nat) : State := s.finishCmd c 1 reason []

/-- A command with well-formed arguments runs; one whose firmware was not verified accepts nothing but a new
image (R377). -/
def State.command (s : State) (c : Cmd) (listed : List (Nat × Nat)) (ok : Bool) (body : Outcome) : Outcome :=
  if !s.dev.verified then .next (s.refuseCmd c 6)
  else if !c.plain listed || !ok then .next (s.refuseCmd c 2)
  else body

def State.asid (s : State) (a : Nat) : Asid := Map.get {} s.dev.asids a

/-- CREATE_ASID (R384). -/
def execCreateAsid (c : Machine.Cmd) (s : State) : Outcome :=
  let a := c.arg 8 2
  let root := c.arg 16 8
  s.command c [(8, 2), (16, 8)] (decide (a ≠ 0) && decide (root % 65536 = 0) && decide (root < 2 ^ 52)) <|
    if (s.asid a).frozen then .next (s.refuseCmd c 7)
    else if (s.asid a).bound then .next (s.refuseCmd c 3)
    else .next ((s.setDev { s.dev with
      asids := Map.put {} s.dev.asids a { bound := true, root := root } }).doneCmd c)

/-- BIND_QUEUE (R384). -/
def execBindQueue (c : Machine.Cmd) (s : State) : Outcome :=
  let q := c.arg 8 2
  let a := c.arg 10 2
  let old := Map.get {} s.dev.queues q
  s.command c [(8, 2), (10, 2), (12, 1)] (decide (c.arg 12 1 < 16)) <|
    if (s.asid a).frozen then .next (s.refuseCmd c 7)
    else if !(s.asid a).bound then .next (s.refuseCmd c 5)
    else if old.bound then .next (s.refuseCmd c 3)
    else .next ((s.setDev { s.dev with
      queues := Map.put {} s.dev.queues q
        { bound := true, asid := a, prio := BitVec.ofNat 4 (c.arg 12 1), window := old.window } }).doneCmd c)

/-- The queue has launches that have not completed. -/
def State.queueLive (s : State) (q : Nat) : Bool :=
  s.dev.launches.any fun l => decide (l.2.queue = q) && decide (l.2.strands ≠ 0)

/-- A window whose seal bytes are zero. -/
def clearSeals (m : Map Byte) : Map Byte := (List.range 16).foldl (fun m k => Map.put 0 m (sealAt k) 0) m

/-- The queue that a command closes is unbound once none of its launches is left. -/
def State.closeQueue (s : State) (c : Cmd) : State :=
  let q := c.arg 8 2
  let old := Map.get {} s.dev.queues q
  if decide (old.closing = some c) && !s.queueLive q then
    (s.setDev { s.dev with queues := Map.put {} s.dev.queues q { window := clearSeals old.window } }).doneCmd c
  else s

/-- UNBIND_QUEUE (R384). -/
def execUnbindQueue (c : Machine.Cmd) (s : State) : Outcome :=
  let q := c.arg 8 2
  let old := Map.get {} s.dev.queues q
  s.command c [(8, 2)] true <|
    if !old.bound then .next (s.refuseCmd c 5)
    else if old.closing.isSome then .next (s.refuseCmd c 3)
    else
      let s := s.setDev { s.dev with
        queues := Map.put {} s.dev.queues q { old with closing := some c, window := clearSeals old.window },
        spawnQ := s.dev.spawnQ.filterMap fun p =>
          (let l := p.2.filter fun r => decide (r.1 ≠ q); if l.isEmpty then none else some (p.1, l)) }
      .next ((s.goOn c).closeQueue c)

/-- UNBIND_QUEUE_DONE (R384). -/
def execUnbindQueueDone (c : Machine.Cmd) (s : State) : Outcome :=
  .next (s.closeQueue c)

/-! ## Access tables (R306) -/

/-- A target that the part has: its kind and index. -/
def State.targetOk (s : State) (kind i : Nat) : Bool :=
  if kind = 0 then decide (i < (if s.dev.form = 2 then 2 else 8))
  else if kind = 1 then decide (i < s.dies * 144)
  else if kind = 2 then decide (coreRow i < s.gridSize) && decide (coreCol i < s.gridSize)
  else if kind = 3 then decide (i < 2)
  else decide (kind = 4) && decide (i = 0)

/-- The table of a command's target. -/
def Cmd.target (c : Cmd) : Nat := c.arg 8 1 * 65536 + c.arg 10 2

def State.table (s : State) (t : Nat) : Table := Map.get {} s.dev.tables t

def State.setTable (s : State) (t : Nat) (x : Table) : State :=
  s.setDev { s.dev with tables := Map.put {} s.dev.tables t x }

/-- A request in flight to a target: its master's node and ASID, and the tables that it meets (R306). -/
def State.requestOf (s : State) (i : Instr) : Option (Nat × Nat × List Nat) :=
  let at_ (node asid k : Nat) := some (node, asid, (targetsOf k).map (·.1))
  let own (core k : Nat) := at_ s.dev.node.toNat (s.core core).asid k
  match i with
  | .reg m => own m.owner m.word
  | .read m => own m.who.core m.word
  | .bypassWrite m => own m.who.core m.word
  | .atomicAtHome m => own m.who.core m.pa
  | .atomscArrive m => own m.who.core m.pa
  | .atomscApply m => own m.who.core m.pa
  | .packetFill f => own f.core (s.key f.pa)
  | .windowStore q m => at_ m.node m.asid (2 ^ 39 + 4096 * q + m.off)
  | .mailboxStore m => at_ m.node m.asid (2 ^ 43 + m.off)
  | .lzresMsg q => some (q.node, q.asid, [2 * 65536 + q.core])
  | .lzpkt p => some (p.node, p.asid, [2 * 65536 + p.core])
  | _ => none

/-- A request of a master that `who` names is in flight at a target: its table is not rewritten yet (R306). A walk that
is going, and a transfer whose piece at hand waits for an answer, may have one at any target. -/
def State.tableBusy (s : State) (t : Nat) (who : Nat → Nat → Bool) : Bool :=
  let meets (node asid k : Nat) : Bool := who node asid && (targetsOf k).any fun x => x.1 = t
  (s.pending.any fun i => match s.requestOf i with
    | some (node, asid, ts) => who node asid && decide (t ∈ ts)
    | none => false) ||
  (s.dev.natHeld.any fun m => meets m.src.toNat m.asid.toNat m.pa.toNat) ||
  (s.pending.any fun i => match i with
    | .walkComplete w => who s.dev.node.toNat w.asid
    | _ => false) ||
  (s.cores.any fun k => k.2.xfers.any fun x => x.cur.isSome && who s.dev.node.toNat x.asid) ||
  s.dev.hostHeld.any fun h => meets (hostNode h.2) 0 (h.2.half * 64)

/-- MAP_ACCESS_GROUP (R384). -/
def execMapAccessGroup (c : Machine.Cmd) (s : State) : Outcome :=
  let t := s.table c.target
  let key := c.arg 12 1 * 65536 + c.arg 14 2
  let remote := t.groups.filter fun p => decide (p.1 / 65536 ≠ s.dev.node.toNat) && decide (p.1 ≠ key)
  s.command c [(8, 1), (10, 2), (12, 1), (14, 2), (16, 1)] (s.targetOk (c.arg 8 1) (c.arg 10 2)) <|
    if (s.asid (c.arg 14 2)).frozen then .next (s.refuseCmd c 7)
    else if c.arg 12 1 ≠ s.dev.node.toNat ∧ c.arg 16 1 ≠ 0 ∧ 1024 ≤ remote.length then .next (s.refuseCmd c 4)
    else if s.tableBusy c.target fun node asid => decide (node * 65536 + asid = key) then .next (s.waitCmd c)
    else .next ((s.setTable c.target { t with
      groups := Map.put 0 t.groups key (BitVec.ofNat 8 (c.arg 16 1)) }).doneCmd c)

/-- SET_REGION (R384). -/
def execSetRegion (c : Machine.Cmd) (s : State) : Outcome :=
  let t := s.table c.target
  let n := c.arg 16 1
  let lo := c.arg 24 8
  let hi := c.arg 32 8
  let clash := t.regions.any fun r => decide (r.1 ≠ n) && overlaps r.2.1 r.2.2 lo hi
  let fits := s.targetOk (c.arg 8 1) (c.arg 10 2) && decide (n < 64) && decide (lo ≤ hi) && !clash
  s.command c [(8, 1), (10, 2), (16, 1), (24, 8), (32, 8)] fits <|
    if s.tableBusy c.target fun _ _ => true then .next (s.waitCmd c)
    else .next ((s.setTable c.target { t with regions := Map.put (0, 0) t.regions n (lo, hi) }).doneCmd c)

/-- SET_RIGHTS (R384). -/
def execSetRights (c : Machine.Cmd) (s : State) : Outcome :=
  let t := s.table c.target
  let held (node asid : Nat) : Bool := decide ((Map.get 0 t.groups (node * 65536 + asid)).toNat = c.arg 12 1)
  s.command c [(8, 1), (10, 2), (12, 1), (16, 32)] (s.targetOk (c.arg 8 1) (c.arg 10 2)) <|
    if s.tableBusy c.target held then .next (s.waitCmd c)
    else .next ((s.setTable c.target { t with
      rights := Map.put 0 t.rights (c.arg 12 1) (BitVec.ofNat 256 (c.arg 16 32)) }).doneCmd c)

/-! ## Partitions, protection, classes (R324, R330, R331, R361) -/

/-- The pods on which bound strands of launches that `p` selects run. -/
def State.boundPods (s : State) (p : Launch → Bool) : List Nat :=
  (s.dev.launches.filter fun l => p l.2).flatMap fun l => l.2.live.map fun w => corePod w.core

/-- A mask of pods that the part has. -/
def State.podMaskOk (s : State) (m : Nat) : Bool :=
  decide (m ≠ 0) && decide (m < 2 ^ 36) && decide (BitVec.ofNat 36 m &&& ~~~(podsOf s.dev.form) = 0)

/-- DEFINE_PARTITION (R384). -/
def execDefinePartition (c : Machine.Cmd) (s : State) : Outcome :=
  let m : BitVec 36 := BitVec.ofNat 36 (c.arg 8 5)
  let touched := s.dev.parts.filter fun p => decide (p.pods &&& m ≠ 0)
  let busy := (s.boundPods fun l => !l.tt.isEmpty).any fun p => m.getLsbD p || touched.any fun x => x.pods.getLsbD p
  s.command c [(8, 5), (16, 2)] (s.podMaskOk (c.arg 8 5)) <|
    if busy then .next (s.refuseCmd c 3)
    else
      let rest := s.dev.parts.filterMap fun p =>
        if p.pods &&& ~~~m = 0 then none else some { p with pods := p.pods &&& ~~~m }
      .next ((s.setDev { s.dev with parts := rest ++ [⟨m, c.arg 16 2 + 1, 0, false, 0, 0⟩] }).doneCmd c)

/-- SET_PROTECTION (R384). -/
def execSetProtection (c : Machine.Cmd) (s : State) : Outcome :=
  let m : BitVec 36 := BitVec.ofNat 36 (c.arg 8 5)
  s.command c [(8, 5), (16, 1)] (s.podMaskOk (c.arg 8 5) && decide (c.arg 16 1 < 2)) <|
    if (s.boundPods fun _ => true).any fun p => m.getLsbD p then .next (s.refuseCmd c 3)
    else .next ((s.setDev { s.dev with
      twin := if c.arg 16 1 = 1 then s.dev.twin ||| m else s.dev.twin &&& ~~~m }).doneCmd c)

/-- A rate in whole grains of a resource whose capacity has `grains` of them (R331). -/
def rateGrains (rate cap grains : Nat) : Nat := (rate * grains + cap - 1) / cap

/-- The reserved rates on a resource, the class under definition left out, stay within 90 % with a new rate, each in
whole grains (R331). -/
def State.rateFits (s : State) (n : Nat) (f : RClass → Nat) (rate cap grains : Nat) : Bool :=
  let others := s.dev.rclass.map fun p => if p.1 = n then 0 else match p.2 with
    | some r => rateGrains (f r) cap grains
    | none => 0
  decide ((others.sum + rateGrains rate cap grains) * 10 ≤ grains * 9)

/-- DEFINE_RESERVATION_CLASS (R384). -/
def execDefineReservationClass (c : Machine.Cmd) (s : State) : Outcome :=
  let n := c.arg 8 2
  let r : RClass := ⟨c.arg 10 2, c.arg 16 8, c.arg 24 8, c.arg 32 8, c.arg 40 8⟩
  s.command c [(8, 2), (10, 2), (16, 8), (24, 8), (32, 8), (40, 8)] (decide (1 ≤ n) && decide (n ≤ 4095)) <|
    if s.rateFits n (·.hbm) r.hbm 41943040 41943040 && s.rateFits n (·.mesh) r.mesh 1048576 512 &&
        s.rateFits n (·.ngufer) r.ngufer 2936012 64 && s.rateFits n (·.eth) r.eth 1310720 64 then
      .next ((s.setDev { s.dev with rclass := Map.put none s.dev.rclass n (some r) }).doneCmd c)
    else .next (s.refuseCmd c 4)

/-! ## Host ranges and bias (R368, R371) -/

/-- Some launch that has not completed maps a page in [lo, hi). -/
def State.rangeMapped (s : State) (lo hi : Nat) : List (Nat × Launch) → EngRes Bool
  | [] => .ok false
  | l :: t =>
    (s.leaves l.2.asid).bind fun ls =>
      let hit := ls.any fun e =>
        let a := s.key (bitsOf e.2.1 51 16 * 65536)
        decide (lo ≤ a) && decide (a < hi)
      if hit then .ok true else s.rangeMapped lo hi t

/-- DEFINE_HOST_RANGE (R384). The ranges cover at most 512 GB, which is 512·10^9 bytes (R4, R368). -/
def execDefineHostRange (c : Machine.Cmd) (s : State) : Outcome :=
  let n := c.arg 8 1
  let lo := c.arg 16 8
  let size := c.arg 24 4 * 2 ^ 30
  let rest := s.dev.ranges.filterMap fun r => if r.1 = n then none else r.2
  let fits := decide (n < 16) && decide (c.arg 10 2 < 4096) && decide (lo % 2 ^ 30 = 0) &&
    decide (1 ≤ c.arg 24 4) && decide (c.arg 24 4 ≤ 512) && decide (lo + size ≤ 2 ^ 39) &&
    rest.all fun r => !overlaps r.base (r.base + r.size) lo (lo + size)
  s.command c [(8, 1), (10, 2), (16, 8), (24, 4)] fits <|
    if 512 * 10 ^ 9 < (rest.map (·.size)).sum + size then .next (s.refuseCmd c 4)
    else
      let bound := s.dev.launches.filter fun l => decide (l.2.strands ≠ 0)
      let before := match Map.get none s.dev.ranges n with
        | some r => s.rangeMapped r.base (r.base + r.size) bound
        | none => .ok false
      match before.bind fun b => if b then .ok true else s.rangeMapped lo (lo + size) bound with
      | .need x => .next ((s.waitCmd c).meetNeed (dispAgent 0 0) 0 x)
      | .err _ => .next (s.refuseCmd c 3)
      | .ok true => .next (s.refuseCmd c 3)
      | .ok false =>
        .next ((s.setDev { s.dev with
          ranges := Map.put none s.dev.ranges n (some ⟨BitVec.ofNat 12 (c.arg 10 2), lo, size⟩),
          bias := s.dev.bias.filter fun b => !overlaps (b.1 * 4096) (b.1 * 4096 + 4096) lo (lo + size) }).doneCmd c)

/-- The half lies in the page. -/
def halfIn (page half : Nat) : Bool := decide (page / 64 ≤ half) && decide (half < page / 64 + 64)

/-- No earlier request for the page waits at the bridge, so that a flip of it may begin (R371). -/
def State.pageQuiet (s : State) (page : Nat) : Bool :=
  !s.dev.bisnp.any (fun b => halfIn page b.half) && !s.dev.hostHeld.any fun h => halfIn page h.2.half

/-- Start flips that wait, up to 16 at once. -/
def State.startFlips (s : State) : State :=
  let start (l : List Flip) (f : Flip) : List Flip :=
    l ++ [if (l.filter (·.started)).length < 16 ∧ s.pageQuiet f.page then { f with started := true } else f]
  let on := s.dev.flips.filter (·.started)
  let off := s.dev.flips.filter fun f => !f.started
  s.setDev { s.dev with flips := off.foldl start on }

/-- FLIP_BIAS (R371). -/
def execFlipBias (c : Machine.Cmd) (s : State) : Outcome :=
  let page := c.arg 8 8
  s.command c [(8, 8), (16, 1)] (decide (page % 4096 = 0) && decide (c.arg 16 1 < 2)) <|
    if (s.hostRangeAt page).isNone then .next (s.refuseCmd c 5)
    else
      let f : Flip := ⟨page, decide (c.arg 16 1 = 1), c, false, []⟩
      .next ((s.goOn c).setDev { (s.goOn c).dev with flips := s.dev.flips ++ [f] }).startFlips

/-- The words of a 4 KiB page. -/
def pageWords (page : Nat) : List Nat := (List.range 1024).map fun i => page + 4 * i

/-- A page goes to host bias: none while a word of it is on its way. -/
def State.toHost (s : State) (page : Nat) : Option State :=
  let ws := pageWords page
  if ws.any s.inTransit then none
  else
    let cored (k : Nat) : Bool := match s.ownerOf k with
      | some o => decide (o.agent ≠ ownBridge) && decide (o.agent ≠ ownLost)
      | none => false
    match takeBackAll (ws.filter cored) s with
    | none => none
    | some s =>
      let s := ws.foldl (fun s k => match s.ownerOf k with
        | some o => if o.agent = ownBridge then s.setOwner k none else s
        | none => s) s
      let drop (k : Core) : Core := { k with l1 := k.l1.filter fun p =>
        !(decide (p.2.st = .V) && decide (page ≤ p.1) && decide (p.1 < page + 4096)) }
      some { s with cores := s.cores.map fun (k : Nat × Core) => (k.1, drop k.2) }

/-- A page goes to device bias: the host is asked for each half; done once it has answered for all 64, and earlier requests
that had its answer have been completed (R371). -/
def State.toDevice (s : State) (f : Flip) : State × Bool :=
  let left := ((List.range 64).map fun i => f.page / 64 + i).filter fun h => decide (h ∉ f.acked)
  if left.isEmpty then (s, !s.dev.snooped.any fun x => halfIn f.page x.1)
  else
    let ask := left.filter fun h => !s.dev.bisnp.any fun b => decide (b.half = h) && b.ofFlip
    (s.setDev { s.dev with bisnp := s.dev.bisnp ++ ask.map fun h => ⟨h, true, some (.biasFlipEnd f.page), s.dev.cycle⟩ },
      false)

/-- The flip ends: the bias stands, and flips that wait may start. -/
def State.endFlip (s : State) (f : Flip) : State :=
  let s := s.setDev { s.dev with
    bias := Map.put false s.dev.bias (f.page / 4096) f.toHost, flips := s.dev.flips.filter (· ≠ f) }
  (s.doneCmd f.cmd).startFlips

/-- BIAS_FLIP_END (R371). -/
def execBiasFlipEnd (page : Nat) (s : State) : Outcome :=
  match s.dev.flips.find? fun f => f.started && decide (f.page = page) with
  | none => .next s.startFlips
  | some f =>
    if f.toHost then
      match s.toHost page with
      | none => .next s
      | some s => .next (s.endFlip f)
    else if !(Map.get false s.dev.bias (page / 4096)) then .next (s.endFlip f)
    else
      let (s, ended) := s.toDevice f
      .next (if ended then s.endFlip f else s)

/-! ## Teardown, scrubbing, links (R363, R364) -/

/-- TEAR_DOWN (R363). -/
def execTearDown (c : Machine.Cmd) (s : State) : Outcome :=
  let a := c.arg 8 2
  s.command c [(8, 2)] true <|
    if !(s.asid a).bound then .next (s.refuseCmd c 5)
    else
      match (s.beginTear a).quarantineOnce a with
      | (s, some x) => .next ((s.waitCmd c).meetNeed (dispAgent 0 a) 0 x)
      | (s, none) =>
        match s.finishTear a with
        | .ok s => .next (s.doneCmd c)
        | .need x => .next ((s.waitCmd c).meetNeed (dispAgent 0 a) 0 x)
        | .err _ => .next (s.doneCmd c)

/-- The size of a quarantined page: that of the leaf which maps it; 64 KiB for a page that none is known to map (R300,
R364, log entry 90). -/
def State.pageSize (s : State) (page : Nat) : Nat :=
  2 ^ pageBits (((s.dev.quarPages.find? fun q => decide (q.1 = page)).map (·.2)).getD 0)

/-- SCRUB_PAGE (R364). -/
def execScrubPage (c : Machine.Cmd) (readBackOk : Bool) (s : State) : Outcome :=
  let pa := c.arg 8 8
  let page := s.key pa
  let size := s.pageSize page
  let inside (a : Nat) : Bool := decide (page ≤ a) && decide (a < page + size)
  s.command c [(8, 8)] (s.isLocal pa && decide (page % 65536 = 0) && s.populated page && decide (page < 2 ^ 39)) <|
    let s : State := { s with mem := s.mem.filter fun p => !inside p.1 }
    let s := s.setDev { s.dev with
      owner := s.dev.owner.filter fun p => !inside p.1,
      badMem := if readBackOk then s.dev.badMem.filter fun a => !inside a else s.dev.badMem,
      quarPages := if readBackOk then s.dev.quarPages.filter fun q => q.1 ≠ page else s.dev.quarPages }
    let s := s.log (homeDie page) 0x0D 0 1023 7 (if readBackOk then 0 else 6)
    .next (if readBackOk then s.doneCmd c else s.refuseCmd c 6)

/-- An op of the core waits for its link in a direction. -/
def Core.waitsLink (k : Core) (d : Dir) : Bool := k.ctxs.any fun c => c.2.waits.any fun x => match x with
  | .cond _ code => decide (code = condLink d)
  | _ => false

/-- RESTORE_LINK (R364). -/
def execRestoreLink (c : Machine.Cmd) (trained : Bool) (s : State) : Outcome :=
  let kind := c.arg 8 1
  let n := c.arg 10 2
  let d : Dir := BitVec.ofNat 2 (c.arg 12 1)
  let ok := if kind = 0 then decide (c.arg 12 1 < 4) && (s.neighbour n d).isSome && s.targetOk 2 n
    else decide (c.arg 12 1 = 0) && ((decide (kind = 1) && decide (n < s.portsOf false)) ||
      (decide (kind = 2) && decide (n < s.portsOf true)))
  s.command c [(8, 1), (10, 2), (12, 1)] ok <|
    let m := (s.neighbour n d).getD n
    if kind = 0 ∧ ((s.core n).waitsLink d ∨ (s.core m).waitsLink (dirBack d)) then .next (s.refuseCmd c 3)
    else if !trained then .next (s.refuseCmd c 6)
    else if kind = 0 then
      let s := s.setCore n { s.core n with links := Map.put {} (s.core n).links d.toNat {} }
      let s := s.setCore m { s.core m with links := Map.put {} (s.core m).links (dirBack d).toNat {} }
      .next ((s.log (coreDie n) 0x07 0 n 7 d.toNat).doneCmd c)
    else if kind = 1 then
      .next (((s.setDev { s.dev with portsDown := s.dev.portsDown.filter (· ≠ n) }).log 0 0x07 0 1023 7 n).doneCmd c)
    else
      .next (((s.setDev { s.dev with ethDown := s.dev.ethDown.filter (· ≠ n) }).log 0 0x07 0 1023 7
        (64 + n)).doneCmd c)

/-! ## Firmware, node, routes, status (R375, R377) -/

/-- The image that the command names. -/
def State.newImage (s : State) (c : Cmd) : EngRes (List Byte) :=
  let pa := c.arg 8 8
  if s.isLocal pa then s.engBytes (dispAgent 0 0) (s.key pa) (c.arg 16 4) else .err 2

/-- What the boot ROM's check says of that image (R377). -/
def State.verdict (s : State) (c : Cmd) : Bool :=
  match s.newImage c with
  | .ok bs => imageVerifies bs
  | _ => false

/-- UPDATE_FIRMWARE (R384): the image is read from its address and verified (R377), `verified` being what the check has
said. A verdict that is not the one of the image that stands there counts for nothing: the command goes on waiting for it.
A device that awaits a new image comes up once it has one. -/
def execUpdateFirmware (c : Machine.Cmd) (verified : Bool) (s : State) : Outcome :=
  let g := dispAgent 0 0
  if !c.plain [(8, 8), (16, 4)] then .next (s.refuseCmd c 2)
  else
    match s.newImage c with
    | .need x => .next ((s.waitCmd c).meetNeed g 0 x)
    | .err _ => .next (s.refuseCmd c 6)
    | .ok bs =>
      if verified ≠ imageVerifies bs then .next (s.waitCmd c)
      else if verified then
        .next (((s.engDone g).setDev { (s.engDone g).dev with firmware := bs, verified := true, bringup := 0 }).doneCmd c)
      else .next ((s.engDone g).refuseCmd c 6)

/-- A landing reservation is outstanding: asked for, held by a sender here, or granted by a core of this device (R235). -/
def State.landingsOut (s : State) : Bool :=
  !s.dev.lzOut.isEmpty || !s.dev.lzSends.isEmpty || !s.dev.lzHeld.isEmpty ||
    s.cores.any fun k => !k.2.lzq.isEmpty || k.2.zones.any fun z => z.2.slots.any fun l => l.2.live

/-- SET_NODE (R375). -/
def execSetNode (c : Machine.Cmd) (s : State) : Outcome :=
  let e := c.arg 10 2
  s.command c [(8, 1), (10, 2)] true <|
    if !s.dev.natReqs.isEmpty || !s.dev.natHeld.isEmpty || s.landingsOut then .next (s.refuseCmd c 3)
    else .next ((s.setDev { s.dev with
      node := BitVec.ofNat 8 (c.arg 8 1), nodeSet := true,
      etype := if e = 0 then 0x88B5 else BitVec.ofNat 16 e }).doneCmd c)

/-- WRITE_ROUTE_ENTRY (R375). -/
def execWriteRouteEntry (c : Machine.Cmd) (s : State) : Outcome :=
  let b := c.arg 9 1
  let kind : BitVec 2 := BitVec.ofNat 2 (b / 2)
  let ports := (List.range 4).map fun i => c.arg (10 + i) 1
  let most := s.portsOf (decide (kind = 1#2))
  let ok := decide (b < 8) && decide (kind ≠ 3#2) && ports.all fun p => decide (p = 255) || decide (p < most)
  s.command c [(8, 1), (9, 1), (10, 4), (16, 24)] ok <|
    let r : Route := ⟨decide (b % 2 = 1), kind, ports.filter (· ≠ 255), (c.bytes.drop 16).take 24⟩
    .next ((s.setDev { s.dev with routes := Map.put {} s.dev.routes (c.arg 8 1) r }).doneCmd c)

/-- QUEUE_STATUS (R384). -/
def execQueueStatus (c : Machine.Cmd) (s : State) : Outcome :=
  let q := Map.get {} s.dev.queues (c.arg 8 2)
  s.command c [(8, 2)] true <|
    if !q.bound then .next (s.refuseCmd c 5)
    else .next (s.finishCmd c 0 0 (leBytes 8 (q.e.toNat + q.k.toNat * 2 ^ 8 + q.faults.toNat * 2 ^ 32)))

/-- UNKNOWN_COMMAND (R383). -/
def execUnknownCommand (c : Machine.Cmd) (s : State) : Outcome :=
  .next (s.refuseCmd c 1)

end Sys2Proof.Machine
end

