-- ==== Sys2Proof/Machine/Time.lean ====
section
/-! DEFINITION. What the clock does: quanta, frames, releases, deadlines, and power stalls (R99, R324 to R327,
R380). -/

namespace Sys2Proof.Machine

/-- The contexts that may take the port from one whose quantum has run out, once they are ready: ctxS among them when
a hold waits for service, since R98 puts it before all others (R99). -/
def State.quantumRivals (s : State) (core x : Nat) : List Nat :=
  let k := s.core core
  (if k.svc.isNone ∧ x ≠ 4 ∧ !k.held.isEmpty then [4] else []) ++
  (k.ctxs.filter fun c =>
    decide (c.1 ≠ x) && decide (c.2.life = .running) && !c.2.hold && !s.gated c.2 &&
      (decide (x = 4) || decide (c.1 = 4) || decide (s.effPrio 8 ⟨core, x⟩ ≤ s.effPrio 8 ⟨core, c.1⟩))).map (·.1)

/-- QUANTUM_EXPIRE (R99), when one of the rivals is ready. The port is free; ctxS, which would otherwise be chosen
first again, lets the others go before it. -/
def execQuantumExpire (core : Nat) (s : State) : Outcome :=
  let k := s.core core
  match k.port with
  | none => .next s
  | some x =>
    if (s.dev.cycle - k.runStart).toNat < 1024 then .next s
    else
      match s.quantumRivals core x with
      | [] => .next s
      | ys => .next (s.setCore core { k with
          port := none, yielded := if x = 4 then Map.put [] k.yielded 4 ys else k.yielded })

/-! ## Frames (R324, R326) -/

/-- The place of a bound member of a timetabled group: where it runs, or ran before it was saved (R346). -/
def State.groupPlace (s : State) (l : Launch) (t : TtGroup) : Option Who :=
  let g := groupSize (levelsOf l.rc) t.level
  match (l.bound.filter fun k => k / g = t.index).findSome? (strandAt l) with
  | some w => some w
  | none => s.dev.saved.findSome? fun v => match v.2 with
    | some v => if v.strand.num / g = t.index ∧ s.launch v.strand.launch = l then some v.src else none
    | none => none

/-- The partition that a timetabled group runs in: that of its bound members. -/
def State.groupPart (s : State) (l : Launch) (t : TtGroup) : Option Nat :=
  match s.groupPlace l t with
  | none => none
  | some w => s.dev.parts.findIdx? fun p => p.pods.getLsbD (corePod w.core)

def State.part (s : State) (n : Nat) : Part := s.dev.parts.getD n ⟨0, 1, 0, false, 0, 0⟩

def State.setPart (s : State) (n : Nat) (p : Part) : State := s.setDev { s.dev with parts := s.dev.parts.set n p }

/-- Every member of a timetabled group has ended. -/
def Launch.groupEnded (l : Launch) (t : TtGroup) : Bool :=
  let g := groupSize (levelsOf l.rc) t.level
  (List.range g).all fun i => decide (t.index * g + i ∈ l.ended)

/-- A new frame of a partition: its groups wait for their release again; one all of whose members have ended counts
as tripped (R326). -/
def State.newFrame (s : State) (n : Nat) : State :=
  let again (l : Launch) (t : TtGroup) : TtGroup :=
    if s.groupPart l t = some n then { t with released := false, tripped := l.groupEnded t } else t
  s.setDev { s.dev with launches := s.dev.launches.map fun l => (l.1, { l.2 with tt := l.2.tt.map (again l.2) }) }

/-- The partition's frame tick advances, or is held (R324, R326, R327). -/
def State.advanceFrame (s : State) (n : Nat) : State :=
  let p := s.part n
  if s.dev.parts.length ≤ n ∨ s.dev.stall.isSome then s
  else if p.slip then s.setPart n { p with heldTicks := p.heldTicks + 1 }
  else if p.tick + 1 < p.length then s.setPart n { p with tick := p.tick + 1 }
  else (s.setPart n { p with tick := 0, frames := p.frames + 1 }).newFrame n

/-- FRAME_TICK_ADVANCE (R324). -/
def execFrameTickAdvance (part : Nat) (s : State) : Outcome :=
  .next (s.advanceFrame part)

/-- Change the group of a launch. -/
def State.setGroup (s : State) (launch n : Nat) (t : TtGroup) : State :=
  let l := s.launch launch
  s.setLaunch launch { l with tt := l.tt.set n t }

/-- The group is released at its tick (R326). -/
def State.releaseGroup (s : State) (launch n : Nat) : State :=
  let l := s.launch launch
  match l.tt[n]? with
  | none => s
  | some t =>
    match s.groupPart l t with
    | none => s
    | some p =>
      if (s.part p).tick = t.release ∧ ¬ (s.part p).slip ∧ ¬ t.tripped then
        s.setGroup launch n { t with released := true }
      else s

/-- RELEASE_TICK (R326). -/
def execReleaseTick (launch group : Nat) (s : State) : Outcome :=
  .next (s.releaseGroup launch group)

/-- The group is late: released, at its deadline, and not tripped. -/
def TtGroup.late (t : TtGroup) (tick : Nat) : Bool := t.released && !t.tripped && decide (t.deadline = tick)

/-- A late group holds its partition's frame (R326). -/
def State.slipGroup (s : State) (launch n : Nat) : State :=
  let l := s.launch launch
  match l.tt[n]? with
  | none => s
  | some t =>
    match s.groupPart l t with
    | none => s
    | some p =>
      let q := s.part p
      if t.late q.tick ∧ (¬ q.slip ∨ q.heldTicks = 0) then
        (s.setPart p { q with slip := true, heldTicks := 0 }).log 0 0x04 l.asid 1023 7
          (l.queue * 2 ^ 11 + t.level * 2 ^ 8 + t.index % 256)
      else s

/-- DEADLINE_SLIP (R326). -/
def execDeadlineSlip (launch group : Nat) (s : State) : Outcome :=
  .next (s.slipGroup launch group)

/-- Some group of the partition is late. -/
def State.anyLate (s : State) (n : Nat) : Bool :=
  s.dev.launches.any fun l => l.2.tt.any fun t =>
    t.late (s.part n).tick && decide (s.groupPart l.2 t = some n)

/-- The slip of a partition ends once no group is late (R326). -/
def State.endSlip (s : State) (n : Nat) : State :=
  let p := s.part n
  if p.slip && !s.anyLate n then
    (s.setPart n { p with slip := false, heldTicks := 0 }).log 0 0x05 0 1023 7 p.heldTicks
  else s

/-- SLIP_END (R326). -/
def execSlipEnd (part : Nat) (s : State) : Outcome :=
  .next (s.endSlip part)

/-- Every timetabled group: launch and place. -/
def State.allGroups (s : State) : List (Nat × Nat) :=
  s.dev.launches.flatMap fun l => (List.range l.2.tt.length).map fun n => (l.1, n)

/-- One tick boundary: slips end, frames advance, groups are released, late groups hold their frame. -/
def State.tickBoundary (s : State) : State :=
  let s := s.setDev { s.dev with lastTick := s.dev.lastTick + 1 }
  let s := (List.range s.dev.parts.length).foldl (fun s n => (s.endSlip n).advanceFrame n) s
  let gs := s.allGroups
  let s := gs.foldl (fun s g => s.releaseGroup g.1 g.2) s
  gs.foldl (fun s g => s.slipGroup g.1 g.2) s

/-- The tick boundaries up to now. -/
def State.runTicks (s : State) : Nat → State
  | 0 => s
  | n + 1 => (s.tickBoundary).runTicks n

/-! ## Power stalls (R327, R380) -/

/-- Samples that a read of the core rail's current goes back over: 1 ms (R380). -/
def ampWindow : Nat := 78125

/-- A figure stands above its limit: the average package power over 1,024 ticks, or the core-rail current for
1 ms. -/
def Device.overPower (d : Device) : Bool :=
  let recent := d.samples.drop (d.samples.length - 1024)
  decide (d.pwrCap * 1024 < (recent.map (·.watts)).sum) ||
    (decide (d.samples.length = ampWindow) && d.samples.all fun p => decide (5375 < p.amps))

/-- Both figures lie below their limits, so that a stall ends (R380). -/
def Device.underPower (d : Device) : Bool :=
  let recent := d.samples.drop (d.samples.length - 1024)
  decide ((recent.map (·.watts)).sum < d.pwrCap * 1024) && (match recent.getLast? with
    | some p => decide (p.amps < 5375)
    | none => true)

/-- The next tick boundary is reached. -/
def State.toBoundary (s : State) : State :=
  let t := (s.dev.cycle.toNat + 15) / 16
  (s.setDev { s.dev with cycle := BitVec.ofNat 64 (16 * t) }).runTicks (t - s.dev.lastTick.toNat)

/-- POWER_SAMPLE (R380). -/
def execPowerSample (p : Machine.Sample) (s : State) : Outcome :=
  let all := s.dev.samples ++ [p]
  let s := s.setDev { s.dev with samples := all.drop (all.length - ampWindow) }
  if s.dev.stall.isSome || !s.dev.overPower then .next s
  else
    let s := s.toBoundary
    .next ((s.setDev { s.dev with stall := some s.dev.cycle }).log 0 0x14 0 1023 7 0)

/-- A moment from which an interval runs, as it counts once the stall [from, end) is left out: one within the stall
counts from its end (R327). -/
def shiftTime (from_ end_ : Nat) (t : Dword) : Dword :=
  if from_ ≤ t.toNat then BitVec.ofNat 64 end_ else t + BitVec.ofNat 64 (end_ - from_)

/-- A landing slot, and a core, whose times leave the stall out. -/
def LzSlot.shift (l : LzSlot) (f : Dword → Dword) : LzSlot := if l.state = 0 then l else { l with since := f l.since }

def Core.shift (k : Core) (f : Dword → Dword) : Core :=
  { k with
    zones := k.zones.map fun z => (z.1, { z.2 with slots := z.2.slots.map fun l => (l.1, l.2.shift f) }),
    lzq := k.lzq.map fun q => { q with since := f q.since }, runStart := f k.runStart, classStart := f k.classStart }

/-- Every interval that is running leaves the cycles of the stall out (R327). -/
def State.shiftTimes (s : State) (from_ end_ : Nat) : State :=
  let v := s.dev
  let f := shiftTime from_ end_
  { s with
    cores := s.cores.map fun k => (k.1, k.2.shift f),
    dev := { v with
      hot := v.hot.map fun h => (h.1, (f (BitVec.ofNat 64 h.2.1)).toNat, h.2.2),
      cards := v.cards.map fun c => { c with since := f c.since },
      bisnp := v.bisnp.map fun b => { b with sent := f b.sent },
      natReqs := v.natReqs.map fun r => { r with sent := f r.sent },
      lzSends := v.lzSends.map fun l => { l with since := f l.since },
      lzOut := v.lzOut.map fun l => { l with sent := f l.sent, resent := f l.resent },
      lzAnswered := v.lzAnswered.map fun a => (a.1, f a.2) } }

/-- The wheel cycles that a core has claimed within the stall pass unused: the next positions after it take
their place (R327). -/
def moveClaims (k : Core) (from_ end_ : Nat) : List Nat → Core × List (Nat × Nat)
  | [] => (k, [])
  | c :: t =>
    let (k, l) := moveClaims k from_ end_ t
    if from_ ≤ c ∧ c < end_ then
      let c' := k.nextPosition (end_ - 1)
      ({ k with claims := c' :: k.claims.filter (· ≠ c) }, (c, c') :: l)
    else (k, l)

/-- The claims of one core, and the ops that go with them. -/
def State.moveWheel (s : State) (core from_ end_ : Nat) : State :=
  let k := s.core core
  let (k, l) := moveClaims k from_ end_ k.claims
  let key (o : ScOp) : ScOp := match l.find? fun p => p.1 = o.key / 16 with
    | some p => { o with key := p.2 * 16 + o.key % 16 }
    | none => o
  let s := s.setCore core k
  { s with pending := s.pending.map fun i => match i with
      | .atomscArrive o => if o.who.core = core then .atomscArrive (key o) else i
      | _ => i }

/-- POWER_STALL_END (R327). -/
def execPowerStallEnd (s : State) : Outcome :=
  match s.dev.stall with
  | none => .next s
  | some c =>
    if !s.dev.underPower then .next s
    else
      let t := max ((s.dev.cycle.toNat + 15) / 16) (c.toNat / 16 + 1)
      let n := t - c.toNat / 16
      let s := (s.cores.map (·.1)).foldl (fun s k => s.moveWheel k c.toNat (16 * t)) s
      let s := s.shiftTimes c.toNat (16 * t)
      .next (s.setDev { s.dev with
        stall := none, cycle := BitVec.ofNat 64 (16 * t), lastTick := BitVec.ofNat 64 t,
        pwrstall := s.dev.pwrstall + BitVec.ofNat 64 n })

end Sys2Proof.Machine
end

