-- ==== Sys2Proof/Machine/Dispatch.lean ====
section
/-! DEFINITION. What each instruction does: one arm per constructor. -/

namespace Sys2Proof.Machine

open Sys2Proof

def exec (i : Instr) (s : State) : Host.Outcome State Fault Refusal :=
  match i with
  | .br g o => Sys2Proof.Machine.execBr g o s
  | .bri g a => Sys2Proof.Machine.execBri g a s
  | .call g o => Sys2Proof.Machine.execCall g o s
  | .calli g a => Sys2Proof.Machine.execCalli g a s
  | .ret g => Sys2Proof.Machine.execRet g s
  | .loop g l a o => Sys2Proof.Machine.execLoop g l a o s
  | .loopi g l c o => Sys2Proof.Machine.execLoopi g l c o s
  | .endStrand g => Sys2Proof.Machine.execEndStrand g s
  | .yield g => Sys2Proof.Machine.execYield g s
  | .waitid g h a => Sys2Proof.Machine.execWaitid g h a s
  | .waitt g t => Sys2Proof.Machine.execWaitt g t s
  | .bar g l => Sys2Proof.Machine.execBar g l s
  | .rdv g r => Sys2Proof.Machine.execRdv g r s
  | .fence g a sh => Sys2Proof.Machine.execFence g a sh s
  | .lzwait g b d => Sys2Proof.Machine.execLzwait g b d s
  | .spawn g a => Sys2Proof.Machine.execSpawn g a s
  | .trap g im => Sys2Proof.Machine.execTrap g im s
  | .tret g => Sys2Proof.Machine.execTret g s
  | .snaprel g => Sys2Proof.Machine.execSnaprel g s
  | .holdret g => Sys2Proof.Machine.execHoldret g s
  | .rdone g => Sys2Proof.Machine.execRdone g s
  | .add g d a b => Sys2Proof.Machine.execAdd g d a b s
  | .sub g d a b => Sys2Proof.Machine.execSub g d a b s
  | .and g d a b => Sys2Proof.Machine.execAnd g d a b s
  | .or g d a b => Sys2Proof.Machine.execOr g d a b s
  | .xor g d a b => Sys2Proof.Machine.execXor g d a b s
  | .andn g d a b => Sys2Proof.Machine.execAndn g d a b s
  | .shl g d a b => Sys2Proof.Machine.execShl g d a b s
  | .shr g d a b => Sys2Proof.Machine.execShr g d a b s
  | .sra g d a b => Sys2Proof.Machine.execSra g d a b s
  | .min g d a b => Sys2Proof.Machine.execMin g d a b s
  | .max g d a b => Sys2Proof.Machine.execMax g d a b s
  | .minu g d a b => Sys2Proof.Machine.execMinu g d a b s
  | .maxu g d a b => Sys2Proof.Machine.execMaxu g d a b s
  | .mul g d a b => Sys2Proof.Machine.execMul g d a b s
  | .mulh g d a b => Sys2Proof.Machine.execMulh g d a b s
  | .mulhu g d a b => Sys2Proof.Machine.execMulhu g d a b s
  | .mad g d a b => Sys2Proof.Machine.execMad g d a b s
  | .div g d a b => Sys2Proof.Machine.execDiv g d a b s
  | .divu g d a b => Sys2Proof.Machine.execDivu g d a b s
  | .rem g d a b => Sys2Proof.Machine.execRem g d a b s
  | .remu g d a b => Sys2Proof.Machine.execRemu g d a b s
  | .clz g d a => Sys2Proof.Machine.execClz g d a s
  | .popc g d a => Sys2Proof.Machine.execPopc g d a s
  | .bfx g d a b => Sys2Proof.Machine.execBfx g d a b s
  | .bfi g d a b => Sys2Proof.Machine.execBfi g d a b s
  | .sel g d a b p => Sys2Proof.Machine.execSel g d a b p s
  | .addx g d a b p => Sys2Proof.Machine.execAddx g d a b p s
  | .sext g d a w => Sys2Proof.Machine.execSext g d a w s
  | .zext g d a w => Sys2Proof.Machine.execZext g d a w s
  | .addi g d a im => Sys2Proof.Machine.execAddi g d a im s
  | .andi g d a im => Sys2Proof.Machine.execAndi g d a im s
  | .ori g d a im => Sys2Proof.Machine.execOri g d a im s
  | .xori g d a im => Sys2Proof.Machine.execXori g d a im s
  | .shli g d a im => Sys2Proof.Machine.execShli g d a im s
  | .shri g d a im => Sys2Proof.Machine.execShri g d a im s
  | .srai g d a im => Sys2Proof.Machine.execSrai g d a im s
  | .movi g d im => Sys2Proof.Machine.execMovi g d im s
  | .ldk g d k => Sys2Proof.Machine.execLdk g d k s
  | .cmp g p c a b => Sys2Proof.Machine.execCmp g p c a b s
  | .cmpi g p c a im => Sys2Proof.Machine.execCmpi g p c a im s
  | .plog g d f a b => Sys2Proof.Machine.execPlog g d f a b s
  | .movc g d c => Sys2Proof.Machine.execMovc g d c s
  | .movtc g a c => Sys2Proof.Machine.execMovtc g a c s
  | .movtcShape g a => Sys2Proof.Machine.execMovtcShape g a s
  | .movtcFflags g a => Sys2Proof.Machine.execMovtcFflags g a s
  | .movtcRmode g a => Sys2Proof.Machine.execMovtcRmode g a s
  | .movtcLfsr g a => Sys2Proof.Machine.execMovtcLfsr g a s
  | .movtcLc g a l => Sys2Proof.Machine.execMovtcLc g a l s
  | .movtcGqt g a => Sys2Proof.Machine.execMovtcGqt g a s
  | .movtcCerr g a => Sys2Proof.Machine.execMovtcCerr g a s
  | .movtcSnapbase g a => Sys2Proof.Machine.execMovtcSnapbase g a s
  | .ld g d a c z im => Sys2Proof.Machine.execLd g d a c z im s
  | .lds g d a c z im => Sys2Proof.Machine.execLds g d a c z im s
  | .st g d a c z im => Sys2Proof.Machine.execSt g d a c z im s
  | .lda g d a z sh => Sys2Proof.Machine.execLda g d a z sh s
  | .strel g d a z sh => Sys2Proof.Machine.execStrel g d a z sh s
  | .atom g d a b o => Sys2Proof.Machine.execAtom g d a b o s
  | .aswap g d a b => Sys2Proof.Machine.execAswap g d a b s
  | .acas g d a b => Sys2Proof.Machine.execAcas g d a b s
  | .atomsc g d a b o => Sys2Proof.Machine.execAtomsc g d a b o s
  | .invr g m => Sys2Proof.Machine.execInvr g m s
  | .wbr g m sh => Sys2Proof.Machine.execWbr g m sh s
  | .own g m => Sys2Proof.Machine.execOwn g m s
  | .vld g v a d => Sys2Proof.Machine.execVld g v a d s
  | .vst g v a d => Sys2Proof.Machine.execVst g v a d s
  | .vlds g v a b => Sys2Proof.Machine.execVlds g v a b s
  | .vsts g v a b => Sys2Proof.Machine.execVsts g v a b s
  | .tld g t a c h m => Sys2Proof.Machine.execTld g t a c h m s
  | .tst g t a c h m => Sys2Proof.Machine.execTst g t a c h m s
  | .tcpy g d sh h => Sys2Proof.Machine.execTcpy g d sh h s
  | .tdesc g t k => Sys2Proof.Machine.execTdesc g t k s
  | .gpush g a => Sys2Proof.Machine.execGpush g a s
  | .gpop g v => Sys2Proof.Machine.execGpop g v s
  | .spush g v a => Sys2Proof.Machine.execSpush g v a s
  | .cbget g d c => Sys2Proof.Machine.execCbget g d c s
  | .cbput g c => Sys2Proof.Machine.execCbput g c s
  | .cbtake g d c => Sys2Proof.Machine.execCbtake g d c s
  | .cbgive g c => Sys2Proof.Machine.execCbgive g c s
  | .lzres g d a b => Sys2Proof.Machine.execLzres g d a b s
  | .tstx g t a c h m => Sys2Proof.Machine.execTstx g t a c h m s
  | .lzarm g z a x => Sys2Proof.Machine.execLzarm g z a x s
  | .lzrel g a z => Sys2Proof.Machine.execLzrel g a z s
  | .lzstat g d a z => Sys2Proof.Machine.execLzstat g d a z s
  | .lzclean g z => Sys2Proof.Machine.execLzclean g z s
  | .rdecl g a b => Sys2Proof.Machine.execRdecl g a b s
  | .rpin g a => Sys2Proof.Machine.execRpin g a s
  | .runpin g a => Sys2Proof.Machine.execRunpin g a s
  | .rseal g a => Sys2Proof.Machine.execRseal g a s
  | .rdrop g a => Sys2Proof.Machine.execRdrop g a s
  | .jcpush g a => Sys2Proof.Machine.execJcpush g a s
  | .jcpop g d => Sys2Proof.Machine.execJcpop g d s
  | .snapst g a => Sys2Proof.Machine.execSnapst g a s
  | .snapld g a => Sys2Proof.Machine.execSnapld g a s
  | .tlbinv g a b k => Sys2Proof.Machine.execTlbinv g a b k s
  | .pref g a im => Sys2Proof.Machine.execPref g a im s
  | .vadd g d a b => Sys2Proof.Machine.execVadd g d a b s
  | .vsub g d a b => Sys2Proof.Machine.execVsub g d a b s
  | .vmul g d a b => Sys2Proof.Machine.execVmul g d a b s
  | .vfma g d a b => Sys2Proof.Machine.execVfma g d a b s
  | .vfms g d a b => Sys2Proof.Machine.execVfms g d a b s
  | .vmin g d a b => Sys2Proof.Machine.execVmin g d a b s
  | .vmax g d a b => Sys2Proof.Machine.execVmax g d a b s
  | .vabs g d a => Sys2Proof.Machine.execVabs g d a s
  | .vneg g d a => Sys2Proof.Machine.execVneg g d a s
  | .vand g d a b => Sys2Proof.Machine.execVand g d a b s
  | .vor g d a b => Sys2Proof.Machine.execVor g d a b s
  | .vxor g d a b => Sys2Proof.Machine.execVxor g d a b s
  | .vshl g d a b => Sys2Proof.Machine.execVshl g d a b s
  | .vshr g d a b => Sys2Proof.Machine.execVshr g d a b s
  | .vsra g d a b => Sys2Proof.Machine.execVsra g d a b s
  | .vqadd g d a b => Sys2Proof.Machine.execVqadd g d a b s
  | .vqsub g d a b => Sys2Proof.Machine.execVqsub g d a b s
  | .vmulh g d a b => Sys2Proof.Machine.execVmulh g d a b s
  | .vceq g d a b => Sys2Proof.Machine.execVceq g d a b s
  | .vclt g d a b => Sys2Proof.Machine.execVclt g d a b s
  | .vcle g d a b => Sys2Proof.Machine.execVcle g d a b s
  | .vcltu g d a b => Sys2Proof.Machine.execVcltu g d a b s
  | .vsel g d a b => Sys2Proof.Machine.execVsel g d a b s
  | .vmov g d a => Sys2Proof.Machine.execVmov g d a s
  | .vbc g d a => Sys2Proof.Machine.execVbc g d a s
  | .viota g d => Sys2Proof.Machine.execViota g d s
  | .vrowsh g d a im => Sys2Proof.Machine.execVrowsh g d a im s
  | .vcolsh g d a im => Sys2Proof.Machine.execVcolsh g d a im s
  | .vesh g d a im => Sys2Proof.Machine.execVesh g d a im s
  | .vrot g d a im => Sys2Proof.Machine.execVrot g d a im s
  | .vtrn g d a => Sys2Proof.Machine.execVtrn g d a s
  | .vcvt g d a o f => Sys2Proof.Machine.execVcvt g d a o f s
  | .vpack3 g d a => Sys2Proof.Machine.execVpack3 g d a s
  | .vunp3 g d a => Sys2Proof.Machine.execVunp3 g d a s
  | .vcmpr g d a => Sys2Proof.Machine.execVcmpr g d a s
  | .vscl g d a b => Sys2Proof.Machine.execVscl g d a b s
  | .vget g d a e => Sys2Proof.Machine.execVget g d a e s
  | .vput g d a e => Sys2Proof.Machine.execVput g d a e s
  | .fexp2 g d a => Sys2Proof.Machine.execFexp2 g d a s
  | .flog2 g d a => Sys2Proof.Machine.execFlog2 g d a s
  | .frecip g d a => Sys2Proof.Machine.execFrecip g d a s
  | .frsqrt g d a => Sys2Proof.Machine.execFrsqrt g d a s
  | .fsqrt g d a => Sys2Proof.Machine.execFsqrt g d a s
  | .ftanh g d a => Sys2Proof.Machine.execFtanh g d a s
  | .fsigm g d a => Sys2Proof.Machine.execFsigm g d a s
  | .fsin g d a => Sys2Proof.Machine.execFsin g d a s
  | .fcos g d a => Sys2Proof.Machine.execFcos g d a s
  | .fdiv g d a b => Sys2Proof.Machine.execFdiv g d a b s
  | .qadd g q a x => Sys2Proof.Machine.execQadd g q a x s
  | .qmax g q a x => Sys2Proof.Machine.execQmax g q a x s
  | .qmin g q a x => Sys2Proof.Machine.execQmin g q a x s
  | .qscan g q a x => Sys2Proof.Machine.execQscan g q a x s
  | .qmov g d q => Sys2Proof.Machine.execQmov g d q s
  | .qclr g q => Sys2Proof.Machine.execQclr g q s
  | .pacq g c => Sys2Proof.Machine.execPacq g c s
  | .pwin g a => Sys2Proof.Machine.execPwin g a s
  | .pfset g f a b => Sys2Proof.Machine.execPfset g f a b s
  | .pstep g a b x y sh l => Sys2Proof.Machine.execPstep g a b x y sh l s
  | .psteps g a b x y sh l => Sys2Proof.Machine.execPsteps g a b x y sh l s
  | .pshift g sh => Sys2Proof.Machine.execPshift g sh s
  | .pload g t h c => Sys2Proof.Machine.execPload g t h c s
  | .pret g t h a o => Sys2Proof.Machine.execPret g t h a o s
  | .prel g => Sys2Proof.Machine.execPrel g s
  | .hsend g d => Sys2Proof.Machine.execHsend g d s
  | .hadd g d => Sys2Proof.Machine.execHadd g d s
  | .hclr g d => Sys2Proof.Machine.execHclr g d s
  | .nlsend g t d => Sys2Proof.Machine.execNlsend g t d s
  | .nlrecv g t d => Sys2Proof.Machine.execNlrecv g t d s
  | .quantumExpire core => Sys2Proof.Machine.execQuantumExpire core s
  | .packetFill f => Sys2Proof.Machine.execPacketFill f s
  | .sequentialPrefetch core va => Sys2Proof.Machine.execSequentialPrefetch core va s
  | .remoteOperandRequest owner lo hi block => Sys2Proof.Machine.execRemoteOperandRequest owner lo hi block s
  | .tileWriteComplete core retire => Sys2Proof.Machine.execTileWriteComplete core retire s
  | .huskStripTransfer core dir => Sys2Proof.Machine.execHuskStripTransfer core dir s
  | .nlStreamTransfer core dir => Sys2Proof.Machine.execNlStreamTransfer core dir s
  | .linkDown link => Sys2Proof.Machine.execLinkDown link s
  | .transferComplete x => Sys2Proof.Machine.execTransferComplete x s
  | .apertureStore x => Sys2Proof.Machine.execApertureStore x s
  | .copyComplete x => Sys2Proof.Machine.execCopyComplete x s
  | .gatherRowArrive who => Sys2Proof.Machine.execGatherRowArrive who s
  | .heldStorePerform who => Sys2Proof.Machine.execHeldStorePerform who s
  | .reg m => Sys2Proof.Machine.execReg m s
  | .grant m => Sys2Proof.Machine.execGrant m s
  | .revoke m => Sys2Proof.Machine.execRevoke m s
  | .fdata m => Sys2Proof.Machine.execFdata m s
  | .read m => Sys2Proof.Machine.execRead m s
  | .fwd m => Sys2Proof.Machine.execFwd m s
  | .data m => Sys2Proof.Machine.execData m s
  | .wb m => Sys2Proof.Machine.execWb m s
  | .retry m => Sys2Proof.Machine.execRetry m s
  | .gone m => Sys2Proof.Machine.execGone m s
  | .lostReply m => Sys2Proof.Machine.execLostReply m s
  | .bypassWrite m => Sys2Proof.Machine.execBypassWrite m s
  | .atomicAtHome m => Sys2Proof.Machine.execAtomicAtHome m s
  | .unpriv page owner => Sys2Proof.Machine.execUnpriv page owner s
  | .unprivAck page owner => Sys2Proof.Machine.execUnprivAck page owner s
  | .hotLineReplicate line => Sys2Proof.Machine.execHotLineReplicate line s
  | .atomscSend who => Sys2Proof.Machine.execAtomscSend who s
  | .atomscArrive op => Sys2Proof.Machine.execAtomscArrive op s
  | .atomscApply op => Sys2Proof.Machine.execAtomscApply op s
  | .atomscReply op old => Sys2Proof.Machine.execAtomscReply op old s
  | .walkComplete w => Sys2Proof.Machine.execWalkComplete w s
  | .regrowRequest q => Sys2Proof.Machine.execRegrowRequest q s
  | .sliceStart tile => Sys2Proof.Machine.execSliceStart tile s
  | .lzresMsg m => Sys2Proof.Machine.execLzresMsg m s
  | .lzans m => Sys2Proof.Machine.execLzans m s
  | .lzpkt m => Sys2Proof.Machine.execLzpkt m s
  | .lzack m => Sys2Proof.Machine.execLzack m s
  | .lzabort m => Sys2Proof.Machine.execLzabort m s
  | .lzSlotTimeout core zone slot => Sys2Proof.Machine.execLzSlotTimeout core zone slot s
  | .lzresQueueTimeout core tag => Sys2Proof.Machine.execLzresQueueTimeout core tag s
  | .lzresAnswerTimeout tag => Sys2Proof.Machine.execLzresAnswerTimeout tag s
  | .lzpktResendTimeout x => Sys2Proof.Machine.execLzpktResendTimeout x s
  | .lzresResendTimeout tag => Sys2Proof.Machine.execLzresResendTimeout tag s
  | .rd m => Sys2Proof.Machine.execRd m s
  | .rdrsp m => Sys2Proof.Machine.execRdrsp m s
  | .wr m => Sys2Proof.Machine.execWr m s
  | .wrack m => Sys2Proof.Machine.execWrack m s
  | .atomMsg m => Sys2Proof.Machine.execAtomMsg m s
  | .atomrsp m => Sys2Proof.Machine.execAtomrsp m s
  | .tlbinvMsg m => Sys2Proof.Machine.execTlbinvMsg m s
  | .tlback m => Sys2Proof.Machine.execTlback m s
  | .nativeRequestTimeout tag => Sys2Proof.Machine.execNativeRequestTimeout tag s
  | .unlistedMessage m => Sys2Proof.Machine.execUnlistedMessage m s
  | .hostRead m => Sys2Proof.Machine.execHostRead m s
  | .hostWrite m => Sys2Proof.Machine.execHostWrite m s
  | .hostSnoop half take => Sys2Proof.Machine.execHostSnoop half take s
  | .bisnpResponse half dirty => Sys2Proof.Machine.execBisnpResponse half dirty s
  | .hostSnoopTimeout half => Sys2Proof.Machine.execHostSnoopTimeout half s
  | .spdmRequest port alg index => Sys2Proof.Machine.execSpdmRequest port alg index s
  | .windowStore queue m => Sys2Proof.Machine.execWindowStore queue m s
  | .launchSeal queue => Sys2Proof.Machine.execLaunchSeal queue s
  | .bindRecord recs => Sys2Proof.Machine.execBindRecord recs s
  | .classifierWindowEnd core => Sys2Proof.Machine.execClassifierWindowEnd core s
  | .launchComplete launch => Sys2Proof.Machine.execLaunchComplete launch s
  | .jobCardReady card => Sys2Proof.Machine.execJobCardReady card s
  | .jobCardSteal core card => Sys2Proof.Machine.execJobCardSteal core card s
  | .frameTickAdvance part => Sys2Proof.Machine.execFrameTickAdvance part s
  | .releaseTick launch group => Sys2Proof.Machine.execReleaseTick launch group s
  | .deadlineSlip launch group => Sys2Proof.Machine.execDeadlineSlip launch group s
  | .slipEnd part => Sys2Proof.Machine.execSlipEnd part s
  | .powerSample p => Sys2Proof.Machine.execPowerSample p s
  | .powerStallEnd => Sys2Proof.Machine.execPowerStallEnd s
  | .preemptRequest who => Sys2Proof.Machine.execPreemptRequest who s
  | .preemptGrant who => Sys2Proof.Machine.execPreemptGrant who s
  | .strandRestore who saved => Sys2Proof.Machine.execStrandRestore who saved s
  | .errorFreeze asids => Sys2Proof.Machine.execErrorFreeze asids s
  | .coreHardwareStop core => Sys2Proof.Machine.execCoreHardwareStop core s
  | .pllLossOfLock die => Sys2Proof.Machine.execPllLossOfLock die s
  | .powerOn p => Sys2Proof.Machine.execPowerOn p s
  | .i3cReadBlackBox die => Sys2Proof.Machine.execI3cReadBlackBox die s
  | .i3cReadPowerSamples => Sys2Proof.Machine.execI3cReadPowerSamples s
  | .i3cReadBringupStatus => Sys2Proof.Machine.execI3cReadBringupStatus s
  | .i3cWritePowerCap watts => Sys2Proof.Machine.execI3cWritePowerCap watts s
  | .createAsid c => Sys2Proof.Machine.execCreateAsid c s
  | .bindQueue c => Sys2Proof.Machine.execBindQueue c s
  | .unbindQueue c => Sys2Proof.Machine.execUnbindQueue c s
  | .unbindQueueDone c => Sys2Proof.Machine.execUnbindQueueDone c s
  | .mapAccessGroup c => Sys2Proof.Machine.execMapAccessGroup c s
  | .setRegion c => Sys2Proof.Machine.execSetRegion c s
  | .setRights c => Sys2Proof.Machine.execSetRights c s
  | .definePartition c => Sys2Proof.Machine.execDefinePartition c s
  | .setProtection c => Sys2Proof.Machine.execSetProtection c s
  | .defineReservationClass c => Sys2Proof.Machine.execDefineReservationClass c s
  | .defineHostRange c => Sys2Proof.Machine.execDefineHostRange c s
  | .flipBias c => Sys2Proof.Machine.execFlipBias c s
  | .biasFlipEnd page => Sys2Proof.Machine.execBiasFlipEnd page s
  | .tearDown c => Sys2Proof.Machine.execTearDown c s
  | .scrubPage c readBackOk => Sys2Proof.Machine.execScrubPage c readBackOk s
  | .restoreLink c trained => Sys2Proof.Machine.execRestoreLink c trained s
  | .updateFirmware c verified => Sys2Proof.Machine.execUpdateFirmware c verified s
  | .setNode c => Sys2Proof.Machine.execSetNode c s
  | .writeRouteEntry c => Sys2Proof.Machine.execWriteRouteEntry c s
  | .queueStatus c => Sys2Proof.Machine.execQueueStatus c s
  | .unknownCommand c => Sys2Proof.Machine.execUnknownCommand c s
  | .emptyBundle => Sys2Proof.Machine.execEmptyBundle s
  | .reservedEncoding w => Sys2Proof.Machine.execReservedEncoding w s
  | .slotZeroFillComplete core zone slot => Sys2Proof.Machine.execSlotZeroFillComplete core zone slot s
  | .mailboxStore m => Sys2Proof.Machine.execMailboxStore m s
  | .cxlCacheResponse line owned bytes => Sys2Proof.Machine.execCxlCacheResponse line owned bytes s
  | .snapfitQuery m => Sys2Proof.Machine.execSnapfitQuery m s
  | .powerLoss => Sys2Proof.Machine.execPowerLoss s

end Sys2Proof.Machine
end

