-- ==== Sys2Proof/Machine/Bundle.lean ====
section
/-! DEFINITION. Issuing one bundle of one context: fetch, the checks before any slot, the slots, and how the
bundle closes (R41 to R47, R61 to R66, R97, R100, R336, R342). -/

namespace Sys2Proof.Machine

/-- The issue of a context begins. -/
def State.beginIssue (s : State) (w : Who) : State :=
  let c := s.ctx w
  let replay := decide (c.replay ≠ 0)
  s.setCur {
    core := w.core, ctx := w.ctx, seq0 := c.seq, key0 := (s.core w.core).nextKey, replay := replay,
    lfsr := c.blockStart, ab0 := (s.core w.core).ab, zones0 := (s.core w.core).zones }

/-- A fetch fault of a bundle (R65 causes 1 and 2). -/
def State.fetchTrap (s : State) (r : OpRes) : State :=
  let pc := s.regs.pc
  match r with
  | .trap c i => s.bundleTrap c i pc (s.freshResume pc)
  | .trapIn t c i => t.bundleTrap c i pc (s.freshResume pc)
  | .denied d va =>
    (s.logRefusal d s.myCore.asid).bundleTrap cPROT (addrInfo 2 va) pc (s.freshResume pc)
  | .poison src pa => (s.setCur { s.cur with poison := some (src, pa) }).closeBundle
  | .block ws => (s.setCur { s.cur with waits := ws }).closeBundle
  | .done s => s

/-- The packet of the bundle at `a` is not cached: what the context waits for, or the fault of its fetch (R61, R62,
R65, R305). -/
def State.missingPacket (s : State) (a : Nat) : OpRes :=
  let base := a / 64 * 64
  if inWindow a then prot 4 a
  else if inAperture a then prot 6 a
  else
    match s.translate s.who a .fetch with
    | .error r => r
    | .ok p =>
      match s.fetchRefused s.who p with
      | some d => .denied d a
      | none =>
        match s.me.reply (.fill base) with
        | some r =>
          if r.status = 0 ∨ r.status = stRetry then .block [.fill base]
          else if r.status = 3 then dataFault .fetch 3 a
          else statusFault r.status a (p.pa / 64 * 64 + leNat r.bytes)
        | none => .block [.fill base]

/-- The ops of the bundle that this issue runs: all, or in a replay those of the mask (R342). -/
def State.running (s : State) (ops : List (Nat × Word × Instr)) : List (Nat × Word × Instr) :=
  ops.filter fun o => s.runs o.1

/-- What TRET needs to issue every present slot again (R336). -/
def State.wholeResume (s : State) (ops : List (Nat × Word × Instr)) : Resume :=
  ⟨((s.running ops).map fun o => 2 ^ o.1).sum, s.me.resumeAt, s.me.blockStart, s.captureAll ops⟩

/-- The operand code that ILLDEP reports for a register of the check (R66): its number in its own file, of a control
register the low seven bits (log entry 92). -/
def reportCode (k : Nat) : Nat :=
  if k < 0x110 then k % 128
  else if k < 0x200 then k - 0x110
  else if k < 0x320 then (k - (if k < 0x300 then 0x200 else 0x300)) % 128
  else if k < 0x400 then k - 0x320
  else k % 128

/-- A fault of the whole bundle before its slots: the group rule, then the ports (R45 to R47, R65, R127). -/
def State.bundleFault (s : State) (ops : List (Nat × Word × Instr)) : Option (Byte × Dword) :=
  let run := s.running ops
  let info (n : Nat) (w : Word) (hi : Nat) : Dword := BitVec.ofNat 64 (w.toNat + n * 2 ^ 32 + hi * 2 ^ 36)
  let full : Option (Nat × Word × Nat × Bool) :=
    if 16 ≤ s.regs.grp.count then (ops.head?.map fun o => (o.1, o.2.1, 0, false)) else none
  match (if 16 ≤ s.regs.grp.count ∧ ops.isEmpty then some (0, (0 : Word), 0, false) else full) with
  | some (n, w, _, _) => some (cILLDEP, info n w 0)
  | none =>
    match groupFault s run s.regs.grp with
    | some (n, w, r, wr) => some (cILLDEP, info n w (reportCode r + if wr then 128 else 0))
    | none =>
      match portLimit s run [] with
      | some (n, w) => some (cSTRUCT, info n w 5)
      | none => none

/-- The outcome of one op, carried on. -/
def carryOn (o : Outcome) (f : State → Outcome) : Outcome :=
  match o with
  | .next s => f s
  | .fault r => .fault r
  | .refused r => .refused r

/-- Draws of a slot that a replay passes over: its block was allotted at the first issue (R82, R342). -/
def State.passDraws (s : State) (i : Instr) : State :=
  if s.guardOk (guardOfInstr i) && !s.cur.draws.isEmpty then
    s.setCur { s.cur with lfsr := lfsrSteps (s.drawsOf i) s.cur.lfsr }
  else s

/-- Put a slot's op under the cursor. -/
def State.atSlot (s : State) (o : Nat × Word × Instr) (more : Bool) : State :=
  s.setCur { s.cur with slot := o.1, word := o.2.1, more := more }

/-- Run the slots in mask order, none of them closing the bundle. -/
def runSlots : List (Nat × Word × Instr) → State → Outcome
  | [], s => .next s
  | o :: t, s =>
    if s.runs o.1 then carryOn (exec o.2.2 (s.atSlot o true)) (runSlots t)
    else runSlots t ((s.atSlot o true).passDraws o.2.2)

/-- The op of one slot run alone, ahead of its bundle; none where it blocks. -/
def State.runAlone (s : State) (o : Nat × Word × Instr) : Option State :=
  match exec o.2.2 (s.atSlot o true) with
  | .next u => if u.cur.waits.length = s.cur.waits.length then some u else none
  | _ => none

/-- The bundle's FENCE takes effect with an M0 op that is performed ahead of its bundle, and before it (R270, R282). -/
def State.earlyFence (s : State) : Option State :=
  match s.cur.ops.find? (fun o => decide (o.1 = 0)) with
  | some (n, w, .fence g a sh) =>
    if s.runs 0 ∧ s.guardOk g ∧ ¬ s.me.early.getLsbD 0 then
      (s.runAlone (n, w, .fence g a sh)).map fun u => u.setMe { u.me with early := u.me.early ||| 1#11 }
    else some s
  | _ => some s

/-- Perform the op of the M0 slot alone, ahead of the requests of M1, and keep what it gives (log entry 25). -/
def State.earlyM0 (s : State) : State :=
  match s.cur.ops.find? (fun o => decide (o.1 = 3)) with
  | none => s
  | some o =>
    match s.earlyFence with
    | none => s
    | some f =>
      match f.runAlone o with
      | none => s
      | some u =>
        let b : Bound := ⟨u.cur.outs.drop f.cur.outs.length, u.cur.vouts.drop f.cur.vouts.length⟩
        u.setMe { u.me with early := u.me.early ||| 8#11, bound := some b }

/-- The words to be written back before a system-scope fence of the blocked bundle itself lets its other ops go on are
asked for (R282). -/
def State.fenceWait (s t : State) : Cursor :=
  if t.me.wantsFlush && s.wet s.who && !t.m0First then { t.cur with waits := t.cur.waits ++ [.sysrel 0] } else t.cur

/-- Close a bundle of several slots whose ops have run on `s` and given `t`: one that blocks or consumes
poison leaves no trace of its slots (R97, R358). -/
def State.closeSlots (s t : State) : State :=
  if t.cur.poison.isSome then (s.setCur t.cur).closeBundle
  else if !t.cur.waits.isEmpty then
    let u := (s.setCur (s.fenceWait t)).closeBundle
    if t.m0First then u.earlyM0 else u
  else t.closeBundle

/-- The core leads a pair of a twin-protected launch, and the pair's signatures differ (R361). -/
def State.twinMismatch (s : State) : Bool :=
  s.dev.twin.getLsbD (corePod s.cur.core) && (s.launch s.myCore.binding.launch).rc.flags.getLsbD 2 &&
    Config.twinDiffers s.tick

/-- The bundle whose signatures differ consumes an error of source 6 (R358, R361). -/
def State.twinFault (s : State) : State := (s.logCtx s.who 0x13 0).consume 6 0

/-- Close a bundle whose ops have run on `s` and given `t`; one that would complete may be found to differ between the
cores of a pair. -/
def State.closeTwin (s t : State) : State :=
  if t.cur.poison.isNone && t.cur.waits.isEmpty && s.twinMismatch then s.twinFault else s.closeSlots t

/-- The next packet of sequential flow is fetched ahead when that raises nothing (R61). -/
def State.prefetch (s : State) (w : Who) : State :=
  let k := s.core w.core
  let base := ((k.ctx w.ctx).regs.pc.toNat / 64 + 1) * 64
  if !(Map.get [] k.pkts (base / 64)).isEmpty || decide ((.sequentialPrefetch w.core base) ∈ s.pending) then s
  else
    match s.packetWait w base with
    | some (.fill _) => s.post (.sequentialPrefetch w.core base)
    | _ => s

/-- Issue a fetched bundle. -/
def State.issueBundle (s : State) (pc : Addr) (ops : List (Nat × Word × Instr)) (stop : Bool) (succ : Addr) :
    Outcome :=
  let s := s.setRegs { s.regs with pc := pc }
  let s := s.setCur { s.cur with ops := ops, stop := stop, succ := succ }
  match s.bundleFault ops with
  | some (c, i) => .next (s.bundleTrap c i pc (s.wholeResume ops))
  | none =>
    match ops with
    | [] => if s.twinMismatch then .next s.twinFault else exec .emptyBundle s
    | [o] =>
      if !s.runs o.1 then .next s.closeBundle
      else if s.twinMismatch then carryOn (runSlots ops s) fun t => .next (s.closeTwin t)
      else exec o.2.2 (s.atSlot o false)
    | _ => carryOn (runSlots ops s) fun t => .next (s.closeTwin t)

/-- Fetch the next bundle of the issuing context and issue it. -/
def State.fetchAndIssue (s : State) : Outcome :=
  match s.myCore.fetch s.isRegrow s.regs.pc with
  | .absent _ => .next (s.fetchTrap (s.missingPacket s.regs.pc.toNat))
  | .skip a => .next (s.setRegs { s.regs with pc := a })
  | .bad c i pc => .next ((s.setRegs { s.regs with pc := pc }).bundleTrap c i pc (s.freshResume pc))
  | .poison src pa => .next (s.consume src pa)
  | .bundle pc ops stop succ => s.issueBundle pc ops stop succ

/-- The bundle of a branch, call, return or loop set-up has issued, and its target's packet was not cached: it is
judged before any later bundle (R64). A fault of the target is the op's own, replayed alone; one of the fetch is
a fetch fault of the target's bundle. -/
def State.judgeBranch (s : State) (b : Branch) : Outcome :=
  let s' := s.setMe { s.me with branch := none }
  match Map.get [] s.myCore.pkts (b.target / 64) with
  | [] =>
    let at_ : Addr := BitVec.ofNat 52 b.target
    let res := s.freshResume at_
    .next (match s.missingPacket b.target with
      | .block ws => (s.setCur { s.cur with waits := ws }).closeBundle
      | .trap c i => s'.bundleTrap c i at_ res
      | .trapIn t c i => t.bundleTrap c i at_ res
      | .denied d va => (s'.logRefusal d s.myCore.asid).bundleTrap cPROT (addrInfo 2 va) at_ res
      | .poison src pa => s'.consume src pa
      | .done t => t)
  | p =>
    match targetBad p b.target with
    | some (c, i) => .next (s'.takeTrap s.who c i b.img.pc b.img (tickRegs true b.img) ⟨1, 0, b.draw, b.capt⟩)
    | none =>
      let next := succOf p (b.target / 64 * 64) (b.target % 64 / 2)
      (if b.skip then s'.setRegs { s.regs with pc := next } else s').fetchAndIssue

/-- Issue the next bundle of a context; a slice that has run its most bundles fails instead (R291). The
cursor is left as the issue made it. -/
def State.issue (s : State) (w : Who) : Outcome :=
  let s := s.beginIssue w
  let go (s : State) : Outcome := match s.me.branch with
    | some b => s.judgeBranch b
    | none => s.fetchAndIssue
  match s.me.slice with
  | some sl => if sl.max ≤ sl.used then .next (s.failSlice w cRFAIL 2 0 none) else go s
  | none => go s

/-! ## Which context issues (R96 to R99, R123) -/

/-- The context may be chosen at all; one whose pre-emption is granted at this boundary issues no more (R345). -/
def State.eligible (s : State) (core x : Nat) : Bool :=
  let k := s.core core
  let c := k.ctx x
  decide (c.life = .running) && !c.hold && !k.dead && !s.gated c && !(c.preempt && s.canSave ⟨core, x⟩) && (decide (x ≠ 4) || k.svc.isSome) &&
    !(Map.get {} s.dev.asids k.asid).frozen

/-- What an issue of a context gives, when it gets anywhere: it does not block, or it blocks on something
it has not asked for yet. -/
def State.tryIssue (s : State) (w : Who) : Option Outcome :=
  match s.issue w with
  | .next t =>
    let a := s.ctx w
    let b := t.ctx w
    let stuck := !t.cur.waits.isEmpty && decide (a.waits = b.waits) && decide (a.asked = b.asked) &&
      decide (a.early = b.early) && decide (a.bound = b.bound) && decide (a.replies = b.replies) &&
      !a.waits.any (s.idleWalk w)
    if stuck then none else some (.next t)
  | r => some r

/-- The first of a list by R98, items 2 to 4. -/
def State.bestOf (s : State) (core : Nat) : List Nat → Option Nat
  | [] => none
  | x :: t => some (t.foldl (fun a b => if s.before core b a then b else a) x)

/-- A hold waits for service: ctxS begins at the hold vector for the held context that R98 puts first
(R343). -/
def State.serve (s : State) (core : Nat) : State :=
  let k := s.core core
  if k.svc.isSome then s
  else
    match s.bestOf core k.held with
    | none => s
    | some x =>
      let c := k.ctx 4
      let b := k.binding
      let c := { c with
        life := .running, waits := [], asked := [], replies := [],
        regs := { c.regs with pc := BitVec.ofNat 52 (b.image + 2 * b.holdVec) } }
      s.setCore core { (k.setCtx 4 c) with svc := some x, port := none }

/-- The contexts of a core that can issue, with what their issue gives. -/
def State.ready (s : State) (core : Nat) : List (Nat × Outcome) :=
  ((s.core core).ctxs.map (·.1)).filterMap fun x =>
    if s.eligible core x then (s.tryIssue ⟨core, x⟩).map fun o => (x, o) else none

/-- The context that issues next: the port's holder while it is ready, else by R98, those passed over by a
yield waiting their turn (R96, R123). -/
def State.choose (s : State) (core : Nat) (ready : List Nat) : Option Nat :=
  let k := s.core core
  let turn := ready.filter fun x => (Map.get [] k.yielded x).all fun y => decide (y ∉ ready)
  let pool := if turn.isEmpty then ready else turn
  match k.port with
  | some x => if x ∈ ready then some x else if 4 ∈ pool then some 4 else s.bestOf core pool
  | none => if 4 ∈ pool then some 4 else s.bestOf core pool

/-- A context that has just yielded waits for the contexts that were ready (R123). -/
def State.settleYield (s : State) (w : Who) (ready : List Nat) : State :=
  let k := s.core w.core
  let l := (Map.get [] k.yielded w.ctx).filter fun x => decide (x ∈ ready)
  s.setCore w.core { k with yielded := Map.put [] k.yielded w.ctx l }

/-- The context that holds the port can issue (R96). -/
def State.keepsPort (s : State) (core : Nat) : Bool :=
  match (s.core core).port with
  | some x => s.eligible core x && (s.tryIssue ⟨core, x⟩).isSome
  | none => false

/-- A hold that waits is served once no context keeps the port (R96, R343). -/
def State.served (s : State) (core : Nat) : State := if s.keepsPort core then s else s.serve core

/-- The issue that a core makes next, if it can make one: of the context that holds the port while it is ready,
else, once a hold that waits is being served, of the one that R98 chooses (R96, R343). -/
def State.coreIssue (s : State) (core : Nat) : Option Outcome :=
  let s := s.served core
  let ready := s.ready core
  match s.choose core (ready.map (·.1)) with
  | none => none
  | some x =>
    (ready.find? fun p => p.1 = x).map fun p =>
      carryOn p.2 fun t => .next ((t.settleYield ⟨core, x⟩ (ready.map (·.1))).prefetch ⟨core, x⟩)

end Sys2Proof.Machine
end

