-- ==== Sys2Proof/Machine/Moves.lean ====
section
/-! DEFINITION. What can happen next: a core issues, a message arrives or an engine completes, the management
core runs a command, a time runs out; and what it does. -/

namespace Sys2Proof.Machine

/-! ## Times that run out (R99, R235, R238, R315, R324, R370, R376) -/

/-- A time that has run out. -/
inductive Timer where
  | ticks
  | quantum (core : Nat)
  | classifier (core : Nat)
  | slot (core zone slot : Nat)
  | queued (core tag : Nat)
  | answer (tag : Nat)
  | packets (x : XferId)
  | reserve (tag : Nat)
  | native (tag : Nat)
  | snoop (half : Nat)
  deriving DecidableEq, Repr

/-- Cycles since a moment. -/
def State.since (s : State) (t : Dword) : Nat := (s.dev.cycle - t).toNat

/-- The quantum of the context that holds a core's port has run out, and another that may take its place is
ready (R99). -/
def State.quantumDue (s : State) (core : Nat) : Bool :=
  let k := s.core core
  match k.port with
  | none => false
  | some x =>
    let ys := s.quantumRivals core x
    decide (1024 ≤ s.since k.runStart) &&
      (decide (k.svc.isNone ∧ 4 ∈ ys) || (s.ready core).any fun y => decide (y.1 ∈ ys))

/-- The times of one core that have run out. -/
def State.coreTimers (s : State) (core : Nat) (k : Core) : List Timer :=
  (if s.quantumDue core then [.quantum core] else []) ++
    (if !k.classDone && decide (65536 ≤ s.since k.classStart) then [.classifier core] else []) ++
    (k.zones.flatMap fun z => (z.2.slots.filter fun l =>
      l.2.live && decide (125000 ≤ s.since l.2.since)).map fun l => .slot core z.1 l.1) ++
    (k.lzq.filter fun q => decide (125000 ≤ s.since q.since)).map fun q => .queued core q.req.tag

/-- The times of the device that have run out. -/
def State.deviceTimers (s : State) : List Timer :=
  let d := s.dev
  (if d.lastTick.toNat < d.cycle.toNat / 16 then [.ticks] else []) ++
    ((d.lzOut.filter fun o => decide (250000 ≤ s.since o.sent)).map fun o => .answer o.req.tag) ++
    ((d.lzOut.filter fun o => o.ethernet && decide (12500 ≤ s.since o.resent)).map fun o => .reserve o.req.tag) ++
    ((d.lzSends.filter fun l => l.ethernet && decide (12500 ≤ s.since l.since)).map fun l => .packets l.x) ++
    ((d.natReqs.filter fun r => decide (125000 ≤ s.since r.sent)).map fun r => .native r.tag) ++
    (d.bisnp.filter fun b => decide (125000 ≤ s.since b.sent)).map fun b => .snoop b.half

/-- The first time that has run out; a power stall counts in none of them (R327). -/
def State.dueTimer (s : State) : Option Timer :=
  if s.dev.stall.isSome then none
  else (s.deviceTimers ++ s.cores.flatMap fun k => s.coreTimers k.1 k.2).head?

/-- What happens when a time runs out. -/
def runTimer (t : Timer) (s : State) : Outcome :=
  match t with
  | .ticks => .next (s.runTicks (s.dev.cycle.toNat / 16 - s.dev.lastTick.toNat))
  | .quantum core => execQuantumExpire core s
  | .classifier core => execClassifierWindowEnd core s
  | .slot core zone slot => execLzSlotTimeout core zone slot s
  | .queued core tag => execLzresQueueTimeout core tag s
  | .answer tag => execLzresAnswerTimeout tag s
  | .packets x => execLzpktResendTimeout x s
  | .reserve tag => execLzresResendTimeout tag s
  | .native tag => execNativeRequestTimeout tag s
  | .snoop half => execHostSnoopTimeout half s

/-! ## Moves -/

/-- What an agent can do next. -/
inductive Move where
  | issue (core : Nat)
  | event (i : Instr)
  | command (c : Cmd)
  | native (m : NatMsg)
  | host (write : Bool) (m : HostReq)
  | bind (rs : List BindRec)
  | unbound (c : Cmd)
  | flip (page : Nat)
  deriving DecidableEq, Repr

/-- The core whose engine starts a request with the step, if an engine does. -/
def engineCore (i : Instr) : Option Nat := match i with
  | .transferComplete x => some x.core
  | .apertureStore x => some x.core
  | .copyComplete x => some x.core
  | .gatherRowArrive w => some w.core
  | .heldStorePerform w => some w.core
  | .nlStreamTransfer c _ => some c
  | .sequentialPrefetch c _ => some c
  | .jobCardSteal c _ => some c
  | .atomscSend w => some w.core
  | .preemptGrant w => some w.core
  | .strandRestore w _ => some w.core
  | _ => none

/-- The address space whose engine starts a request with the step. -/
def State.engineAsid (s : State) (i : Instr) : Option Nat := match i with
  | .sliceStart tile => (s.recipe tile).map (·.asid)
  | _ => (engineCore i).map fun c => (s.core c).asid

/-- The step ends a 128-byte unit that its transfer has begun (R362). -/
def State.endsUnit (s : State) (i : Instr) : Bool := match i with
  | .transferComplete x => (match s.findXfer x with
    | some t => t.midUnit
    | none => false)
  | _ => false

/-- The word whose home takes the step, if a home takes it. -/
def homeWord (i : Instr) : Option Nat := match i with
  | .reg m => some m.word
  | .read m => some m.word
  | .wb m => some m.word
  | .gone m => some m.word
  | .bypassWrite m => some m.word
  | .atomicAtHome m => some m.pa
  | .atomscArrive o => some o.pa
  | .atomscApply o => some o.pa
  | _ => none

/-- The management core takes part in the event. -/
def ofManagement (i : Instr) : Bool := match i with
  | .bindRecord _ => true
  | .preemptRequest _ => true
  | .mailboxStore _ => true
  | _ => false

/-- The event can happen although bring-up has failed: power, the mailbox and the management port (R382, R385). -/
def beforeBringup (i : Instr) : Bool := match i with
  | .powerLoss => true
  | .powerOn _ => true
  | .powerSample _ => true
  | .mailboxStore _ => true
  | .i3cReadBlackBox _ => true
  | .i3cReadPowerSamples => true
  | .i3cReadBringupStatus => true
  | .i3cWritePowerCap _ => true
  | _ => false

/-- The last step of bring-up that has been done is the sixth or the seventh: the ports are up (R382). -/
def Device.portsUp (d : Device) : Bool := decide (d.bringup = 0#3) || decide (d.bringup = 7#3)

/-- The die of the management core runs (R379, R381). -/
def Device.managed (d : Device) : Bool := !d.deadDies.getLsbD 0

/-- The stream of posted writes that a host's write at the agent apertures belongs to: on its way from the host's port,
or arrived from a host's node. Each keeps its order (R373). -/
def State.postedIn (s : State) (i : Instr) : Option (Bool × Nat) :=
  let ofHost (n : Nat) : Option (Bool × Nat) :=
    if (Map.get {} s.dev.routes n).kind = 2#2 then some (true, n) else none
  match i with
  | .hostWrite m => if isAgent (m.half * 64) then some (false, m.host.toNat) else none
  | .windowStore _ m => ofHost m.node
  | .mailboxStore m => ofHost m.node
  | _ => none

/-- No earlier posted write of its stream waits (R373). -/
def State.inOrder (s : State) (i : Instr) : Bool :=
  match s.postedIn i with
  | some h => decide (s.pending.find? (fun j => decide (s.postedIn j = some h)) = some i)
  | none => true

/-- An event can happen now: bring-up has come so far, its engine starts no request in a frozen address space or during a
power stall, its home's die has not stopped, and posted writes keep their order (R327, R362, R373, R381, R382). -/
def State.canHappen (s : State) (i : Instr) : Bool :=
  (s.dev.portsUp || beforeBringup i) && (s.dev.managed || !ofManagement i) && s.inOrder i &&
  (match s.engineAsid i with
   | some a => s.endsUnit i || !((Map.get {} s.dev.asids a).frozen || s.dev.stall.isSome)
   | none => true) &&
  (match homeWord i with
   | some k => decide (2 ^ 52 ≤ k) || !s.dev.deadDies.getLsbD (homeDie k)
   | none => true)

/-! ## The transfer unit (R232) -/

/-- The context whose request a transfer unit serves with the step: of a channel, or of a gather queue. -/
def State.unitOwner (s : State) (i : Instr) : Option Who := match i with
  | .transferComplete x => (s.findXfer x).map fun t => ⟨x.core, t.ctx⟩
  | .copyComplete x => (s.findXfer x).map fun t => ⟨x.core, t.ctx⟩
  | .gatherRowArrive w => some w
  | _ => none

/-- The requests that wait at a core's transfer unit, the one that has waited longest first, with their
contexts' effective priorities. -/
def State.unitWaiting (s : State) (core : Nat) : List (Instr × Nat) :=
  s.pending.filterMap fun i => match s.unitOwner i with
    | some w => if w.core = core ∧ s.canHappen i then some (i, s.effPrio 8 w) else none
    | none => none

/-- The request that the unit serves next: every 16th the one that has waited longest, else one of the highest
effective priority, in turn. -/
def State.unitNext (s : State) (core : Nat) : Option Instr :=
  match s.unitWaiting core with
  | [] => none
  | p :: t =>
    if (s.core core).unit % 16 = 15 then some p.1
    else some (t.foldl (fun a b => if a.2 < b.2 then b else a) p).1

/-- The step is not a request of a transfer unit, or it is the one served next. -/
def State.unitTurn (s : State) (i : Instr) : Bool := match s.unitOwner i with
  | some w => decide (s.unitNext w.core = some i)
  | none => true

/-- A command that unbinds a queue and can complete. -/
def State.unboundNow (s : State) : List Cmd :=
  s.dev.queues.filterMap fun q => match q.2.closing with
    | some c => if s.queueLive q.1 then none else some c
    | none => none

/-- Everything that can happen next. No core issues during a power stall (R327). -/
def State.moves (s : State) : List Move :=
  let d := s.dev
  (if d.stall.isSome then [] else (s.cores.map (·.1)).filter (fun c => (s.coreIssue c).isSome) |>.map .issue) ++
    (s.pending.filter fun i => s.canHappen i && s.unitTurn i).map .event ++
    (if d.managed then d.mbox.accepted.head?.toList.map .command ++ s.unboundNow.map .unbound else []) ++
    d.natHeld.map .native ++ (d.hostHeld.map fun h => .host h.1 h.2) ++ d.bindHeld.map .bind ++
    (d.flips.filter fun f => f.started || s.pageQuiet f.page).map fun f => .flip f.page

/-- The management core runs a command by its code (R384). -/
def runCommand (c : Cmd) (s : State) : Outcome :=
  let code := c.arg 0 1
  if code = 0x01 then execCreateAsid c s
  else if code = 0x02 then execBindQueue c s
  else if code = 0x03 then execUnbindQueue c s
  else if code = 0x04 then execMapAccessGroup c s
  else if code = 0x05 then execSetRegion c s
  else if code = 0x06 then execSetRights c s
  else if code = 0x07 then execDefinePartition c s
  else if code = 0x08 then execSetProtection c s
  else if code = 0x09 then execDefineReservationClass c s
  else if code = 0x0A then execDefineHostRange c s
  else if code = 0x0B then execFlipBias c s
  else if code = 0x0C then execTearDown c s
  else if code = 0x0D then execScrubPage c (Config.readBackOk s.tick) s
  else if code = 0x0E then execRestoreLink c (Config.trained s.tick) s
  else if code = 0x0F then execUpdateFirmware c (s.verdict c) s
  else if code = 0x10 then execSetNode c s
  else if code = 0x11 then execWriteRouteEntry c s
  else if code = 0x12 then execQueueStatus c s
  else execUnknownCommand c s

/-- A request of another device that has waited at a home (R376). -/
def runNative (m : NatMsg) (s : State) : Outcome :=
  if m.kind = 1 then execRd m s else if m.kind = 3 then execWr m s
  else if m.kind = 5 then execAtomMsg m s else execTlbinvMsg m s

/-- The message from another device that an event brings. -/
def messageOf (i : Instr) : Option NatMsg := match i with
  | .rd m => some m
  | .rdrsp m => some m
  | .wr m => some m
  | .wrack m => some m
  | .atomMsg m => some m
  | .atomrsp m => some m
  | .tlbinvMsg m => some m
  | .tlback m => some m
  | .unlistedMessage m => some m
  | _ => none

/-- A landing message that came from another device. -/
def State.landsFromAfar (s : State) (i : Instr) : Bool := match i with
  | .lzresMsg m => decide (m.tag ≠ 65536) && decide (m.node ≠ s.dev.node.toNat)
  | .lzpkt m => decide (m.node ≠ s.dev.node.toNat)
  | .lzabort _ => true
  | _ => false

/-- The ports do not take the message that an event brings (R375, R376). -/
def State.messageDropped (s : State) (i : Instr) : Bool :=
  match messageOf i with
  | some m => s.natDropped m
  | none => !s.dev.nodeSet && s.landsFromAfar i

/-- Make a move: what it takes up is no longer pending, and a message that the ports drop comes to nothing (R375, R376). -/
def runMove (m : Move) (s : State) : Outcome :=
  match m with
  | .issue core => (s.coreIssue core).getD (.next s)
  | .event i =>
    let s := { s with pending := s.pending.erase i }
    if s.messageDropped i then .next s else exec i s
  | .command c => runCommand c s
  | .native m => runNative m (s.setDev { s.dev with natHeld := s.dev.natHeld.erase m })
  | .host w m =>
    let s := s.setDev { s.dev with hostHeld := s.dev.hostHeld.erase (w, m) }
    if w then execHostWrite m s else execHostRead m s
  | .bind rs => State.tryBind (s.setDev { s.dev with bindHeld := s.dev.bindHeld.erase rs }) rs
  | .unbound c => execUnbindQueueDone c s
  | .flip page => execBiasFlipEnd page s

/-- The move that is made, of those that can be (log entry 5). -/
def State.chooseMove (s : State) : List Move → Option Move
  | [] => none
  | [m] => some m
  | m :: t => some ((m :: t).getD (Config.pick s.tick % (t.length + 1)) m)

/-- One move, or none when nothing can happen. -/
def State.move (s : State) : Outcome :=
  match s.chooseMove s.moves with
  | some m => runMove m s
  | none => .next s

/-! ## Between steps -/

/-- The issue in progress is over, and the step is counted. -/
def State.rest (s : State) : State := { s with cur := {}, tick := s.tick + 1 }

/-- A counter that saturates in 64 bits (R365). -/
def satAdd (a : Dword) (n : Nat) : Dword := BitVec.ofNat 64 (min (a.toNat + n) (2 ^ 64 - 1))

/-- The ticks that have passed outside power stalls (R327). -/
def Device.workTicks (d : Device) : Nat := (d.stall.getD d.cycle).toNat / 16 - d.pwrstall.toNat

/-- Record a correction at a core, the first at its place in each 4,096 ticks: the rings and the spans of the last
records (R355). -/
def noteCorrection (d : Device) (key : Nat) (k : Nat × Core) (x : Map BlackBox × Map Nat) : Map BlackBox × Map Nat :=
  let place := k.1 * 2 ^ 27 + Config.correctedAt key % 2 ^ 27
  let span := d.workTicks / 4096 + 1
  if Config.corrections key = 0 ∨ Map.get 0 x.2 place = span then x
  else
    let b := (Map.get {} x.1 (coreDie k.1)).add d.cycle (eventWord 0x08 k.2.asid k.1 7 (place % 2 ^ 27))
    (Map.put {} x.1 (coreDie k.1) b, Map.put 0 x.2 place span)

/-- The corrections of a step at every core. -/
def State.corrections (s : State) (t : Nat) : Map BlackBox × Map Nat :=
  s.cores.foldl (fun x k => noteCorrection s.dev (t * 576 + k.1) k x) (s.dev.bbox, s.dev.corrected)

/-- The clocks do not run: a step of bring-up before the loops lock has failed (R382). -/
def Device.stopped (d : Device) : Bool := decide (1 ≤ d.bringup.toNat) && decide (d.bringup.toNat ≤ 3)

/-- Time passes: at least a cycle, and corrections are counted (R354, R355, log entries 8 and 9). -/
def State.pass (s : State) : State :=
  let t := s.tick
  let s := s.rest
  if !s.dev.power || s.dev.stopped then s
  else
    let s := s.dropsArrive
    { s with
      dev := { s.dev with
        cycle := s.dev.cycle + 1 + BitVec.ofNat 64 (Config.elapse t),
        bbox := (s.corrections t).1, corrected := (s.corrections t).2 },
      cores := s.cores.map fun (k : Nat × Core) =>
        (k.1, { k.2 with errcnt := satAdd k.2.errcnt (Config.corrections (t * 576 + k.1)) }) }

/-- The package is without power: only POWER_ON can happen (R382, R386). -/
def State.dark (s : State) : Outcome :=
  match s.pending.find? (fun i => match i with
      | .powerOn _ => true
      | _ => false) with
  | some i => carryOn (runMove (.event i) s) fun s => .next s.pass
  | none => .fault .unpowered

/-- A step of a powered device: a time that has run out, else a move. -/
def State.advance (s : State) : Outcome :=
  match s.dueTimer with
  | some t => carryOn (runTimer t s) fun s => .next s.rest
  | none => carryOn s.move fun s => .next s.pass

/-! ## A program placed by hand (log entry 40) -/

/-- The launch that a word placed at the fetch runs in: one strand on core 0. -/
def handLaunch : Launch := {
  rc := { image := 0x400000, n := 1, c := 0, maxSteps := 65536, levels := [1], pb1 := 0x4000, pb2 := 0x8000,
          pb3 := 0x1F0000, w := 64 },
  asid := 1, strands := 1, at_ := [(0, some ⟨0, 0⟩)], bound := [0] }

/-- The slot that a word placed at the fetch goes to. -/
def handSlot (w : Nat) : Nat := match decodeTableWord 32 w with
  | some i => slotKind i
  | none => 0

/-- A packet that holds one literal bundle of one op (R37, R39, R42). -/
def handPacket (w : Nat) : List Byte :=
  let h := 0x1800 + 2 ^ handSlot w
  let bs := leBytes 4 0x40000001 ++ leBytes 2 0xF000 ++ leBytes 4 h ++ leBytes 4 w
  bs ++ List.replicate (64 - bs.length) 0

/-- The core that runs it: bound, with its packet cached. -/
def handCore (w : Nat) : Core := {
  bind := some ⟨0, 1, 0x4000, 0x8000, 0x1F0000, 64, 65536, 1, 0, 0x400000, 0, 0, false, false⟩,
  asid := 1, pkts := [(0x400040 / 64, handPacket w)],
  ctxs := [(0, { life := .running, regs := { pc := 0x400040 }, chmask := 0xFFFF,
                 strand := some ⟨0, 0, [0, 0, 0, 0, 0, 0, 0, 0]⟩ })] }

/-- The state in which the next step fetches and runs the word: core 0 runs it, and nothing else is to
happen. -/
def State.placeWord (s : State) (w : Nat) : State :=
  { s with
    cores := [(0, handCore w)], cur := {}, pending := [],
    dev := { s.dev with
      power := true, stall := none, lastTick := s.dev.cycle >>> 4, launches := [(0, handLaunch)],
      mbox := { s.dev.mbox with accepted := [] }, natHeld := [], hostHeld := [], bindHeld := [], flips := [],
      queues := [], lzOut := [], lzHeld := [], lzSends := [], natReqs := [], bisnp := [] } }

end Sys2Proof.Machine
end

