-- ==== Sys2Proof/Machine/Step.lean ====
section
/-! DEFINITION. The step, and a word placed where it fetches. -/

namespace Sys2Proof.Machine

/-- One step of the machine: without power only POWER_ON happens; else a time that has run out, or one move
of one agent. -/
def step (s : State) : Host.Outcome State Fault Refusal :=
  if s.dev.power then s.advance else s.dark

/-- The state with an instruction's word stored where the next step fetches (log entry 40). -/
def State.withFetchWord (s : State) (nbits w : Nat) : State :=
  if nbits = 32 then s.placeWord w else s

end Sys2Proof.Machine
end

