-- ==== Sys2Proof/Safety.lean ====
section
/-! DEFINITION. What counts as a safe run, and the words that the claims use: what it is for an op to run, to
complete, to trap and to block. -/

namespace Sys2Proof.Machine

/-- Device memory is in its canonical form: addresses strictly rising, and no byte listed that equals what an
unlisted address reads as. -/
abbrev Memory.wf (m : List Host.Cell) : Bool := Map.wf unwritten m

/-- The byte of device memory at a local address, as a home reads it (R251). -/
def State.byteAt (s : State) (a : Nat) : Byte := Map.get unwritten s.mem a

/-- The state between steps: memory in canonical form, and no issue in progress. -/
def State.settled (s : State) : Bool := Memory.wf s.mem && decide (s.cur = {})

/-- The step goes on to a settled state. -/
def State.goesOn (s : State) : Bool :=
  match step s with
  | .next t => t.settled
  | .fault _ => false
  | .refused _ => false

/-! ## A slot op in its bundle -/

/-- The op runs: its guard holds (R48), it has not been performed already (log entry 25), and no register that
it reads, the guard's among them, is poisoned (R354). -/
def State.opRuns (s : State) (i : Instr) : Bool :=
  s.guardOk (guardOfInstr i) && !s.me.early.getLsbD s.cur.slot && (s.operandPoison i).isNone && !s.guardPoison i

/-- The bundle closes when its last op has run. -/
def State.shut (u : State) : State := if u.cur.more then u else u.closeBundle

/-- The state in which an op with this answer leaves the machine. -/
def State.afterOp (s : State) (i : Instr) (r : OpRes) : State := (s.absorb i r).shut

/-- Whenever the op runs and `pre` holds, it completes with the effect `f`. -/
def Completes (i : Instr) (pre : State → Prop) (f : State → State) : Prop :=
  ∀ s : State, s.opRuns i = true → pre s → exec i s = .next (s.afterOp i (.done (f s)))

/-- Whenever the op runs and `pre` holds, it raises a fault (R335): the cause and what TRAPINFO will hold. -/
def Raises (i : Instr) (pre : State → Prop) (cause : Byte) (info : State → Dword) : Prop :=
  ∀ s : State, s.opRuns i = true → pre s → exec i s = .next (s.afterOp i (.trap cause (info s)))

/-- Whenever the op runs and `pre` holds, its bundle blocks (R97). -/
def Blocks (i : Instr) (pre : State → Prop) (w : State → List Wait) : Prop :=
  ∀ s : State, s.opRuns i = true → pre s → exec i s = .next (s.afterOp i (.block (w s)))

/-- The running op is the last of its bundle, which is no replay, and no op of the bundle blocks, faults or consumes
poison: with it the bundle commits. -/
def endsBundle (s : State) : Prop :=
  s.cur.more = false ∧ s.cur.replay = false ∧ s.cur.poison = none ∧ s.cur.waits = [] ∧ s.cur.faults = []

/-- Whenever the op runs and `pre` holds, as the last of a bundle that commits, it completes and then acts as `f`. -/
def CompletesThen (i : Instr) (pre : State → Prop) (fin : Nat) (f : State → State) : Prop :=
  ∀ s : State, s.opRuns i = true → endsBundle s → pre s →
    exec i s = .next (f (s.absorb i (s.finishWith fin)).commitSlots)

/-- No condition. -/
def always (_ : State) : Prop := True

/-- Whenever the op runs, it completes and delivers a scalar (R100). -/
def GivesS (i : Instr) (d : BitVec 6) (lat : Nat) (f : State → Dword) : Prop :=
  Completes i always fun s => s.deliver d (f s) lat

/-- Whenever the op runs, it completes and delivers a predicate (R100). -/
def GivesP (i : Instr) (p : BitVec 3) (f : State → Bool) : Prop :=
  Completes i always fun s => s.deliverP p (f s)

/-- Every access that the context made before the bundle is performed at the scope, and no segment holds
egress (R272, R357). -/
def Settled (sc : Nat) (s : State) : Prop := s.me.seg.holds = false ∧ s.waitPerformed sc = none

/-- The issuing context is ctxS (R92). -/
def inS (s : State) : Prop := s.isS = true

/-- The issuing context is a service or a regrow context, in which strand ops are refused (R93, R351). -/
def notStrand (s : State) : Prop := s.isS = true ∨ s.isRegrow = true

/-- The fault of an instruction that the context may not run: its op word and mask bit (R66). -/
def opWord (s : State) : Dword := s.opInfo 0

/-- The event, or the command, happens: the machine goes on to a state of which `p` holds. -/
def Becomes (i : Instr) (s : State) (p : State → Prop) : Prop := ∃ t : State, exec i s = .next t ∧ p t

/-- The context has been answered: bytes and a status for the wait. -/
def State.answered (t : State) (w : Who) (x : Wait) (bs : List Byte) (status : Nat) : Prop :=
  (⟨x, bs, status⟩ : Reply) ∈ (t.ctx w).replies

/-! ## Vector ops (R124, R128, R130, R131) -/

/-- A vector op is accepted: outside ctxS and handler mode, its registers in the window, its format admitted. -/
def vecReady (vs : List (BitVec 7)) (ok : Fmt → Bool) (s : State) : Prop :=
  s.isS = false ∧ s.me.h = false ∧ (∀ v ∈ vs, s.inVectors v = true) ∧ ok (shapeFmt s.shape) = true

/-- Whenever the op runs and is accepted, it completes and delivers `n` elements of a format after `lat`
context-cycles, each formed in order with its own draw (R82), as the last result of its X slot (R126). -/
def GivesElems (i : Instr) (d : BitVec 7) (lat : Nat) (pre : State → Prop) (fmt : State → Fmt) (n : State → Nat)
    (elem : State → Nat → Word → Nat × Flags) : Prop :=
  Completes i pre fun s =>
    let r := eachElem (elem s) (n s) 0 s.cur.lfsr
    s.deliverV d (packed (fmt s) r.1) lat r.2 (some (s.cur.slot - 5))

/-! ## Stores (R219, R253, R270, R357) -/

/-- The context after it has taken the next place in program order. -/
def State.placed (s : State) : State := (s.takeSeq s.who).1

/-- A store at its place in program order. -/
def State.heldStore (s : State) (cls : Nat) (ps : List Write) : Held :=
  ⟨s.me.seq, cls, partsLo ps, partsHi ps, .write ps none⟩

/-- The op, whenever it runs and its store consists of the parts `ps`, makes the store at once where nothing
holds it back, queues it in the M unit where an earlier access does, and leaves it to the segment where an open
rewindable segment holds what goes to memory; a 65th held entry ends rewindability first. -/
def Stores (i : Instr) (cls : Nat) (parts : State → List Write → Prop) : Prop :=
  ∀ ps : List Write,
    let pool : Prop := ∀ p ∈ ps, p.pa = none
    let back (s : State) : Prop :=
      s.placed.me.mustWait true s.me.seq s.me.seq cls (partsLo ps) (partsHi ps) = true
    let now (s : State) : Prop := parts s ps ∧ (pool ∨ s.me.seg.holds = false)
    (∀ t : State → State, Completes i
      (fun s => now s ∧ ¬ back s ∧ storeAll s.who s.me.seq cls ps s.placed = some (t s)) t) ∧
    Completes i (fun s => now s ∧ back s) (fun s => s.placed.holdOp s.who (s.heldStore cls ps)) ∧
    Completes i (fun s => parts s ps ∧ ¬ pool ∧ s.me.seg.holds = true ∧ s.me.heldE.length < 64)
      (fun s => s.placed.setMe { s.placed.me with heldE := s.me.heldE ++ [s.heldStore cls ps] }) ∧
    ∀ s : State, s.opRuns i = true → parts s ps → ¬ pool → s.me.seg.holds = true → 64 ≤ s.me.heldE.length →
      exec i s = .next (s.afterOp i (s.endRewind.store cls ps false))

end Sys2Proof.Machine
end

