-- ==== Sys2Proof/Certificates/Slice0/Obligations.lean ====
section
/-! DEFINITION. The statements for the provers. -/

open Sys2Proof Sys2Proof.Machine

/-- Each of ADD, SUB, AND, OR, XOR, ANDN, SHL, SHR, SRA, MIN, MAX, MINU, MAXU, SEL, ADDX, CLZ, POPC, SEXT and ZEXT completes whenever it runs and delivers after one context-cycle the value of R105's table; a destination of 0 delivers nothing. MUL, MULH, MULHU and MAD complete whenever they run and deliver after three context-cycles the low half of the product, the high half of the signed and of the unsigned product, and the destination's value at issue plus the product. -/
def Obligations.ScalarArithmetic : Prop :=
  (∀ (g : Guard) (d a b : BitVec 6) (p : BitVec 3),
    let A := fun s : State => s.srcA a
    let B := fun s : State => s.srcB b
    let n := fun s : State => (s.srcB b).toNat % 64
    GivesS (.add g d a b) d 1 (fun s => A s + B s) ∧
    GivesS (.sub g d a b) d 1 (fun s => A s - B s) ∧
    GivesS (.and g d a b) d 1 (fun s => A s &&& B s) ∧
    GivesS (.or g d a b) d 1 (fun s => A s ||| B s) ∧
    GivesS (.xor g d a b) d 1 (fun s => A s ^^^ B s) ∧
    GivesS (.andn g d a b) d 1 (fun s => A s &&& ~~~(B s)) ∧
    GivesS (.shl g d a b) d 1 (fun s => BitVec.ofNat 64 ((A s).toNat * 2 ^ n s)) ∧
    GivesS (.shr g d a b) d 1 (fun s => BitVec.ofNat 64 ((A s).toNat / 2 ^ n s)) ∧
    GivesS (.sra g d a b) d 1 (fun s => BitVec.ofInt 64 ((A s).toInt / 2 ^ n s)) ∧
    GivesS (.min g d a b) d 1 (fun s => BitVec.ofInt 64 (min (A s).toInt (B s).toInt)) ∧
    GivesS (.max g d a b) d 1 (fun s => BitVec.ofInt 64 (max (A s).toInt (B s).toInt)) ∧
    GivesS (.minu g d a b) d 1 (fun s => BitVec.ofNat 64 (min (A s).toNat (B s).toNat)) ∧
    GivesS (.maxu g d a b) d 1 (fun s => BitVec.ofNat 64 (max (A s).toNat (B s).toNat)) ∧
    GivesS (.sel g d a b p) d 1 (fun s => if readP s.regs p = true then A s else B s) ∧
    GivesS (.addx g d a b p) d 1 (fun s => A s + B s + (if readP s.regs p = true then 1 else 0)) ∧
    GivesS (.clz g d a) d 1 (fun s => BitVec.ofNat 64 (((List.range 64).takeWhile fun i => !(A s).getLsbD (63 - i)).length)) ∧
    GivesS (.popc g d a) d 1 (fun s => BitVec.ofNat 64 (((List.range 64).filter fun i => (A s).getLsbD i).length)) ∧
    (∀ w : BitVec 3, w.toNat < 3 →
      GivesS (.sext g d a w) d 1 (fun s => ((A s).setWidth (8 * 2 ^ w.toNat)).signExtend 64) ∧
      GivesS (.zext g d a w) d 1 (fun s => BitVec.ofNat 64 ((A s).toNat % 2 ^ (8 * 2 ^ w.toNat)))) ∧
    ∀ (s : State) (x : Dword) (L : Nat), s.deliver 0 x L = s) ∧
  (∀ (g : Guard) (d a b : BitVec 6),
    let A := fun s : State => s.srcA a
    let B := fun s : State => s.srcB b
    GivesS (.mul g d a b) d 3 (fun s => BitVec.ofInt 64 ((A s).toInt * (B s).toInt)) ∧
    GivesS (.mulh g d a b) d 3 (fun s => BitVec.ofInt 64 ((A s).toInt * (B s).toInt / 2 ^ 64)) ∧
    GivesS (.mulhu g d a b) d 3 (fun s => BitVec.ofNat 64 ((A s).toNat * (B s).toNat / 2 ^ 64)) ∧
    GivesS (.mad g d a b) d 3 (fun s => BitVec.ofNat 64 ((s.srcD d).toNat + (A s).toNat * (B s).toNat)))

/-- DIV, DIVU, REM and REMU complete whenever they run and the slot is not occupied by an earlier one: they deliver the truncating quotient or remainder with the corner values of R106 and occupy their slot for 18 context-cycles; while it is occupied they raise STRUCT, and the other A slot's occupancy plays no part. With lo, w and sign taken from B as R107 gives them and the field cut at bit 63, BFX delivers the field, sign-extended when sign is set, and BFI delivers the destination's value at issue with the field's bits replaced by the low bits of A; every other bit of B plays no part. -/
def Obligations.DivisionAndBitFields : Prop :=
  (∀ (g : Guard) (d a b : BitVec 6),
    let A := fun s : State => s.srcA a
    let B := fun s : State => s.srcB b
    let left := fun s : State => if s.cur.slot = 1 then s.regs.occA0 else s.regs.occA1
    let occupy := fun s : State =>
      if s.cur.slot = 1 then s.setRegs { s.regs with occA0 := 18 } else s.setRegs { s.regs with occA1 := 18 }
    let means := fun (i : Instr) (f : Dword → Dword → Dword) =>
      Completes i (fun s => left s = 0) (fun s => occupy (s.deliver d (f (A s) (B s)) 18)) ∧
      Raises i (fun s => left s ≠ 0) cSTRUCT (fun s => s.opInfo 1)
    means (.div g d a b) (fun x y =>
      if y = 0 then -1
      else if x.toInt = -2 ^ 63 ∧ y = -1 then x
      else BitVec.ofInt 64 (x.toInt.tdiv y.toInt)) ∧
    means (.rem g d a b) (fun x y =>
      if y = 0 then x
      else if x.toInt = -2 ^ 63 ∧ y = -1 then 0
      else BitVec.ofInt 64 (x.toInt - x.toInt.tdiv y.toInt * y.toInt)) ∧
    means (.divu g d a b) (fun x y => BitVec.ofNat 64 (if y = 0 then 2 ^ 64 - 1 else x.toNat / y.toNat)) ∧
    means (.remu g d a b) (fun x y => BitVec.ofNat 64 (if y = 0 then x.toNat else x.toNat % y.toNat)) ∧
    ∀ (h : Bool) (r : Regs), (tickRegs h r).occA0 = r.occA0 - 1 ∧ (tickRegs h r).occA1 = r.occA1 - 1) ∧
  (∀ (g : Guard) (d a b : BitVec 6),
    let lo := fun s : State => (s.srcB b).toNat % 64
    let w := fun s : State => min ((s.srcB b).toNat / 2 ^ 8 % 64 + 1) (64 - lo s)
    let field := fun s : State => (s.srcA a).toNat / 2 ^ lo s % 2 ^ w s
    GivesS (.bfx g d a b) d 1 (fun s =>
      if (s.srcB b).getLsbD 16 = true ∧ 2 ^ (w s - 1) ≤ field s then BitVec.ofInt 64 (field s - 2 ^ w s)
      else BitVec.ofNat 64 (field s)) ∧
    GivesS (.bfi g d a b) d 1 (fun s =>
      let m : Dword := BitVec.ofNat 64 ((2 ^ w s - 1) * 2 ^ lo s)
      (s.srcD d &&& ~~~m) ||| (BitVec.ofNat 64 ((s.srcA a).toNat * 2 ^ lo s) &&& m)))

/-- ADDI, ANDI, ORI, XORI, SHLI, SHRI and SRAI complete whenever they run and deliver after one context-cycle the op of s[a] and the sign-extended immediate; a shift immediate outside 0 to 63 decodes to nothing, and a slot word that decodes to nothing raises ILLENC. -/
def Obligations.ScalarImmediates : Prop :=
  ∀ (g : Guard) (d a : BitVec 6) (i : BitVec 9),
    let A := fun s : State => s.srcA a
    let I : Dword := BitVec.ofInt 64 i.toInt
    GivesS (.addi g d a i) d 1 (fun s => A s + I) ∧
    GivesS (.andi g d a i) d 1 (fun s => A s &&& I) ∧
    GivesS (.ori g d a i) d 1 (fun s => A s ||| I) ∧
    GivesS (.xori g d a i) d 1 (fun s => A s ^^^ I) ∧
    (i.toNat < 64 →
      GivesS (.shli g d a i) d 1 (fun s => BitVec.ofNat 64 ((A s).toNat * 2 ^ i.toNat)) ∧
      GivesS (.shri g d a i) d 1 (fun s => BitVec.ofNat 64 ((A s).toNat / 2 ^ i.toNat)) ∧
      GivesS (.srai g d a i) d 1 (fun s => BitVec.ofInt 64 ((A s).toInt / 2 ^ i.toNat))) ∧
    (64 ≤ i.toNat →
      decodeSlot 1 (encode (.shli g d a i)) = none ∧ decodeSlot 1 (encode (.shri g d a i)) = none ∧
      decodeSlot 1 (encode (.srai g d a i)) = none) ∧
    (∀ w : Word, decodeSlot 1 w = none → slotInstr 1 w = .reservedEncoding w) ∧
    ∀ w : Word, Raises (.reservedEncoding w) always cILLENC opWord

/-- MOVI delivers its sign-extended immediate after one context-cycle; LDK delivers the eight bytes of the constant table at its index after three, and raises ILLENC for an index not below C; MOVC delivers the control register's value, as it stands, after two, whichever assigned register it names, but in ctxS a register of state that ctxS has none of raises ILLENC, which is the model's reading of R94 (log entry 82). Outside a replay, the value of a control register is the core, the context, the address space, the strand's index at a level, a loop counter, CCYC, SHAPE, FFLAGS, RMODE, LFSR, a channel's CDONE or CNEXT, a pool boundary, a circular buffer's word, SYNCATTR, a region bound, CYCLE, TICK, or, for the trap registers, what the last trap left, each under its number of the register chapters. -/
def Obligations.ConstantsAndControlReads : Prop :=
  (∀ (g : Guard) (d : BitVec 6) (i : BitVec 15) (c : BitVec 9),
    GivesS (.movi g d i) d 1 (fun _ => BitVec.ofInt 64 i.toInt) ∧
    Completes (.ldk g d i) (fun s => i.toNat < s.myCore.binding.c) (fun s =>
      let k := s.myCore
      s.deliver d (BitVec.ofNat 64 (leNat (k.poolRead (k.binding.pb3 + (48 * k.binding.n + 63) / 64 * 64 + 8 * i.toNat) 8))) 3) ∧
    Raises (.ldk g d i) (fun s => s.myCore.binding.c ≤ i.toNat) cILLENC opWord ∧
    Completes (.movc g d c) (fun s => s.isS = true → cregNotS c.toNat = false)
      (fun s => s.deliver d (BitVec.ofNat 64 (s.readC c.toNat)) 2) ∧
    Raises (.movc g d c) (fun s => s.isS = true ∧ cregNotS c.toNat = true) cILLENC opWord) ∧
  (∀ (s : State) (n : Nat),
    s.readC 0x000 = s.cur.core ∧ s.readC 0x001 = s.cur.ctx ∧ s.readC 0x005 = s.myCore.asid ∧
    (n < 4 → s.readC (0x010 + n) = (Map.get 0 s.regs.lc n).toNat) ∧
    s.readC 0x018 = s.regs.ccyc.toNat ∧ s.readC 0x040 = s.regs.shape.toNat ∧
    s.readC 0x041 = s.regs.fflags.toNat ∧ (s.cur.replay = false → s.readC 0x042 = s.regs.rmode.toNat) ∧
    s.readC 0x043 = s.regs.lfsr.toNat ∧ s.readC 0x044 = s.myCore.binding.w ∧
    (n < 16 → s.readC (0x0C0 + n) = (Map.get 0 s.myCore.cdone n).toNat ∧
      s.readC (0x0D0 + n) = (Map.get 0 s.myCore.cnext n).toNat) ∧
    (n < 8 → s.readC (0x0E8 + n) = (Map.get 0 s.myCore.cb n).toNat) ∧
    s.readC 0x0F0 = s.myCore.binding.pb1 ∧ s.readC 0x0F1 = s.myCore.binding.pb2 ∧
    s.readC 0x0F2 = s.myCore.binding.pb3 ∧
    s.readC 0x140 = s.regs.syncattr.toNat ∧ s.readC 0x141 = s.regs.invsel.toNat ∧
    (n < 16 → s.readC (0x148 + n) = (Map.get 0 s.regs.region n).toNat) ∧
    s.readC 0x1C0 = s.dev.cycle.toNat ∧ s.readC 0x1C1 = s.dev.cycle.toNat / 16 ∧
    (s.cur.ctx ≠ 4 →
      (n < 8 → s.readC (0x008 + n) = match s.me.strand with
        | some st => (st.lvl.getD n 0).toNat
        | none => 0) ∧
      s.readC 0x1E0 = s.me.trapcause.toNat ∧ s.readC 0x1E1 = s.me.trapinfo.toNat ∧
      s.readC 0x1E2 = s.me.trappc.toNat ∧ s.readC 0x1E4 = s.me.status))

/-- A MOVTC to a writable register completes and its value governs from the next bundle on; to any other register it raises PRIV. MOVTC to SHAPE raises ILLENC for a value that breaks R129's rules, to RMODE for a mode above 5, and to GQT it raises STRUCT 11 while a gather queue is not empty; in ctxS, which has no latches, feed registers, gather queue or regions, a register of theirs raises ILLENC, which is the model's reading of R94 (log entries 82 and 59). At the bundle's end each register takes its own bits of the value, SHAPE without its reserved bits and LFSR with 0 replaced by 1. -/
def Obligations.ControlRegisterWrites : Prop :=
  ∀ (g : Guard) (a : BitVec 6) (c : BitVec 9) (l : BitVec 2),
    let A := fun s : State => s.srcA a
    let sets := fun (i : Instr) (n : Nat) (ok : State → Prop) =>
      Completes i ok (fun s => s.writeLate n (A s)) ∧ Raises i (fun s => ¬ ok s) cILLENC opWord
    let plain := c.toNat = 0x140 ∨ c.toNat = 0x141 ∨ 0x148 ≤ c.toNat ∧ c.toNat ≤ 0x157
    let has := fun s : State => s.isS = true → cregNotS c.toNat = false
    (plain → Completes (.movtc g a c) has (fun s => s.writeLate c.toNat (A s))) ∧
    (¬ plain → Raises (.movtc g a c) has cPRIV opWord) ∧
    Raises (.movtc g a c) (fun s => s.isS = true ∧ cregNotS c.toNat = true) cILLENC opWord ∧
    sets (.movtcShape g a) 0x040 (fun s => shapeOk (A s) = true) ∧
    sets (.movtcRmode g a) 0x042 (fun s => (A s).toNat % 8 < 6) ∧
    Completes (.movtcFflags g a) always (fun s => s.writeLate 0x041 (A s)) ∧
    Completes (.movtcLfsr g a) always (fun s => s.writeLate 0x043 (A s)) ∧
    Completes (.movtcLc g a l) always (fun s => s.writeLate (0x010 + l.toNat) (A s)) ∧
    Completes (.movtcCerr g a) always (fun s => s.writeLate 0x0E3 (A s)) ∧
    Completes (.movtcSnapbase g a) always (fun s => s.writeLate 0x1E3 (A s)) ∧
    Completes (.movtcGqt g a) (fun s => s.isS = false ∧ s.me.gqAddr = [] ∧ s.me.gqData = [])
      (fun s => s.writeLate 0x0E0 (A s)) ∧
    Raises (.movtcGqt g a) (fun s => s.isS = false ∧ ¬ (s.me.gqAddr = [] ∧ s.me.gqData = [])) cSTRUCT
      (fun s => s.opInfo 11) ∧
    Raises (.movtcGqt g a) inS cILLENC opWord ∧
    ∀ (s : State) (x : Dword),
      (s.applyLate 0x040 x).regs.shape = x.setWidth 32 &&& ~~~0xC0#32 ∧
      (s.applyLate 0x041 x).regs.fflags = x.setWidth 7 ∧ (s.applyLate 0x042 x).regs.rmode = x.setWidth 3 ∧
      (s.applyLate 0x043 x).regs.lfsr = (if x.setWidth 32 = 0#32 then 1 else x.setWidth 32) ∧
      Map.get 0 (s.applyLate (0x010 + l.toNat) x).regs.lc l.toNat = x ∧
      (s.applyLate 0x140 x).regs.syncattr = x.setWidth 5 ∧ (s.applyLate 0x141 x).regs.invsel = x.setWidth 8 ∧
      (s.applyLate 0x1E3 x).regs.snapbase = BitVec.ofNat 40 (x.toNat / 4096) ∧
      ∀ n : Nat, n < 16 →
        Map.get 0 (s.applyLate (0x148 + n) x).regs.region n = x.setWidth 52 &&& ~~~0x7F#52

/-- CMP and CMPI complete whenever they run and deliver after one context-cycle the condition of R110's table on s[a] and on s[b] or the sign-extended immediate; a destination of p0 delivers nothing, and a word with bits [2:0] set is no CMP. PLOG completes whenever it runs and delivers after one context-cycle the function of R111's table; a word with function 6 or 7, or with NOT and a second predicate, decodes to nothing in an A slot, and a slot word that decodes to nothing raises ILLENC. -/
def Obligations.ComparesAndPredicates : Prop :=
  (∀ (g : Guard) (p : BitVec 3) (a b : BitVec 6) (i : BitVec 9),
    let means := fun (c : BitVec 3) (f : Dword → Dword → Bool) =>
      GivesP (.cmp g p c a b) p (fun s => f (s.srcA a) (s.srcB b)) ∧
      GivesP (.cmpi g p c a i) p (fun s => f (s.srcA a) (BitVec.ofInt 64 i.toInt))
    means 0 (fun x y => decide (x = y)) ∧ means 1 (fun x y => decide (x ≠ y)) ∧
    means 2 (fun x y => decide (x.toInt < y.toInt)) ∧ means 3 (fun x y => decide (x.toNat < y.toNat)) ∧
    means 4 (fun x y => decide (x.toInt ≤ y.toInt)) ∧ means 5 (fun x y => decide (x.toNat ≤ y.toNat)) ∧
    means 6 (fun x y => decide (x &&& y ≠ 0)) ∧ means 7 (fun x y => decide (x &&& y = 0)) ∧
    (∀ (s : State) (v : Bool), s.deliverP 0 v = s) ∧
    ∀ (w : Word) (h : Guard) (q c : BitVec 3) (x y : BitVec 6), w.toNat % 8 ≠ 0 → decodeSlot 1 w ≠ some (.cmp h q c x y)) ∧
  (∀ (g : Guard) (d a b f : BitVec 3) (w : Word),
    let means := fun (f : BitVec 3) (h : Bool → Bool → Bool) =>
      GivesP (.plog g d f a b) d (fun s => h (readP s.regs a) (readP s.regs b))
    means 0 (fun x y => x && y) ∧ means 1 (fun x y => x || y) ∧ means 2 (fun x y => x != y) ∧
    means 3 (fun x y => x && !y) ∧ means 4 (fun x y => x || !y) ∧
    GivesP (.plog g d 5 a 0) d (fun s => !readP s.regs a) ∧
    (6 ≤ f.toNat ∨ f = 5 ∧ b ≠ 0 → decodeSlot 1 (encode (.plog g d f a b)) = none) ∧
    (decodeSlot 1 w = none → slotInstr 1 w = .reservedEncoding w) ∧
    Raises (.reservedEncoding w) always cILLENC opWord)

/-- A slot word that its slot does not decode stands for a reserved encoding, which raises ILLENC with the op word and its mask bit when its guard holds; a bundle without ops completes: it commits, passes one context-cycle, and the context goes on where a bundle without a taken branch goes. END completes in a strand that does not hold the plane, and YIELD in every context; what they do, they do when the bundle commits, as its last op or later: the strand ends and its context is idle, or the context yields; ctxS does not. END by the plane's holder raises PLANEF 11, and END by ctxS or by a regrow context raises ILLENC. RDONE in a regrow context that runs a slice, does not hold the plane, has performed its accesses at device scope and has no word of its output tile on its way completes, and when the bundle commits, as its last op or later, the tile is published: its state is SEALED, no one waits for it, and the context is idle; by the plane's holder it raises PLANEF 11, and outside a slice ILLENC. -/
def Obligations.EndsOfRuns : Prop :=
  (∀ (k : Nat) (w : Word),
    (decodeSlot k w = none → slotInstr k w = .reservedEncoding w) ∧
    (∀ i, decodeSlot k w = some i → slotInstr k w = i) ∧
    Raises (.reservedEncoding w) always cILLENC opWord ∧
    ∀ s : State, endsBundle s → s.cur.fin = 0 →
      exec .emptyBundle s = .next s.commitSlots ∧ s.commitSlots.regs.pc = s.nextPc.2 ∧
      s.commitSlots.regs.ccyc = s.regs.ccyc + 1) ∧
  (∀ g : Guard,
    let fin := fun (n : Nat) (s : State) => s.setCur { s.cur with fin := n }
    Completes (.endStrand g) (fun s => ¬ notStrand s ∧ s.holdsPlane = false) (fin finEnd) ∧
    Raises (.endStrand g) (fun s => ¬ notStrand s ∧ s.holdsPlane = true) cPLANEF (fun s => s.opInfo 11) ∧
    Raises (.endStrand g) notStrand cILLENC opWord ∧
    Completes (.yield g) always (fin finYield) ∧
    (∀ s : State, s.cur.fin = finEnd → s.finish = s.endStrandOf s.who) ∧
    (∀ s : State, s.cur.fin = finYield → s.finish = if s.cur.ctx = 4 then s else s.doYield) ∧
    CompletesThen (.endStrand g) (fun s => ¬ notStrand s ∧ s.holdsPlane = false) finEnd (fun u => u.endStrandOf u.who) ∧
    CompletesThen (.yield g) (fun s => ¬ inS s) finYield State.doYield ∧
    CompletesThen (.yield g) inS finYield id ∧
    (∀ (s : State) (w : Who), ((s.endStrandOf w).ctx w).life = .idle ∧ ((s.endStrandOf w).ctx w).strand = none) ∧
    ∀ (s : State) (w : Who), (s.ctx w).strand = none → ((s.endStrandOf w).ctx w).regs.queue = []) ∧
  (∀ g : Guard,
    let slice := fun s : State => s.isRegrow = true ∧ s.me.slice.isSome = true
    let ready := fun s : State => slice s ∧ s.holdsPlane = false ∧ Settled 2 s
    Completes (.rdone g) (fun s => ready s ∧ s.outputMoves = false) (fun s => s.setCur { s.cur with fin := finRdone }) ∧
    Blocks (.rdone g) (fun s => ready s ∧ s.outputMoves = true) (fun s => [.cond s.cur.slot condOrder]) ∧
    Raises (.rdone g) (fun s => slice s ∧ s.holdsPlane = true) cPLANEF (fun s => s.opInfo 11) ∧
    Raises (.rdone g) (fun s => ¬ slice s) cILLENC opWord ∧
    (∀ s : State, s.cur.fin = finRdone → s.finish = s.publish s.who) ∧
    CompletesThen (.rdone g) (fun s => ready s ∧ s.outputMoves = false) finRdone (fun u => u.publish u.who) ∧
    ∀ (s : State) (w : Who) (sl : Slice), (s.ctx w).slice = some sl →
      ((s.publish w).ctx w).life = .idle ∧ ((s.publish w).ctx w).slice = none ∧
      ∀ r, (s.publish w).recipe sl.tile = some r → r.st = .sealed ∧ r.waiters = [] ∧ r.depth = 0)

/-- BR, BRI, CALL, CALLI and RET complete when the target, pc-relative in code words or the register's value, is no fault: the bundle goes there, a branch leaves the loops whose body does not hold the target, and a call delivers the address of the sequential successor to s63; a target whose packet is not cached is noted, to be judged before the context's next bundle. An odd target raises BADTGT with the address, one at 2^52 or above FETCHF 3, one that is no start word of a cached code packet BADTGT, and one in a cached packet of another kind ILLPKT. LOOP and LOOPI with a free counter, a last bundle that is no bad target and a count other than 0 leave, when the bundle commits, the sequential successor as the start, the last bundle as the end, and the loop as the innermost active one, and deliver the count to the counter; with count 0 they deliver 0 and go to the bundle after the last. An active counter raises STRUCT 2, and a set-up in a bundle on which an active loop ends STRUCT 4. The model's choices: log 93 (a sum below zero or beyond the address space, modulo 2^52), log 95 (the order of the STRUCT cases), log 97 (the order of BADTGT and FETCHF 3, the STRUCT cases before a count of 0, and when the sequential successor is known) and log 61 (an uncached target is judged later). -/
def Obligations.BranchesAndLoops : Prop :=
  (∀ (g : Guard) (a : BitVec 6) (o : BitVec 21),
    let rel := fun s : State => (((s.regs.pc.toNat : Int) + 2 * o.toInt).toNat % 2 ^ 52)
    let reg := fun s : State => (s.srcA a).toNat
    let ret := fun s : State => (readS s.regs 63).toNat
    let good := fun (t : State → Nat) (s : State) => ∀ (c : Byte) (x : Dword), s.target (t s) ≠ .fault c x
    let noted := fun (t : State → Nat) (s : State) =>
      if s.target (t s) = .later then s.setCur { s.cur with judge := some (t s, false) } else s
    let go := fun (t : State → Nat) (s : State) =>
      (noted t s).setCur { (noted t s).cur with jump := some (BitVec.ofNat 52 (t s)), loops := none }
    let leave := fun (t : State → Nat) (s : State) =>
      (noted t s).setCur { (noted t s).cur with
        jump := some (BitVec.ofNat 52 (t s)),
        loops := some (s.regs.loopStart, s.regs.loopEnd, s.regs.loopOrd.filter fun n =>
          decide ((Map.get 0 s.regs.loopStart n).toNat ≤ t s) && decide (t s ≤ (Map.get 0 s.regs.loopEnd n).toNat)) }
    let faults := fun (i : Instr) (t : State → Nat) =>
      Raises i (fun s => t s % 2 = 1) cBADTGT (fun s => codeInfo (t s)) ∧
      Raises i (fun s => t s % 2 = 0 ∧ 2 ^ 52 ≤ t s) cFETCHF (fun s => addrInfo 3 (t s)) ∧
      ∀ p : List Byte, p ≠ [] →
        Raises i (fun s => t s % 2 = 0 ∧ t s < 2 ^ 52 ∧ Map.get [] s.myCore.pkts (t s / 64) = p ∧ pktKind p = 1 ∧
          pktStart p (t s % 64 / 2) = false) cBADTGT (fun s => codeInfo (t s)) ∧
        Raises i (fun s => t s % 2 = 0 ∧ t s < 2 ^ 52 ∧ Map.get [] s.myCore.pkts (t s / 64) = p ∧ pktKind p ≠ 1)
          cILLPKT (fun s => codeInfo (t s / 64 * 64))
    let branches := fun (i : Instr) (t : State → Nat) => Completes i (good t) (leave t) ∧ faults i t
    let calls := fun (i : Instr) (t : State → Nat) =>
      (∀ r : State → Addr, Completes i (fun s => good t s ∧ (go t s).successor = .ok (r s))
        (fun s => (go t s).deliver 63 ((r s).setWidth 64) 1)) ∧ faults i t
    branches (.br g o) rel ∧ branches (.bri g a) reg ∧ calls (.call g o) rel ∧ calls (.calli g a) reg ∧
    Completes (.ret g) (good ret) (go ret) ∧ faults (.ret g) ret) ∧
  (∀ (g : Guard) (l : BitVec 2) (a : BitVec 6) (o13 : BitVec 13) (c : BitVec 10) (o9 : BitVec 9),
    let means := fun (i : Instr) (n : State → Dword) (o : Nat) =>
      let last := fun s : State => (s.regs.pc.toNat + 2 * o) % 2 ^ 52
      let fits := fun s : State =>
        s.loopFault l.toNat (last s) = none ∧ ∀ (c : Byte) (x : Dword), s.target (last s) ≠ .fault c x
      let noted := fun (none_ : Bool) (s : State) =>
        if s.target (last s) = .later then s.setCur { s.cur with judge := some (last s, none_) } else s
      (∀ r : State → Addr, Completes i (fun s => fits s ∧ n s ≠ 0 ∧ (noted false s).successor = .ok (r s))
        (fun s => ((noted false s).setCur { (noted false s).cur with loops := some (
          Map.put 0 s.regs.loopStart l.toNat (r s),
          Map.put 0 s.regs.loopEnd l.toNat (BitVec.ofNat 52 (last s)),
          l.toNat :: s.regs.loopOrd) }).deliverLc l (n s))) ∧
      Completes i (fun s => fits s ∧ n s = 0)
        (fun s => ((noted true s).setCur { (noted true s).cur with jump := some (s.succAt (last s)) }).deliverLc l 0) ∧
      Raises i (fun s => l.toNat ∈ s.regs.loopOrd) cSTRUCT (fun s => s.opInfo 2) ∧
      Raises i (fun s => l.toNat ∉ s.regs.loopOrd ∧ ∃ m ∈ s.regs.loopOrd, Map.get 0 s.regs.loopEnd m = s.regs.pc)
        cSTRUCT (fun s => s.opInfo 4)
    means (.loop g l a o13) (fun s => s.srcA a) o13.toNat ∧
    means (.loopi g l c o9) (fun _ => BitVec.ofNat 64 c.toNat) o9.toNat)

/-- With the loop state that the bundle's C slot leaves: after a bundle with a taken branch the branch's target follows and no loop counts; else, among the active loops that end on the bundle, innermost first, each with at most one pass left ends with its counter 0, and the first with more counts down and its start follows; when none has more, the sequential successor follows. Every other counter and active loop stays as it is. -/
def Obligations.LoopPasses : Prop :=
  ∀ s : State,
    let r := s.loopRegs
    let here := fun n : Nat => Map.get 0 r.loopEnd n = r.pc
    let last := fun n : Nat => (Map.get 0 r.lc n).toNat ≤ 1
    (∀ t, s.cur.jump = some t → s.nextPc = (r, t)) ∧
    (s.cur.jump = none → (∀ n ∈ r.loopOrd, here n → last n) →
      s.nextPc.2 = s.cur.succ ∧ s.nextPc.1.loopOrd = r.loopOrd.filter (fun n => decide (¬ here n)) ∧
      ∀ n, Map.get 0 s.nextPc.1.lc n = if n ∈ r.loopOrd ∧ here n then 0 else Map.get 0 r.lc n) ∧
    ∀ (x : List Nat) (n : Nat) (y : List Nat),
      s.cur.jump = none → r.loopOrd = x ++ n :: y → (∀ m ∈ x, here m → last m) → here n → ¬ last n →
      s.nextPc.2 = Map.get 0 r.loopStart n ∧
      s.nextPc.1.loopOrd = r.loopOrd.filter (fun m => decide (¬ (m ∈ x ∧ here m))) ∧
      ∀ m, Map.get 0 s.nextPc.1.lc m =
        if m = n then Map.get 0 r.lc n - 1 else if m ∈ x ∧ here m then 0 else Map.get 0 r.lc m

/-- WAITID on an own channel completes when the transfer has completed, raises STRUCT 12 for an identifier that no transfer has yet been given, and STRUCT 10 on a channel the context does not own; WAITT completes when the tile's busy bit is clear, blocks its bundle while it is set, and raises ILLENC in ctxS. BAR at a gang level of the strand's launch, with the earlier accesses performed at the level's scope and no member lost, completes when every strand of its group has arrived as often as it, and then counts as passed; it blocks its bundle while one has not. In ctxS, in a regrow context and at a level that is no gang it raises ILLENC. LZWAIT completes when its barrier is met, delivers its word after one context-cycle, spends it and frees it; it blocks while the barrier waits, raises STRUCT 14 for a free one, and for a failed one delivers the word or, with destination 0, raises LZFAIL with it. -/
def Obligations.WaitingOps : Prop :=
  (∀ (g : Guard) (h : BitVec 4) (a : BitVec 6) (t : BitVec 5),
    let x := fun s : State => ((s.srcA a).setWidth 32 : Word)
    let done := fun s : State => (Map.get 0 s.myCore.cdone h.toNat : Word)
    let next := fun s : State => s.cnextBefore h.toNat
    let behind := fun s : State => 1 ≤ (done s - x s).toNat ∧ (done s - x s).toNat ≤ 2 ^ 31
    let given := fun s : State => (x s - done s).toNat < (next s - done s).toNat
    Completes (.waitid g h a) (fun s => s.ownsChannel h = true ∧ behind s) (fun s => s) ∧
    Raises (.waitid g h a) (fun s => s.ownsChannel h = true ∧ ¬ behind s ∧ ¬ given s) cSTRUCT (fun s => s.opInfo 12) ∧
    Raises (.waitid g h a) (fun s => s.ownsChannel h = false) cSTRUCT (fun s => s.opInfo 10) ∧
    Blocks (.waitid g h a) (fun s => s.ownsChannel h = true ∧ ¬ behind s ∧ given s ∧ s.heldId h.toNat (x s) = false)
      (fun s => [.cond s.cur.slot condChannel]) ∧
    Completes (.waitt g t) (fun s => ¬ inS s ∧ s.busy t.toNat = false) (fun s => s) ∧
    Blocks (.waitt g t) (fun s => ¬ inS s ∧ s.busy t.toNat = true) (fun s => [.cond s.cur.slot condTile]) ∧
    Raises (.waitt g t) inS cILLENC opWord) ∧
  (∀ (g : Guard) (l : BitVec 3),
    let fits := fun (st : Strand) (lc : Launch) (sc : Nat) (s : State) =>
      ¬ notStrand s ∧ s.myStrand = some (st, lc) ∧ gangLevel lc.rc l.toNat = true ∧
      (lvScope ((levelsOf lc.rc).getD l.toNat 0)).toNat = sc ∧ Settled sc s ∧
      (sc = 3 → s.storeFailure 0xFFFF = none) ∧ lostInfo st lc l.toNat = none
    let count := fun (st : Strand) (lc : Launch) => Map.get 0 lc.arrived (st.num * 8 + l.toNat)
    let all := fun (st : Strand) (lc : Launch) =>
      Map.get 0 lc.passed (st.num * 8 + l.toNat) < count st lc ∧
      ∀ k ∈ groupMembers lc l.toNat st.num, lc.arrivedAt l.toNat (count st lc) k = true
    (∀ (st : Strand) (lc : Launch) (sc : Nat),
      Completes (.bar g l) (fun s => fits st lc sc s ∧ all st lc ∧ (sc ≠ 0 → ∃ bs, s.acquired = some bs))
        (fun s => s.setLaunch st.launch { s.launch st.launch with
          passed := Map.put 0 (s.launch st.launch).passed (st.num * 8 + l.toNat) (count st lc) }) ∧
      Blocks (.bar g l) (fun s => fits st lc sc s ∧ ¬ all st lc) (fun _ => [.bar l.toNat])) ∧
    Raises (.bar g l) notStrand cILLENC opWord ∧
    Raises (.bar g l) (fun s => ∀ st lc, s.myStrand = some (st, lc) → gangLevel lc.rc l.toNat = false) cILLENC opWord) ∧
  (∀ (g : Guard) (b : BitVec 3) (d : BitVec 6),
    let w := fun s : State => s.myCore.barrier b.toNat
    let st := fun s : State => (w s).toNat / 2 ^ 62
    Raises (.lzwait g b d) (fun s => st s = 0) cSTRUCT (fun s => s.opInfo 14) ∧
    Blocks (.lzwait g b d) (fun s => st s = 1) (fun s => [.cond s.cur.slot (condBarrier + b.toNat)]) ∧
    Completes (.lzwait g b d) (fun s => st s = 2) (fun s =>
      (s.deliver d (w s) 1).setMyCore ((s.myCore.spend b.toNat).setBarrier b.toNat
        (BitVec.ofNat 64 ((w s).toNat / 2 ^ 60 % 4 * 2 ^ 60 + (w s).toNat % 2 ^ 56)))) ∧
    Completes (.lzwait g b d) (fun s => st s = 3 ∧ d ≠ 0) (fun s => s.deliver d (w s) 1) ∧
    Raises (.lzwait g b d) (fun s => st s = 3 ∧ d = 0) cLZFAIL w)

/-- RDV in a strand outside handler mode, with nothing held, no gang member rewinding and no abort pending, completes; when the bundle commits, what it holds for the segment that closes is released, the context's registers and trap registers become the checkpoint and a segment is open, which can rewind for the form that says so while the context does not hold the plane. In ctxS it raises ILLENC, in handler mode PRIV; it blocks while a member rewinds or held egress is not yet released. FENCE with both class masks non-zero completes and is in force from its place in program order, with its masks and scope; with an empty mask it completes and does nothing. Above core scope it waits while a segment holds egress, and at sys until the context's earlier stores of its classes to other devices are answered, whose failures it reports (log entry 105, the model's choice). STREL at an aligned address whose store passes its checks, with no segment holding egress, completes: the store of the low bytes of s[s] stands in the M unit at its place in program order, of class 15, as a release of its scope. One of system scope, which reports a failed store (R408), waits for the replies of the stores to other devices before it (log entry 105, the model's choice). A misaligned address raises ALIGN. -/
def Obligations.OrderingOps : Prop :=
  (∀ (g : Guard) (r : BitVec 1),
    Completes (.rdv g r)
      (fun s => ¬ inS s ∧ s.me.h = false ∧ s.gangRewinds = false ∧ s.me.heldE = [] ∧ s.me.gangAbort = none)
      (fun s => s.setCur { s.cur with fin := if r = 1 then finRdvRw else finRdv }) ∧
    Raises (.rdv g r) inS cILLENC opWord ∧
    Raises (.rdv g r) (fun s => ¬ inS s ∧ s.me.h = true) cPRIV opWord ∧
    Blocks (.rdv g r) (fun s => ¬ inS s ∧ s.me.h = false ∧ s.gangRewinds = true)
      (fun s => [.cond s.cur.slot condRewind]) ∧
    Blocks (.rdv g r) (fun s => ¬ inS s ∧ s.me.h = false ∧ s.gangRewinds = false ∧ s.me.heldE ≠ [])
      (fun s => [.cond s.cur.slot condRelease]) ∧
    ∀ s : State, (s.cur.fin = finRdv ∨ s.cur.fin = finRdvRw) →
      s.finish.me.ckpt = some (s.me.checkpoint s.me.regs) ∧ s.finish.me.seg.opened = true ∧
      (s.finish.me.seg.rw = true ↔ s.cur.fin = finRdvRw ∧ s.myCore.plane.holder ≠ some s.cur.ctx)) ∧
  (∀ (g : Guard) (a : BitVec 6) (sh : BitVec 2),
    let bm := fun s : State => ((s.srcA a).setWidth 16 : Half)
    let am := fun s : State => (((s.srcA a) >>> 16).setWidth 16 : Half)
    let free := fun s : State =>
      (sh ≠ 0 → s.me.seg.holds = false) ∧ (sh = 3 → s.storeFailure (bm s) = none ∧ s.farStores (bm s) = false)
    Completes (.fence g a sh) (fun s => free s ∧ bm s ≠ 0 ∧ am s ≠ 0) (fun s => s.addFence (bm s) (am s) sh) ∧
    Completes (.fence g a sh) (fun s => free s ∧ (bm s = 0 ∨ am s = 0)) (fun s => s) ∧
    Blocks (.fence g a sh) (fun s => sh ≠ 0 ∧ s.me.seg.holds = true) (fun s => [.cond s.cur.slot condRelease]) ∧
    Blocks (.fence g a sh) (fun s => sh = 3 ∧ s.me.seg.holds = false ∧ s.storeFailure (bm s) = none ∧
      s.farStores (bm s) = true) (fun s => [.cond s.cur.slot condOrder]) ∧
    ∀ (s : State) (b m : Half), sh ≠ 3 →
      (s.addFence b m sh).me.seq = s.me.seq + 1 ∧ ⟨s.me.seq + 1, b, m, sh⟩ ∈ (s.addFence b m sh).me.fences) ∧
  (∀ (g : Guard) (d a : BitVec 6) (z sh : BitVec 2),
    let n := 2 ^ z.toNat
    let ea := fun s : State => (s.srcA a).toNat
    let bytes := fun s : State => (List.range n).map fun j => (BitVec.ofNat 8 ((s.srcD d).toNat / 256 ^ j) : Byte)
    (∀ ps : List Write, Completes (.strel g d a z sh)
      (fun s => ea s % n = 0 ∧ s.storeParts (ea s) (bytes s) = .ok ps ∧ s.me.seg.holds = false ∧
        (sh = 3 → s.storeFailure 0xFFFF = none ∧ s.farStores 0xFFFF = false))
      (fun s => s.placed.holdOp s.who ⟨s.me.seq, 15, ea s, ea s + n, .write ps (some sh)⟩) ∧
      Blocks (.strel g d a z sh)
      (fun s => ea s % n = 0 ∧ s.storeParts (ea s) (bytes s) = .ok ps ∧ s.me.seg.holds = false ∧
        sh = 3 ∧ s.storeFailure 0xFFFF = none ∧ s.farStores 0xFFFF = true) (fun s => [.cond s.cur.slot condOrder])) ∧
    Raises (.strel g d a z sh) (fun s => ea s % n ≠ 0) cALIGN (fun s => BitVec.ofNat 64 (ea s % 2 ^ 52)))

/-- SPAWN in a strand, of a record at an address that is a multiple of 256, readable, with every earlier access performed at device scope and room in the die's queue, completes: the record's 256 bytes stand at the end of the die's queue of spawned records under the launch's own queue. It blocks while 64 stand there, raises ALIGN for another address, and ILLENC in ctxS and in a regrow context. JCPUSH in a strand, of a sound card at an address that is a multiple of 128, readable, with its earlier accesses performed at device scope and room in the queue that the card goes to, completes and the card stands in that queue; an unsound card raises STRUCT 13 and a full queue blocks. JCPOP with a ready card of the launch in the core's queue completes, takes the oldest and delivers its address after four context-cycles; with none it blocks. One that has been told that no more come delivers 0. Both raise ILLENC in ctxS and in a regrow context. -/
def Obligations.SubmittingWork : Prop :=
  (∀ (g : Guard) (a : BitVec 6),
    let ea := fun s : State => (s.srcA a).toNat
    let die := fun s : State => coreDie s.cur.core
    let queue := fun s : State => Map.get [] s.dev.spawnQ (die s)
    let reads := fun (bs : List Byte) (s : State) =>
      ¬ notStrand s ∧ ea s % 256 = 0 ∧ s.windowCheck (ea s) 256 = none ∧
      (inWindow (ea s) = false → ∃ ps, s.linePlaces (ea s) 256 .read = .ok ps) ∧ Settled 2 s ∧
      s.devRead (ea s) 256 = .ok bs
    (∀ bs : List Byte,
      Completes (.spawn g a) (fun s => reads bs s ∧ (queue s).length < 64) (fun s =>
        let u := s.engDone s.opAgent
        let q := queue s ++ [((s.launch s.myCore.binding.launch).queue, bs)]
        (u.setDev { u.dev with spawnQ := Map.put [] u.dev.spawnQ (die s) q }).post (.launchSeal (65536 + die s))) ∧
      Blocks (.spawn g a) (fun s => reads bs s ∧ 64 ≤ (queue s).length) (fun s => [.cond s.cur.slot condOrder])) ∧
    Raises (.spawn g a) notStrand cILLENC opWord ∧
    Raises (.spawn g a) (fun s => ¬ notStrand s ∧ ea s % 256 ≠ 0) cALIGN (fun s => BitVec.ofNat 64 (ea s % 2 ^ 52))) ∧
  (∀ (g : Guard) (a d : BitVec 6),
    let ea := fun s : State => (s.srcA a).toNat
    let b := fun s : State => s.myCore.binding
    let reads := fun (bs : List Byte) (s : State) => ¬ notStrand s ∧ ea s % 128 = 0 ∧ s.windowCheck (ea s) 128 = none ∧
      (inWindow (ea s) = false → ∃ ps, s.linePlaces (ea s) 128 .read = .ok ps) ∧ Settled 2 s ∧ s.devRead (ea s) 128 = .ok bs
    let goes := fun (bs : List Byte) (n : Nat) (s : State) => reads bs s ∧ cardOk (b s) bs = true ∧
      (if (b s).dieQueue = true then s.cardDie (cardOperands bs) else .ok (s.cardCore (cardOperands bs))) = .ok n
    let mine := fun (s : State) (c : Card) => c.ready = true ∧ c.die = false ∧ c.core = s.cur.core ∧ c.launch = (b s).launch
    let none_ := fun s : State => ¬ notStrand s ∧ ∀ c ∈ s.dev.cards, ¬ mine s c
    (∀ (bs : List Byte) (n : Nat),
      Completes (.jcpush g a) (fun s => goes bs n s ∧ s.cardsAt (b s).dieQueue n < 64)
        (fun s => (s.engDone s.opAgent).pushCard (ea s) (cardOperands bs) (b s).dieQueue n) ∧
      Blocks (.jcpush g a) (fun s => goes bs n s ∧ 64 ≤ s.cardsAt (b s).dieQueue n)
        (fun s => [.cond s.cur.slot condOrder]) ∧
      Raises (.jcpush g a) (fun s => reads bs s ∧ cardOk (b s) bs = false) cSTRUCT (fun s => s.opInfo 13)) ∧
    (∀ (x y : List Card) (c : Card), Completes (.jcpop g d)
      (fun s => ¬ notStrand s ∧ s.me.reply (.cond s.cur.slot condCard) = none ∧ s.dev.cards = x ++ c :: y ∧ (∀ e ∈ x, ¬ mine s e) ∧ mine s c)
      (fun s => ((s.setDev { s.dev with cards := (x ++ c :: y).filter fun e => e.id ≠ c.id }).acquire s.who).deliver d
        (BitVec.ofNat 64 c.addr) 4)) ∧
    Blocks (.jcpop g d) (fun s => none_ s ∧ s.me.reply (.cond s.cur.slot condCard) = none)
      (fun s => [.cond s.cur.slot condCard]) ∧
    (∀ r : Reply, Completes (.jcpop g d) (fun s => ¬ notStrand s ∧ s.me.reply (.cond s.cur.slot condCard) = some r)
      (fun s => (s.acquire s.who).deliver d 0 4)) ∧
    Raises (.jcpush g a) notStrand cILLENC opWord ∧ Raises (.jcpop g d) notStrand cILLENC opWord ∧
    Raises (.jcpush g a) (fun s => ¬ notStrand s ∧ ea s % 128 ≠ 0) cALIGN (fun s => BitVec.ofNat 64 (ea s % 2 ^ 52)))

/-- TRAP raises SWTRAP with its immediate outside ctxS and escalates the hold in it. TRET in handler mode completes with the buffer full and its image sound, which for a replay mask needs the bundle at TRAPPC, and restores it when the bundle commits; with an unsound image it starts the handler again; without handler mode, and in ctxS, it raises PRIV, and with the buffer empty TRETF 1. SNAPREL completes in handler mode and then clears SV and MASK; HOLDRET completes in ctxS and then ends the service; elsewhere both raise PRIV. -/
def Obligations.TrapAndReturn : Prop :=
  ∀ (g : Guard) (i : BitVec 16),
    let fin := fun (n : Nat) (s : State) => s.setCur { s.cur with fin := n }
    let handler := fun s : State => ¬ inS s ∧ s.me.h = true
    let slots := fun (n : Nat) (s : State) =>
      (imgWord s.me.snap 8 % 2 ^ 32 = 0 ∧ n = 0) ∨
      (imgWord s.me.snap 8 % 2 ^ 32 ≠ 0 ∧ s.presentAt (BitVec.ofNat 52 (imgWord s.me.snap 3)) = .ok n)
    let bad := fun (s : State) (b : Bool) => ∃ n, slots n s ∧ s.me.imageBad n = b
    Raises (.trap g i) (fun s => ¬ inS s) cSWTRAP (fun _ => BitVec.ofNat 64 i.toNat) ∧
    Completes (.trap g i) inS (fin finEscalate) ∧
    Completes (.tret g) (fun s => handler s ∧ s.me.sv = true ∧ bad s false) (fin finTret) ∧
    Completes (.tret g) (fun s => handler s ∧ s.me.sv = true ∧ bad s true) (fin finTretBad) ∧
    (∀ x : State → Wait, Blocks (.tret g) (fun s => handler s ∧ s.me.sv = true ∧ imgWord s.me.snap 8 % 2 ^ 32 ≠ 0 ∧
      s.presentAt (BitVec.ofNat 52 (imgWord s.me.snap 3)) = .error (x s)) (fun s => [x s])) ∧
    Raises (.tret g) (fun s => handler s ∧ s.me.sv = false) cTRETF (fun s => s.opInfo 1) ∧
    Raises (.tret g) (fun s => ¬ handler s) cPRIV opWord ∧
    Completes (.snaprel g) handler (fin finSnaprel) ∧
    Raises (.snaprel g) (fun s => ¬ handler s) cPRIV opWord ∧
    Completes (.holdret g) inS (fin finHoldret) ∧
    Raises (.holdret g) (fun s => ¬ inS s) cPRIV opWord ∧
    (∀ s : State, s.cur.fin = finTret → s.finish = s.returnFromTrap s.who) ∧
    (∀ s : State, s.cur.fin = finEscalate → s.finish = s.escalate) ∧
    (∀ s : State, s.cur.fin = finHoldret → s.finish = s.doHoldret) ∧
    ∀ s : State, s.cur.fin = finSnaprel → s.finish.me.sv = false ∧ s.finish.me.mask = false

/-- LD and LDS read 2^size bytes at s[a] plus the displacement times the size, LDA at s[a]; when the address is a multiple of the size, nothing earlier holds the load back, and its bytes can be read, they complete and deliver the little-endian value after four context-cycles, LDS sign-extended. LDA above core scope, which reads past a V copy, then waits with what it has read until its acquire has been made, and completes with that. A misaligned address raises ALIGN with the address, and an access that must wait, for an access of an earlier bundle or of an earlier slot, blocks the bundle. ST at s[a] plus the displacement times the size, a multiple of the size, outside the copy aperture's 64-bit form, stores the low 2^size bytes of s[s], least significant first: at once, from the M unit, or held by an open segment. A misaligned address raises ALIGN. A 64-bit store to the aperture starts a copy on the channel that the address names, raises STRUCT 10 on a channel not owned, and blocks while the channel is full. -/
def Obligations.ScalarLoadsAndStores : Prop :=
  (∀ (g : Guard) (d a : BitVec 6) (c : BitVec 4) (z : BitVec 2) (i : BitVec 3) (sh : BitVec 2),
    let n := 2 ^ z.toNat
    let ea := fun s : State => (s.srcA a + BitVec.ofNat 64 (i.toNat * n)).toNat
    let ea0 := fun s : State => (s.srcA a).toNat
    let reads := fun (cls : Nat) (ea : State → Nat) (fresh : Bool) (bs : List Byte) (s : State) =>
      ea s % n = 0 ∧ s.loadHeld cls (ea s) (ea s + n) = false ∧ s.maskHeld true cls (ea s) (ea s + n) = false ∧
      s.load (ea s) n fresh = .ok bs
    let waits := fun (i : Instr) (free : State → Prop) (cls : Nat) (ea : State → Nat) =>
      Raises i (fun s => free s ∧ ea s % n ≠ 0) cALIGN (fun s => BitVec.ofNat 64 (ea s % 2 ^ 52)) ∧
      Blocks i (fun s => free s ∧ ea s % n = 0 ∧ s.loadHeld cls (ea s) (ea s + n) = true)
        (fun s => [.cond s.cur.slot condOrder]) ∧
      Blocks i (fun s => free s ∧ ea s % n = 0 ∧ s.loadHeld cls (ea s) (ea s + n) = false ∧
        s.maskHeld true cls (ea s) (ea s + n) = true) (fun s => [.cond s.cur.slot condMask])
    let open_ := fun s : State => s.acquired = none
    (∀ bs : List Byte, bs.length = n →
      Completes (.ld g d a c z i) (reads c.toNat ea false bs) (fun s => s.deliver d (BitVec.ofNat 64 (leNat bs)) 4) ∧
      Completes (.lds g d a c z i) (reads c.toNat ea false bs)
        (fun s => s.deliver d ((BitVec.ofNat (8 * n) (leNat bs)).signExtend 64) 4) ∧
      Completes (.lda g d a z sh) (fun s => sh = 0 ∧ open_ s ∧ reads 15 ea0 false bs s)
        (fun s => s.deliver d (BitVec.ofNat 64 (leNat bs)) 4) ∧
      Blocks (.lda g d a z sh) (fun s => sh ≠ 0 ∧ open_ s ∧ reads 15 ea0 true bs s) (fun s => [.acq s.cur.slot bs]) ∧
      Completes (.lda g d a z sh) (fun s => s.acquired = some bs) (fun s => s.deliver d (BitVec.ofNat 64 (leNat bs)) 4)) ∧
    waits (.ld g d a c z i) always c.toNat ea ∧ waits (.lds g d a c z i) always c.toNat ea ∧
    waits (.lda g d a z sh) open_ 15 ea0) ∧
  (∀ (g : Guard) (d a : BitVec 6) (c : BitVec 4) (z : BitVec 2) (i : BitVec 3),
    let n := 2 ^ z.toNat
    let I : Instr := .st g d a c z i
    let ea := fun s : State => (s.srcA a + BitVec.ofNat 64 (i.toNat * n)).toNat
    let copies := fun s : State => ea s % n = 0 ∧ inAperture (ea s) = true ∧ z = 3
    let ch := fun s : State => BitVec.ofNat 4 ((ea s - 2 ^ 21) / 4096)
    Stores I c.toNat (fun s ps => ea s % n = 0 ∧ ¬ copies s ∧
      s.storeParts (ea s) ((List.range n).map fun j => BitVec.ofNat 8 ((s.srcD d).toNat / 256 ^ j)) = .ok ps) ∧
    Raises I (fun s => ea s % n ≠ 0) cALIGN (fun s => BitVec.ofNat 64 (ea s % 2 ^ 52)) ∧
    Raises I (fun s => copies s ∧ s.ownsChannel (ch s) = false) cSTRUCT (fun s => s.opInfo 10) ∧
    Blocks I (fun s => copies s ∧ s.ownsChannel (ch s) = true ∧ s.channelFull (ch s) = true)
      (fun s => [.cond s.cur.slot condChannel]) ∧
    Completes I (fun s => copies s ∧ s.ownsChannel (ch s) = true ∧ s.channelFull (ch s) = false)
      (fun s => s.newKey.1.startXfer (ch s) c.toNat s.myCore.nextKey (ea s) (ea s + 8)
        (.copy (s.srcD d) false [] [] 0) true))

/-- A load of n bytes at a window address that passes the window's checks, of unpoisoned bytes and with no write of the context waiting, reads the n pool bytes there; a store of a part without a physical place changes those bytes of the pool and no other byte of any pool, no byte of memory and no register. Making one part of a store to memory changes no byte of device memory, no pool, no other core, and in the core's L1 only the words that the part covers; a register changes in no context. -/
def Obligations.StoresChangeTheirBytesAlone : Prop :=
  (∀ (s : State) (ea n : Nat) (fresh : Bool),
    (inWindow ea = true → s.windowCheck ea n = none → s.me.waitingWrites = [] →
      (∀ i < n, (4, (ea + i) / 8) ∉ s.myCore.poison) → s.load ea n fresh = .ok (s.myCore.poolRead ea n)) ∧
    ∀ (w : Who) (seq cls : Nat) (c : BitVec 3) (bs : List Byte) (t : State),
      s.storePart w seq cls ⟨ea, none, c, bs, false⟩ = some t →
      (∀ j < bs.length, Map.get 0 (t.core w.core).pool (ea + j) = bs.getD j 0) ∧
      (∀ a, (a < ea ∨ ea + bs.length ≤ a) →
        Map.get 0 (t.core w.core).pool a = Map.get 0 (s.core w.core).pool a) ∧
      (∀ k, k ≠ w.core → t.core k = s.core k) ∧ (t.core w.core).ctxs = (s.core w.core).ctxs ∧
      t.mem = s.mem ∧ t.dev = s.dev ∧ t.pending = s.pending) ∧
  (∀ (s t : State) (w : Who) (seq cls pa : Nat) (p : Write),
    p.pa = some pa → s.storePart w seq cls p = some t →
    t.mem = s.mem ∧ (∀ k, k ≠ w.core → t.core k = s.core k) ∧ (t.core w.core).pool = (s.core w.core).pool ∧
    (∀ x, ((t.core w.core).ctx x).regs = ((s.core w.core).ctx x).regs) ∧
    (∀ x, x ≠ w.ctx → (t.core w.core).ctx x = (s.core w.core).ctx x) ∧
    ∀ k, k ∉ (wordsOf (s.key pa) p.bytes).map (·.1) → (t.core w.core).word k = (s.core w.core).word k)

/-- With width, scope, acquire and release from SYNCATTR, and what a release waits for performed, ATOM, ASWAP and ACAS act at one point: in the pool window on the pool's bytes; on words that the core holds as P in its L1; on other words of the device's memory and on another device's memory by a request on which they block until its reply. They deliver the old value after four context-cycles. One that acquires above core scope does so after its read: in the pool window and on P words as one request of its bundle, elsewhere once its reply has come. The new value is R266's of the old value, the operand and, for ACAS, the comparand. A misaligned address raises ALIGN. ATOMSC on an aligned word of the device's own memory, below system scope, on a core with a wheel position, with nothing earlier that orders it and every earlier access performed at device scope, blocks until its reply; once that and the acquire have been made it completes and delivers the old value after four context-cycles. System scope raises SCSCOPE 1, a core without a wheel position SCSCOPE 2, and a misaligned address ALIGN. -/
def Obligations.Atomics : Prop :=
  (∀ (g : Guard) (d a b : BitVec 6) (o : BitVec 3),
    let n := fun s : State => if s.regs.syncattr.getLsbD 4 = true then 8 else 4
    let sc := fun s : State => s.regs.syncattr.toNat % 4
    let ea := fun s : State => (s.srcA a).toNat
    let B := fun s : State => (s.srcB b).toNat % 256 ^ n s
    let C := fun s : State => (s.srcD d).toNat % 256 ^ n s
    let acq := fun s : State => s.regs.syncattr.getLsbD 2 = true ∧ sc s ≠ 0
    let starts := fun s : State => ea s % n s = 0 ∧ s.me.seg.holds = false ∧
      s.orderHeld false 15 (ea s) (ea s + n s) = false ∧ s.maskHeld false 15 (ea s) (ea s + n s) = false ∧
      s.windowCheck (ea s) (n s) = none ∧
      (s.regs.syncattr.getLsbD 3 = true → Settled (sc s) s ∧ (sc s = 3 → s.storeFailure 0xFFFF = none))
    let acquired := fun s : State => acq s → ∃ bs, s.acquired = some bs
    let at_ := fun (p : Place) (s : State) => starts s ∧ inWindow (ea s) = false ∧
      s.translate s.who (ea s) .atomic = .ok p
    let here := fun (p : Place) (s : State) => at_ p s ∧ s.isRemote p.pa = false ∧ isAgent p.key = false ∧
      s.recipeWrite s.who p.key p.va = none
    let means := fun (i : Instr) (op : AtomOp) (new : State → Nat → Nat) =>
      let home := fun (p : Place) (s : State) => here p s ∧ s.privateWords p.key (n s) = false ∧
        s.refusedBy s.dev.node.toNat s.myCore.asid p.key [0, 1] = none ∧ p.cls ≠ clsPrivate
      let ask := fun (p : Place) (s : State) => Wait.atomic
        ⟨p.key, decide (n s = 8), op, BitVec.ofNat 64 (B s), BitVec.ofNat 64 (C s), s.who, s.cur.slot⟩
      let far := fun (p : Place) (s : State) => at_ p s ∧ s.isRemote p.pa = true
      let askFar := fun (p : Place) (s : State) => Wait.native s.cur.slot 5 p.pa (n s)
        (atomAux op (decide (n s = 8))) (leBytes 8 (B s) ++ leBytes 8 (if op = .cas then C s else 0))
      let result := fun (s : State) (old : Nat) => if op = .cas ∧ old ≠ C s then old else new s old
      let request := fun (pool : Bool) (k : Nat) (s : State) => Wait.here pool
        ⟨k, decide (n s = 8), op, BitVec.ofNat 64 (B s), BitVec.ofNat 64 (C s), s.who, s.cur.slot⟩
      let pool := fun (bs : List Byte) (s : State) => starts s ∧ inWindow (ea s) = true ∧ s.load (ea s) (n s) false = .ok bs
      let poolOld := fun s : State => leNat (s.myCore.poolRead (ea s) (n s))
      let poolNew := fun s : State => if op = .cas ∧ poolOld s ≠ C s then s.myCore
        else s.myCore.poolWrite (ea s) (leBytes (n s) (new s (poolOld s)))
      let mine := fun (p : Place) (s : State) => here p s ∧ s.privateWords p.key (n s) = true ∧
        ∀ j < n s / 4, (3, p.key + 4 * j) ∉ s.myCore.poison
      let old := fun (p : Place) (s : State) =>
        packBits 32 ((List.range (n s / 4)).map fun j => (s.myCore.word (p.key + 4 * j)).data.toNat)
      let written := fun (p : Place) (s t : State) => t.mem = s.mem ∧
        ∀ j < n s / 4, (t.myCore.word (p.key + 4 * j)).data = BitVec.ofNat 32 (result s (old p s) / 2 ^ (32 * j))
      let asks := fun (isPool : Bool) (pre : State → Prop) (k : State → Nat) =>
        Blocks i (fun s => pre s ∧ acq s ∧ s.me.reply (request isPool (k s) s) = none) (fun s => [request isPool (k s) s]) ∧
        ∀ r : Reply, Completes i (fun s => pre s ∧ acq s ∧ s.me.reply (request isPool (k s) s) = some r)
          (fun s => s.deliver d (BitVec.ofNat 64 (leNat r.bytes)) 4)
      (∀ bs : List Byte,
        Completes i (fun s => pool bs s ∧ ¬ acq s)
          (fun s => (s.setMyCore (poolNew s)).deliver d (BitVec.ofNat 64 (poolOld s)) 4) ∧
        asks true (pool bs) ea) ∧
      (∀ s : State, s.startWait s.who (request true (ea s) s) =
        ((s.setMyCore (poolNew s)).acquire s.who).answer s.who (request true (ea s) s) (leBytes (n s) (poolOld s)) 0) ∧
      (∀ (p : Place) (s : State), s.opRuns i = true → mine p s → ¬ acq s →
        ∃ t : State, exec i s = .next (s.afterOp i (.done (t.deliver d (BitVec.ofNat 64 (old p s)) 4))) ∧ written p s t) ∧
      (∀ p : Place, asks false (mine p) (fun _ => p.key)) ∧
      (∀ (p : Place) (s : State), s.privateWords p.key (n s) = true →
        let t := s.startWait s.who (request false p.key s)
        written p s t ∧ t.answered s.who (request false p.key s) (leBytes (n s) (old p s)) 0) ∧
      (∀ p : Place, Blocks i (fun s => home p s ∧ s.me.reply (ask p s) = none) (fun s => [ask p s]) ∧
        ∀ r : Reply, r.status = 0 → Completes i (fun s => home p s ∧ acquired s ∧ s.me.reply (ask p s) = some r)
          (fun s => s.deliver d (BitVec.ofNat 64 (leNat r.bytes)) 4)) ∧
      (∀ p : Place, Blocks i (fun s => far p s ∧ s.me.reply (askFar p s) = none) (fun s => [askFar p s]) ∧
        ∀ r : Reply, r.status = 0 → Completes i (fun s => far p s ∧ acquired s ∧ s.me.reply (askFar p s) = some r)
          (fun s => s.deliver d (BitVec.ofNat 64 (leNat (r.bytes.take (n s)))) 4)) ∧
      Raises i (fun s => ea s % n s ≠ 0) cALIGN (fun s => BitVec.ofNat 64 (ea s % 2 ^ 52))
    let signed := fun (s : State) (x : Nat) => ((BitVec.ofNat (8 * n s) x).toInt : Int)
    (o = 0 → means (.atom g d a b o) .add (fun s old => (old + B s) % 256 ^ n s)) ∧
    (o = 1 → means (.atom g d a b o) .and (fun s old => old &&& B s)) ∧
    (o = 2 → means (.atom g d a b o) .or (fun s old => old ||| B s)) ∧
    (o = 3 → means (.atom g d a b o) .xor (fun s old => old ^^^ B s)) ∧
    (o = 4 → means (.atom g d a b o) .smin (fun s old => if signed s (B s) < signed s old then B s else old)) ∧
    (o = 5 → means (.atom g d a b o) .smax (fun s old => if signed s old < signed s (B s) then B s else old)) ∧
    (o = 6 → means (.atom g d a b o) .umin (fun s old => min old (B s))) ∧
    (o = 7 → means (.atom g d a b o) .umax (fun s old => max old (B s))) ∧
    means (.aswap g d a b) .swap (fun s _ => B s) ∧ means (.acas g d a b) .cas (fun s _ => B s)) ∧
  (∀ (g : Guard) (d a b : BitVec 6) (o : BitVec 3),
    let n := fun s : State => if s.regs.syncattr.getLsbD 4 = true then 8 else 4
    let ea := fun s : State => (s.srcA a).toNat
    let sys := fun s : State => s.regs.syncattr.toNat % 4 = 3
    let home := fun (p : Place) (s : State) => ¬ sys s ∧ s.myCore.wheel ≠ [] ∧ ea s % n s = 0 ∧
      inWindow (ea s) = false ∧ inAperture (ea s) = false ∧ s.translate s.who (ea s) .atomic = .ok p ∧
      s.isRemote p.pa = false ∧ isAgent p.key = false ∧ s.recipeWrite s.who p.key (ea s) = none ∧
      s.refusedBy s.dev.node.toNat s.myCore.asid p.key [0, 1] = none ∧
      s.orderHeld false 15 (ea s) (ea s + n s) = false ∧ s.maskHeld false 15 (ea s) (ea s + n s) = false ∧ Settled 2 s
    let ask := fun (p : Place) (s : State) => Wait.atomsc ⟨p.key, decide (n s = 8), atomscOf o,
      BitVec.ofNat 64 ((s.srcB b).toNat % 256 ^ n s), s.who, s.cur.slot, 0⟩
    (∀ p : Place, Blocks (.atomsc g d a b o) (fun s => home p s ∧ s.me.reply (ask p s) = none) (fun s => [ask p s]) ∧
      ∀ (r : Reply) (bs : List Byte), r.status = 0 → Completes (.atomsc g d a b o)
        (fun s => home p s ∧ s.me.reply (ask p s) = some r ∧ s.acquired = some bs)
        (fun s => s.deliver d (BitVec.ofNat 64 (leNat r.bytes)) 4)) ∧
    Raises (.atomsc g d a b o) sys cSCSCOPE (fun s => s.opInfo 1) ∧
    Raises (.atomsc g d a b o) (fun s => ¬ sys s ∧ s.myCore.wheel = []) cSCSCOPE (fun s => s.opInfo 2) ∧
    Raises (.atomsc g d a b o) (fun s => ¬ sys s ∧ s.myCore.wheel ≠ [] ∧ ea s % n s ≠ 0) cALIGN
      (fun s => BitVec.ofNat 64 (ea s % 2 ^ 52)))

/-- INVR completes and drops the V words of its regions. WBR, with nothing earlier to wait for and no segment holding egress, completes: dirty P words are written back and stay, O words become I and a WB goes to each home, and the op counts as an access until the homes have applied them. OWN of at most 1,024 lines whose translations and rights hold completes: it registers every word that is neither O nor P as far as entries are free, the rest waits in the M unit, and the op counts as an access until these words and those whose registration was on its way are granted; of more lines it raises STRUCT 15. PREF completes whatever its address. In ctxS, which has no regions, OWN raises ILLENC, and so do INVR and WBR of a region mask other than 0. That an OWN beyond the entries waits in the M unit is the model's choice (log entry 66), and so are the ILLENCs of ctxS (log entries 59 and 82). -/
def Obligations.CachedWordOps : Prop :=
  ∀ (g : Guard) (m : BitVec 8) (sh : BitVec 1) (a : BitVec 6) (i : BitVec 3),
    let mine := fun (s : State) (p : Nat × L1Word) => inMask s.regs m p.2.va
    let os := fun s : State => s.myCore.l1.filter fun p => decide (p.2.st = .O) && mine s p
    let ps := fun s : State => s.myCore.l1.filter fun p => decide (p.2.st = .P) && p.2.dirty && mine s p
    let may := fun s : State => ¬ inS s ∨ m = 0
    Completes (.invr g m) may (fun s => s.dropVs s.cur.core s.regs m) ∧
    let clear := fun s : State => s.me.seg.holds = false ∧ s.sweepHeld s.cur.seq0 m = false ∧ s.sweepHeld s.me.seq m = false
    Completes (.wbr g m sh) (fun s => may s ∧ clear s)
      (fun s =>
        let u := (os s).foldl (fun u p =>
          (u.setMyCore ((u.myCore.setWord p.1 { p.2 with st := .I, mask := 0 }).markWord p.1 false)).post
            (.wb ⟨p.1, s.cur.core, p.2.data, p.2.grant, u.myCore.isBad p.1⟩))
          ((ps s).foldl (fun u p => u.writeBack s.cur.core p.1 true) s)
        if os s = [] then u.placed
        else u.placed.addAcc s.who ⟨u.me.seq, 15, 0, 0, .wbs ((os s).map (·.1))⟩) ∧
    Blocks (.wbr g m sh) (fun s => may s ∧ s.me.seg.holds = false ∧ s.sweepHeld s.cur.seq0 m = true)
      (fun s => [.cond s.cur.slot condOrder]) ∧
    Blocks (.wbr g m sh) (fun s => may s ∧ s.me.seg.holds = false ∧ s.sweepHeld s.cur.seq0 m = false ∧
      s.sweepHeld s.me.seq m = true) (fun s => [.cond s.cur.slot condMask]) ∧
    (∀ l : List (List (Nat × Nat × Bool) × List Nat), Completes (.own g m)
      (fun s => ¬ inS s ∧ (regionLines s.regs m).1 ≤ 1024 ∧ exAll s.ownLine (regionLines s.regs m).2 = .ok l ∧
        clear s)
      (fun s =>
        let ws := l.flatMap (·.1)
        let out := (ws.filter fun x => !x.2.2).map (·.1) ++ l.flatMap (·.2)
        let v := (regionLines s.regs m).2.foldl (fun u va => u.usePage u.cur.core u.myCore.asid va) s
        let u := ownSome s.who ws (if out = [] then v.placed else v.placed.addAcc s.who ⟨s.me.seq, 15, 0, 0, .regs out⟩)
        if u.2 = [] then u.1 else u.1.holdOp s.who ⟨s.me.seq, 15, 0, 0, .own u.2⟩)) ∧
    (∀ (s : State) (w : Who) (x : Nat × Nat × Bool), x.2.2 = false →
      ((s.core w.core).word x.1).st = .I ∨ ((s.core w.core).word x.1).st = .V →
      (128 ≤ (s.core w.core).regOut.length → s.ownWord w x = none) ∧
      ((s.core w.core).regOut.length < 128 → ∃ t, s.ownWord w x = some t ∧ ((t.core w.core).word x.1).st = .pending ∧
        (.reg ⟨x.1, false, w.core⟩) ∈ t.pending ∧ (t.core w.core).regOut = (s.core w.core).regOut ++ [(x.1, w.ctx)])) ∧
    Raises (.own g m) (fun s => ¬ inS s ∧ 1024 < (regionLines s.regs m).1) cSTRUCT (fun s => s.opInfo 15) ∧
    Raises (.own g m) inS cILLENC opWord ∧
    (∀ j ∈ [Instr.invr g m, .wbr g m sh], Raises j (fun s => inS s ∧ m ≠ 0) cILLENC opWord) ∧
    ∀ s : State, s.opRuns (.pref g a i) = true →
      ∃ t : State, exec (.pref g a i) s = .next (s.afterOp (.pref g a i) (.done t)) ∧ t.regs = s.regs ∧ t.mem = s.mem

/-- With the register in the window and outside ctxS, VLD reads 1,024 bytes at an address that is a multiple of 64 and VLDS the rows that SHAPE, the base and the stride give, in order, and both deliver the bytes, zero beyond them, after five context-cycles; VST and VSTS store the register's bytes, whole or by rows; that an open rewindable segment holds them too (log entry 64) and that a store of more words than the core has registrations free is registered in part and waits for the rest (log entry 80) are the model's reading. In handler mode VLD and VLDS raise PRIV; a register outside the window, and ctxS, raise ILLENC; a misaligned address raises ALIGN. -/
def Obligations.VectorLoadsAndStores : Prop :=
  ∀ (g : Guard) (v : BitVec 7) (a b : BitVec 6) (d : BitVec 8),
    let may := fun s : State => s.isS = false ∧ s.inVectors v = true
    let ea := fun s : State => (s.srcA a + BitVec.ofInt 64 (d.toInt * 64)).toNat
    let byte := fun (s : State) (j : Nat) => (BitVec.ofNat 8 ((readV s.regs v).toNat / 256 ^ j) : Byte)
    let rows := fun (l : List Nat) (n : Nat) (s : State) => may s ∧ s.rowsOf a b = some (l, n) ∧
      ∀ x ∈ l, x % rowAlign s.shape = 0
    (∀ bs : List Byte, Completes (.vld g v a d)
      (fun s => may s ∧ s.me.h = false ∧ ea s % 64 = 0 ∧ s.loadHeld 0 (ea s) (ea s + 1024) = false ∧
        s.maskHeld true 0 (ea s) (ea s + 1024) = false ∧ s.load (ea s) 1024 false = .ok bs)
      (fun s => s.deliverV v (BitVec.ofNat 8192 (leNat bs)) 5 0 none)) ∧
    (∀ (l : List Nat) (n : Nat) (bs : List Byte), Completes (.vlds g v a b)
      (fun s => rows l n s ∧ s.me.h = false ∧
        (∀ x ∈ l, s.loadHeld 0 x (x + n) = false ∧ s.maskHeld true 0 x (x + n) = false) ∧
        joinPieces (l.map fun x => s.load x n false) = .ok bs)
      (fun s => s.deliverV v (BitVec.ofNat 8192 (leNat bs)) 5 0 none)) ∧
    Stores (.vst g v a d) 0 (fun s ps => may s ∧ ea s % 64 = 0 ∧
      s.storeParts (ea s) ((List.range 1024).map (byte s)) = .ok ps) ∧
    Stores (.vsts g v a b) 0 (fun s ps => ∃ l n pss, rows l n s ∧
      exAll (fun (p : Nat × Nat) => s.storeParts p.1 ((((List.range 1024).map (byte s)).drop (p.2 * n)).take n)) l.zipIdx
        = .ok pss ∧ ps = pss.flatten) ∧
    (∀ i ∈ [Instr.vld g v a d, .vlds g v a b], Raises i (fun s => may s ∧ s.me.h = true) cPRIV opWord) ∧
    (∀ i ∈ [Instr.vld g v a d, .vst g v a d, .vlds g v a b, .vsts g v a b],
      Raises i (fun s => ¬ may s) cILLENC opWord) ∧
    (∀ i ∈ [Instr.vld g v a d, .vst g v a d], Raises i (fun s => may s ∧ s.me.h = false ∧ ea s % 64 ≠ 0) cALIGN
      (fun s => BitVec.ofNat 64 (ea s % 2 ^ 52)))

/-- TDESC of an unpoisoned constant whose descriptor is well formed and whose footprint fits completes: the tile register is no longer poisoned, and the descriptor is delivered after three context-cycles. It blocks while the register is busy; a bad field raises ILLENC, a local footprint beyond PB2 PROT 4, and a remote tile on a core that is not a mate bound to the same launch PROT 6. The reasons of the PROT are the model's reading of R305 (log entry 72), and so is the address, the descriptor's data offset (log entry 100). TLD and TST of a local tile at an address that is a multiple of 128, TSTX to a landing handle and TCPY between tiles of the same region sizes complete when the channel is the context's and not full, no register is busy, the footprints are free and a tile that is read is not poisoned: the tile's access is pending on the scoreboard and the transfer takes the channel's next identifier. A channel not owned raises STRUCT 10, a mode that the tile lacks STRUCT 9, unlike tiles STRUCT 7, a poisoned source TPOISON, a bad handle STRUCT 13; they block while the channel is full or the tile is not free; in ctxS they raise ILLENC, which is the model's reading (log entry 59). -/
def Obligations.TilesAndTransfers : Prop :=
  (∀ (g : Guard) (t : BitVec 5) (k : BitVec 15),
    let w := fun s : State => s.myCore.constant k.toNat
    let b := fun s : State => s.myCore.binding
    let may := fun s : State => s.isS = false ∧ k.toNat < (b s).c ∧ s.busy t.toNat = false ∧
      s.myCore.poolPoison ((b s).constBase + 8 * k.toNat) 8 = false
    let small := fun s : State => descFmt (w s) = .tern ∨ ∃ sg, descFmt (w s) = .int 4 sg
    let sound := fun s : State => fmtAssigned (descCode (w s)) = true ∧
      (descRemote (w s) = false → descMate (w s) = 0) ∧
      (descMeta (w s) = true → descD1 (w s) % 4 = 0 ∧ ¬ small s)
    let last := fun s : State => descOff (w s) + descSize (w s)
    let mate := fun s : State => podMate s.cur.core (descMate (w s))
    let near := fun s : State => mate s ≠ s.cur.core ∧ (s.core (mate s)).boundTo (b s).launch = true
    Completes (.tdesc g t k)
      (fun s => may s ∧ sound s ∧
        ((descRemote (w s) = false ∧ last s ≤ (b s).pb2) ∨
         (descRemote (w s) = true ∧ near s ∧ (b s).pb1 ≤ descOff (w s) ∧ last s ≤ (b s).pb2)))
      (fun s => (s.setRegs { s.regs with tile := Map.put {} s.regs.tile t.toNat { s.tile t.toNat with poison := 0 } }).deliverT
        t (w s)) ∧
    Blocks (.tdesc g t k) (fun s => s.isS = false ∧ k.toNat < (b s).c ∧ s.busy t.toNat = true)
      (fun s => [.cond s.cur.slot condTile]) ∧
    Raises (.tdesc g t k) (fun s => s.isS = true ∨ (b s).c ≤ k.toNat ∨ (may s ∧ ¬ sound s)) cILLENC opWord ∧
    Raises (.tdesc g t k) (fun s => may s ∧ sound s ∧ descRemote (w s) = false ∧ (b s).pb2 < last s) cPROT
      (fun s => addrInfo 4 (descOff (w s))) ∧
    Raises (.tdesc g t k) (fun s => may s ∧ sound s ∧ descRemote (w s) = true ∧ ¬ near s) cPROT
      (fun s => addrInfo 6 (descOff (w s)))) ∧
  (∀ (g : Guard) (t u : BitVec 5) (a : BitVec 6) (c h : BitVec 4) (m : BitVec 2),
    let D := fun s : State => (s.tile t.toNat).desc
    let D' := fun s : State => (s.tile u.toNat).desc
    let ea := fun s : State => (s.srcA a).toNat
    let may := fun s : State => s.isS = false ∧ s.ownsChannel h = true
    let key := fun s : State => s.myCore.nextKey
    let local_ := fun s : State => may s ∧ descRemote (D s) = false ∧ modeLacks (D s) m = false ∧ s.busy t.toNat = false
    let fits := fun (load : Bool) (s : State) => local_ s ∧ (load = false → (s.tile t.toNat).poison = 0) ∧
      ea s % 128 = 0 ∧ s.imagePages (ea s) (D s) m (if load then .read else .write) = .ok ()
    let free := fun (load : Bool) (s : State) => s.channelFull h = false ∧ s.tileWaits t.toNat load = false
    let pend := fun (load : Bool) (s : State) => s.newKey.1.pendTile (key s) t.toNat (D s) load
    let alike := fun s : State => may s ∧ descRemote (D s) = false ∧ s.busy u.toNat = false ∧
      (s.tile u.toNat).poison = 0 ∧ descData (D s) = descData (D' s) ∧ descMetaSize (D s) = descMetaSize (D' s) ∧
      descScaleSize (D s) = descScaleSize (D' s)
    let sends := fun s : State => local_ s ∧ (s.tile t.toNat).poison = 0 ∧
      handleOk (s.srcA a) (descSpan (D s) m) = true
    let moves := fun (i : Instr) (load : Bool) =>
      Completes i (fun s => fits load s ∧ free load s) (fun s => (pend load s).startXfer h c.toNat (key s) (ea s)
        (ea s + descSpan (D s) m) (if load then .tld t.toNat (D s) m (ea s) else .tst t.toNat (D s) m (ea s))
        (!load && !inWindow (ea s))) ∧
      Blocks i (fun s => fits load s ∧ s.channelFull h = true) (fun s => [.cond s.cur.slot condChannel]) ∧
      Blocks i (fun s => fits load s ∧ s.channelFull h = false ∧ s.tileWaits t.toNat load = true)
        (fun s => [.cond s.cur.slot condTile]) ∧
      Raises i (fun s => local_ s ∧ (load = false → (s.tile t.toNat).poison = 0) ∧ ea s % 128 ≠ 0) cALIGN
        (fun s => BitVec.ofNat 64 (ea s % 2 ^ 52))
    moves (.tld g t a c h m) true ∧ moves (.tst g t a c h m) false ∧
    Completes (.tstx g t a c h m) (fun s => sends s ∧ free false s) (fun s =>
      (pend false s).startXfer h c.toNat (key s) 0 0 (.tstx (D s) m (s.srcA a)) true) ∧
    Raises (.tstx g t a c h m) (fun s => local_ s ∧ (s.tile t.toNat).poison = 0 ∧
      handleOk (s.srcA a) (descSpan (D s) m) = false) cSTRUCT (fun s => s.opInfo 13) ∧
    Completes (.tcpy g t u h) (fun s => alike s ∧ s.channelFull h = false ∧ s.tileWaits t.toNat true = false ∧
        s.tileWaits u.toNat false = false)
      (fun s =>
        let x := (pend true s).pendTile (key s) u.toNat (D' s) false
        let id : Word := Map.get 0 s.myCore.cnext h.toNat
        let y := (x.takeId s.cur.core h.toNat).1
        (y.setMyCore { y.myCore with xfers := s.myCore.xfers ++
          [newXfer h.toNat id s.cur.ctx s.myCore.asid 0 s.me.seq (.tcpy t.toNat (D s) (D' s)) (key s) false] }).post
            (.transferComplete ⟨s.cur.core, h.toNat, id⟩)) ∧
    Raises (.tcpy g t u h) (fun s => may s ∧ descRemote (D s) = false ∧ s.busy u.toNat = false ∧
      (s.tile u.toNat).poison = 0 ∧ descData (D s) ≠ descData (D' s)) cSTRUCT (fun s => s.opInfo 7) ∧
    (∀ i ∈ [Instr.tld g t a c h m, .tst g t a c h m, .tstx g t a c h m, .tcpy g t u h],
      Raises i inS cILLENC opWord ∧
      Raises i (fun s => s.isS = false ∧ s.ownsChannel h = false) cSTRUCT (fun s => s.opInfo 10)) ∧
    ∀ i ∈ [Instr.tst g t a c h m, .tstx g t a c h m],
      Raises i (fun s => local_ s ∧ (s.tile t.toNat).poison ≠ 0) cTPOISON
        (fun s => BitVec.ofNat 64 ((s.tile t.toNat).poison.toNat + 4 * t.toNat)))

/-- A transfer takes the identifier CNEXT of its channel, which rises by one modulo 2^32, and stands among the core's transfers. When a transfer completes, with an error or without, it no longer does, its scoreboard entry is gone, CDONE moves across an unbroken run of completed identifiers and no further, and no other channel's registers change; an error sets the channel's bit of CERR. -/
def Obligations.IdentifiersCountUp : Prop :=
  (∀ (s : State) (core ch : Nat),
    let t := s.takeId core ch
    t.2 = Map.get 0 (s.core core).cnext ch ∧ Map.get 0 (t.1.core core).cnext ch = t.2 + 1 ∧
    ∀ c, c ≠ ch → Map.get 0 (t.1.core core).cnext c = Map.get 0 (s.core core).cnext c) ∧
  ∀ (s : State) (x : XferId) (t : Xfer) (err : Nat),
    let k := s.core x.core
    let j := (s.completeXfer x err).core x.core
    let doneBefore := fun w : Word => (x.ch, w) ∈ k.xdone ∨ w = x.id
    k.xfers.find? (fun t => decide (t.ch = x.ch) && decide (t.id = x.id)) = some t →
    t ∉ j.xfers ∧ (∀ e ∈ j.score, e.key ≠ t.key) ∧
    (∃ n ≤ 65, Map.get 0 j.cdone x.ch = Map.get 0 k.cdone x.ch + BitVec.ofNat 32 n ∧
      (∀ i < n, doneBefore (Map.get 0 k.cdone x.ch + BitVec.ofNat 32 i)) ∧
      (n < 65 → ¬ doneBefore (Map.get 0 k.cdone x.ch + BitVec.ofNat 32 n))) ∧
    (∀ c, c ≠ x.ch → Map.get 0 j.cdone c = Map.get 0 k.cdone c) ∧ j.cnext = k.cnext ∧
    j.cerr = if err = 0 then k.cerr else k.cerr ||| (1#16 <<< x.ch)

/-- GPUSH with fewer than 64 entries waiting completes: the index stands last in the queue with GQT as it is, and its row's read is outstanding and on its way. GPOP with a row that arrived whole completes, takes it off and delivers its bytes after five context-cycles; with a row that faulted it raises the row's fault. SPUSH on an own channel that is not full, with room in the queue, completes: the row's bytes leave as a transfer, and its entry stands in the queue. They block for room or for a row; GPOP with neither a row nor a gather waiting raises STRUCT 11. -/
def Obligations.GatherQueueOps : Prop :=
  ∀ (g : Guard) (v : BitVec 7) (a : BitVec 6),
    let T := fun s : State => s.me.gqt
    let size := fun s : State => ((T s).toNat / 2 ^ 60 + 1) * 64
    let cls := fun s : State => (T s).toNat / 2 ^ 52 % 16
    let ch := fun s : State => BitVec.ofNat 4 ((T s).toNat / 2 ^ 56)
    let row := fun s : State => (T s).toNat / 2 ^ 6 % 2 ^ 46 * 64 + (s.srcA a).toNat * size s
    let may := fun s : State => s.isS = false ∧ s.inVectors v = true
    let room := fun s : State => s.me.gqAddr.length < 64
    Completes (.gpush g a) (fun s => s.isS = false ∧ room s) (fun s =>
      let u := s.placed
      ((u.setMe { u.me with gqAddr := s.me.gqAddr ++ [.gather (s.srcA a) (T s) s.me.seq []] }).addAcc s.who
        ⟨s.me.seq, cls s, row s, row s + size s, .gather s.me.seq⟩).post (.gatherRowArrive s.who)) ∧
    Blocks (.gpush g a) (fun s => s.isS = false ∧ ¬ room s) (fun s => [.cond s.cur.slot condGather]) ∧
    (∀ (r : GqRow) (l : List GqRow), r.fault = none → Completes (.gpop g v)
      (fun s => may s ∧ s.me.h = false ∧ s.me.gqData = r :: l)
      (fun s => (s.setMe { s.me with gqData := l }).deliverV v (BitVec.ofNat 8192 (leNat r.bytes)) 5 0 none)) ∧
    (∀ (r : GqRow) (l : List GqRow) (f : Byte × Dword), r.fault = some f → Raises (.gpop g v)
      (fun s => may s ∧ s.me.h = false ∧ s.me.gqData = r :: l ∧ s.cur.replay = false) f.1 (fun _ => f.2)) ∧
    Raises (.gpop g v) (fun s => may s ∧ s.me.h = false ∧ s.me.gqData = [] ∧ s.me.gqAddr = []) cSTRUCT
      (fun s => s.opInfo 11) ∧
    (∀ (j x : Dword) (n : Nat) (got : List Byte), Blocks (.gpop g v)
      (fun s => may s ∧ s.me.h = false ∧ s.me.gqData = [] ∧ .gather j x n got ∈ s.me.gqAddr)
      (fun s => [.cond s.cur.slot condGather])) ∧
    Completes (.spush g v a)
      (fun s => may s ∧ s.ownsChannel (ch s) = true ∧ room s ∧ s.channelFull (ch s) = false)
      (fun s =>
        let bs := ((List.range 1024).map fun j => (BitVec.ofNat 8 ((readV s.regs v).toNat / 256 ^ j) : Byte)).take (size s)
        let u := s.newKey.1.startXfer (ch s) (cls s) s.myCore.nextKey (row s) (row s + size s) (.scatter (row s) bs)
          (!inWindow (row s))
        u.setMe { u.me with gqAddr := u.me.gqAddr ++
          [.scatter ⟨s.cur.core, (ch s).toNat, Map.get 0 s.myCore.cnext (ch s).toNat⟩] }) ∧
    Raises (.spush g v a) (fun s => may s ∧ s.ownsChannel (ch s) = false) cSTRUCT (fun s => s.opInfo 10) ∧
    Raises (.gpush g a) inS cILLENC opWord ∧ Raises (.gpop g v) (fun s => ¬ may s) cILLENC opWord ∧
    Raises (.spush g v a) (fun s => ¬ may s) cILLENC opWord

/-- On a valid buffer, CBGET with a free slot delivers the address of slot P after four context-cycles, P moves on, free falls and got rises by one; CBTAKE with a filled slot delivers that of slot Q, Q moves on and filled falls; CBPUT, once every earlier pool write of the context is performed, turns a gotten slot into a filled one; CBGIVE makes a taken slot free. CBGET and CBTAKE block without such a slot. An invalid buffer raises PROT; CBGET and CBPUT on an engine-fed one, CBPUT with nothing gotten and CBGIVE with nothing taken raise STRUCT 8. That the PROT has reason 6 and names the buffer's base is the model's reading of R305 (log entry 72). -/
def Obligations.CircularBuffers : Prop :=
  ∀ (g : Guard) (d : BitVec 6) (n : BitVec 3),
    let w := fun s : State => s.cbReg n
    let may := fun s : State => s.isS = false ∧ (w s).getLsbD 29 = true
    let engine := fun s : State => (w s).getLsbD 63 = true
    let at_ := fun (s : State) (j : Nat) => (BitVec.ofNat 64 (cbBase (w s) + j * cbSize (w s)) : Dword)
    let now := fun (s : State) (q p got filled free : Nat) => s.setCb n (cbWith (w s) q p got filled free)
    let C := fun s : State => w s
    Completes (.cbget g d n) (fun s => may s ∧ ¬ engine s ∧ cbFree (C s) ≠ 0)
      (fun s => (now s (cbQ (C s)) ((cbP (C s) + 1) % cbSlots (C s)) (cbGot (C s) + 1) (cbFilled (C s))
        (cbFree (C s) - 1)).deliver d (at_ s (cbP (C s))) 4) ∧
    Completes (.cbput g n) (fun s => may s ∧ ¬ engine s ∧ cbGot (C s) ≠ 0 ∧ s.poolWrites s.cur.seq0 = false ∧
        s.poolWrites s.me.seq = false)
      (fun s => now s (cbQ (C s)) (cbP (C s)) (cbGot (C s) - 1) (cbFilled (C s) + 1) (cbFree (C s))) ∧
    Blocks (.cbput g n) (fun s => may s ∧ ¬ engine s ∧ cbGot (C s) ≠ 0 ∧ s.poolWrites s.cur.seq0 = true)
      (fun s => [.cond s.cur.slot condOrder]) ∧
    Blocks (.cbput g n) (fun s => may s ∧ ¬ engine s ∧ cbGot (C s) ≠ 0 ∧ s.poolWrites s.cur.seq0 = false ∧
      s.poolWrites s.me.seq = true) (fun s => [.cond s.cur.slot condMask]) ∧
    Completes (.cbtake g d n) (fun s => may s ∧ cbFilled (C s) ≠ 0)
      (fun s => (now s ((cbQ (C s) + 1) % cbSlots (C s)) (cbP (C s)) (cbGot (C s)) (cbFilled (C s) - 1)
        (cbFree (C s))).deliver d (at_ s (cbQ (C s))) 4) ∧
    Completes (.cbgive g n) (fun s => may s ∧ cbFree (C s) + cbGot (C s) + cbFilled (C s) < cbSlots (C s))
      (fun s => now s (cbQ (C s)) (cbP (C s)) (cbGot (C s)) (cbFilled (C s)) (cbFree (C s) + 1)) ∧
    Blocks (.cbget g d n) (fun s => may s ∧ ¬ engine s ∧ cbFree (C s) = 0) (fun s => [.cond s.cur.slot condCb]) ∧
    Blocks (.cbtake g d n) (fun s => may s ∧ cbFilled (C s) = 0) (fun s => [.cond s.cur.slot condCb]) ∧
    (∀ i ∈ [Instr.cbget g d n, .cbput g n, .cbtake g d n, .cbgive g n],
      Raises i (fun s => s.isS = false ∧ (w s).getLsbD 29 = false) cPROT (fun s => addrInfo 6 (cbBase (w s)))) ∧
    Raises (.cbget g d n) (fun s => may s ∧ engine s) cSTRUCT (fun s => s.opInfo 8) ∧
    Raises (.cbput g n) (fun s => may s ∧ (engine s ∨ cbGot (C s) = 0)) cSTRUCT (fun s => s.opInfo 8) ∧
    Raises (.cbgive g n) (fun s => may s ∧ cbSlots (C s) ≤ cbFree (C s) + cbGot (C s) + cbFilled (C s)) cSTRUCT
      (fun s => s.opInfo 8) ∧
    ∀ (x : Dword) (q p got filled free : Nat), q < 64 → p < 64 → got < 128 → filled < 128 → free < 128 →
      let y := cbWith x q p got filled free
      cbQ y = q ∧ cbP y = p ∧ cbGot y = got ∧ cbFilled y = filled ∧ cbFree y = free ∧ cbSlots y = cbSlots x ∧
      cbSize y = cbSize x ∧ cbBase y = cbBase x ∧ cbValid y = cbValid x ∧ cbEngine y = cbEngine x

/-- LZRES of a well-formed target, outside a holding segment, blocks until its answer and then delivers the handle after four context-cycles, or raises PROT 2 when it is refused; LZARM of a free barrier on a valid zone arms it; LZREL of a landed slot frees it and grants what waits; LZSTAT delivers the slot's status word after four context-cycles; LZCLEAN passes when no slot of the zone is torn and blocks while one is. An undefined zone raises PROT 6, a number above 3 ILLENC, a slot beyond the zone, a bad target or a bad count STRUCT 13, and a slot or barrier in the wrong state STRUCT 14. -/
def Obligations.LandingSlots : Prop :=
  ∀ (g : Guard) (d a b : BitVec 6) (z : BitVec 2) (x n : BitVec 3),
    let A := fun s : State => s.srcA a
    let zone := fun (s : State) (j : Nat) => s.myCore.zone j
    let slot := fun s : State => (zone s n.toNat).slot (A s).toNat
    let onSlot := fun s : State => n.toNat < 4 ∧ (zone s n.toNat).valid = true ∧ (A s).toNat < (zone s n.toNat).count
    let target := fun s : State => (A s).toNat < 2 ^ 38 ∧ (A s).toNat % 2 ^ 18 = 0
    let ask := fun s : State => Wait.lzres s.cur.slot (handleNode (A s)) (handleCore (A s)) (handleZone (A s))
      (min (s.srcB b).toNat (2 ^ 17 - 1))
    let armed := fun s : State => abState (s.myCore.barrier x.toNat) = 1 ∨
      ∃ j < 8, abState (s.myCore.barrier j) = 1 ∧ abZone (s.myCore.barrier j) = z.toNat
    let sends := fun s : State => s.isS = false ∧ target s ∧ s.me.seg.holds = false
    Blocks (.lzres g d a b) (fun s => sends s ∧ s.me.reply (ask s) = none) (fun s => [ask s]) ∧
    (∀ r : Reply, r.status = 0 → Completes (.lzres g d a b) (fun s => sends s ∧ s.me.reply (ask s) = some r)
      (fun s => s.deliver d (BitVec.ofNat 64 (leNat r.bytes)) 4)) ∧
    (∀ r : Reply, r.status ≠ 0 → Raises (.lzres g d a b) (fun s => sends s ∧ s.me.reply (ask s) = some r) cPROT
      (fun s => addrInfo 2 (A s).toNat)) ∧
    Raises (.lzres g d a b) (fun s => s.isS = false ∧ ¬ target s) cSTRUCT (fun s => s.opInfo 13) ∧
    Completes (.lzarm g z a x) (fun s => (A s).toNat < 2 ^ 56 ∧ (zone s z.toNat).valid = true ∧ ¬ armed s)
      (fun s => s.setMyCore (s.myCore.arm x.toNat z.toNat (A s).toNat)) ∧
    Raises (.lzarm g z a x) (fun s => 2 ^ 56 ≤ (A s).toNat) cSTRUCT (fun s => s.opInfo 13) ∧
    Raises (.lzarm g z a x) (fun s => (A s).toNat < 2 ^ 56 ∧ (zone s z.toNat).valid = true ∧ armed s) cSTRUCT
      (fun s => s.opInfo 14) ∧
    Completes (.lzrel g a n) (fun s => onSlot s ∧ (slot s).state = 3)
      (fun s => (s.setMyCore (s.myCore.setZone n.toNat ((zone s n.toNat).setSlot (A s).toNat
        { slot s with state := 0 }))).grantWaiting s.cur.core n.toNat) ∧
    Raises (.lzrel g a n) (fun s => onSlot s ∧ (slot s).state ≠ 3) cSTRUCT (fun s => s.opInfo 14) ∧
    Completes (.lzstat g d a n) onSlot (fun s => s.deliver d (slot s).status 4) ∧
    (∀ i ∈ [Instr.lzrel g a n, .lzstat g d a n],
      Raises i (fun s => n.toNat < 4 ∧ (zone s n.toNat).valid = true ∧ (zone s n.toNat).count ≤ (A s).toNat) cSTRUCT
        (fun s => s.opInfo 13)) ∧
    Completes (.lzclean g n) (fun s => n.toNat < 4 ∧ (zone s n.toNat).valid = true ∧ (zone s n.toNat).torn = false)
      (fun s => s) ∧
    Blocks (.lzclean g n) (fun s => n.toNat < 4 ∧ (zone s n.toNat).valid = true ∧ (zone s n.toNat).torn = true)
      (fun s => [.cond s.cur.slot (condClean + n.toNat)]) ∧
    (∀ i ∈ [Instr.lzrel g a n, .lzstat g d a n, .lzclean g n],
      Raises i (fun s => n.toNat < 4 ∧ (zone s n.toNat).valid = false) cPROT (fun _ => addrInfo 6 0) ∧
      Raises i (fun _ => 4 ≤ n.toNat) cILLENC opWord) ∧
    Raises (.lzarm g z a x) (fun s => (A s).toNat < 2 ^ 56 ∧ (zone s z.toNat).valid = false) cPROT
      (fun _ => addrInfo 6 0)

/-- On a tile of the device's own recipe pages that the group may write, with its earlier accesses performed at device scope: RDECL with a null record takes the declaration away unless a regrow is under way, and with a sound record declares the tile while the directory has room; RPIN and RUNPIN move its pin count up and down, RPIN of an ABSENT tile waiting for the regrow that then pins it, and an RPIN that has asked for one waiting for its answer; RSEAL of a declared tile takes every registered word back and seals it; RDROP, outside a holding segment, completes whatever the tile's state, and the drop is on its way to the tile's home, which drops a sealed tile that nothing pins, counts that in RGDROP, and leaves the line homes to hear of it, and does nothing to another; when it arrives is left open (log entry 106, the model's choice). A tile not declared, or a record that breaks the rules, raises RFAIL 3, a full directory RFAIL 4, a pin count at its end RFAIL 6, a record for a sealed tile RSEALW, a tile address that is no multiple of 16,384 ALIGN. -/
def Obligations.RecipeDeclarations : Prop :=
  ∀ (g : Guard) (a b : BitVec 6),
    let ea := fun s : State => (s.srcA a).toNat
    let cls := fun s : State => (s.myCore.tlbFind (ea s)).map (·.cls)
    let reaches := fun (p : Place) (s : State) => ea s % 16384 = 0 ∧ inWindow (ea s) = false ∧ inAperture (ea s) = false ∧
      ea s < 2 ^ 52 ∧ (cls s = none ∨ cls s = some clsRecipe) ∧ s.translate s.who (ea s) .write = .ok p ∧
      s.isRemote p.pa = false ∧ s.refusedBy s.dev.node.toNat s.myCore.asid p.key [1] = none
    let starts := fun (p : Place) (s : State) => reaches p s ∧ Settled 2 s
    let answered := fun (r : Recipe) (p : Place) (y : Reply) (s : State) =>
      starts p s ∧ s.recipe p.key = some r ∧ s.me.reply (.pin s.cur.slot r.tile r.va) = some y
    let pinsNow := fun (r : Recipe) (p : Place) (s : State) =>
      starts p s ∧ s.recipe p.key = some r ∧ s.me.reply (.pin s.cur.slot r.tile r.va) = none ∧
      (.pin s.cur.slot r.tile r.va ∉ s.me.asked)
    let fails := fun (kind : Nat) (p : Place) (_ : State) => regrowInfo kind 0 p.va 0
    let rb := fun s : State => (s.srcB b).toNat
    let record := fun (p : Place) (rc : List Byte) (s : State) => starts p s ∧ rb s ≠ 0 ∧ rb s % 128 = 0 ∧
      s.devRead (rb s) 128 = .ok rc
    (∀ p : Place,
      Completes (.rdecl g a b) (fun s => starts p s ∧ rb s = 0) (fun s => s.undeclare p.key) ∧
      (∀ rc : List Byte,
        Completes (.rdecl g a b)
          (fun s => record p rc s ∧ s.recipe p.key = none ∧ recOk rc p.va = true ∧
            s.directoryUsed (homeDie p.key) < 16384)
          (fun s =>
            let u := s.engDone s.opAgent
            u.setDev { u.dev with recipes := s.dev.recipes ++
              [⟨p.key, p.va, rc, .declared, 0, s.myCore.asid, 0, [], none, 0, [], [], []⟩] }) ∧
        (∀ r : Recipe, r.st = .declared → Completes (.rdecl g a b)
          (fun s => record p rc s ∧ s.recipe p.key = some r ∧ recOk rc p.va = true)
          (fun s => (s.engDone s.opAgent).setRecipe { r with va := p.va, rc := rc, asid := s.myCore.asid })) ∧
        Raises (.rdecl g a b) (fun s => record p rc s ∧ s.recipe p.key = none ∧ recOk rc p.va = false) cRFAIL (fails 3 p) ∧
        Raises (.rdecl g a b) (fun s => record p rc s ∧ s.recipe p.key = none ∧ recOk rc p.va = true ∧
          16384 ≤ s.directoryUsed (homeDie p.key)) cRFAIL (fails 4 p)) ∧
      (∀ r : Recipe,
        Completes (.rpin g a) (fun s => pinsNow r p s ∧ r.pins ≠ 65535 ∧ r.st ≠ .absent)
          (fun s => s.setRecipe { r with pins := r.pins + 1 }) ∧
        Blocks (.rpin g a) (fun s => pinsNow r p s ∧ r.pins ≠ 65535 ∧ r.st = .absent)
          (fun s => [.pin s.cur.slot r.tile r.va]) ∧
        Blocks (.rpin g a) (fun s => starts p s ∧ s.recipe p.key = some r ∧
          s.me.reply (.pin s.cur.slot r.tile r.va) = none ∧ .pin s.cur.slot r.tile r.va ∈ s.me.asked)
          (fun s => [.pin s.cur.slot r.tile r.va]) ∧
        Raises (.rpin g a) (fun s => pinsNow r p s ∧ r.pins = 65535) cRFAIL (fails 6 p) ∧
        (∀ y : Reply,
          Completes (.rpin g a) (fun s => answered r p y s ∧ y.status = 0) (fun s => s) ∧
          (y.status ≠ 0 → Raises (.rpin g a) (answered r p y) (BitVec.ofNat 8 y.status)
            (fun _ => BitVec.ofNat 64 (leNat y.bytes)))) ∧
        Completes (.runpin g a) (fun s => starts p s ∧ s.recipe p.key = some r ∧ r.pins ≠ 0)
          (fun s => s.setRecipe { r with pins := r.pins - 1 }) ∧
        Raises (.runpin g a) (fun s => starts p s ∧ s.recipe p.key = some r ∧ r.pins = 0) cRFAIL (fails 6 p) ∧
        Completes (.rseal g a) (fun s => starts p s ∧ s.recipe p.key = some r ∧ r.st ≠ .declared) (fun s => s) ∧
        (∀ u : State, Completes (.rseal g a)
          (fun s => starts p s ∧ s.recipe p.key = some r ∧ r.st = .declared ∧ s.revokeTile p.key = .ok u)
          (fun _ => (u.engDone u.opAgent).setRecipe { r with st := .sealed })) ∧
        (r.st ≠ .declared → Raises (.rdecl g a b)
          (fun s => starts p s ∧ rb s ≠ 0 ∧ rb s % 128 = 0 ∧ s.recipe p.key = some r) cRSEALW
          (fun _ => BitVec.ofNat 64 (p.va % 2 ^ 52)))) ∧
      Completes (.rdrop g a) (fun s => reaches p s ∧ s.me.seg.holds = false)
        (fun s => s.setDev { s.dev with drops := s.dev.drops ++ [p.key] }) ∧
      ∀ i ∈ [Instr.rpin g a, .runpin g a, .rseal g a],
        Raises i (fun s => starts p s ∧ s.recipe p.key = none) cRFAIL (fails 3 p)) ∧
    (∀ (s : State) (n : Nat) (r : Recipe), s.recipe n = some r →
      let t := s.dropAtHome n
      let falls := fun u : State => (Map.get {} u.dev.asids r.asid).rgdrop
      (r.st = .sealed ∧ r.pins = 0 → t.recipe n = some { r with st := .absent, late := (List.range 128).map (n / 128 + ·) } ∧
        falls t = falls s + 1) ∧
      (¬ (r.st = .sealed ∧ r.pins = 0) → t = s)) ∧
    ∀ i ∈ [Instr.rdecl g a b, .rpin g a, .runpin g a, .rseal g a, .rdrop g a],
      Raises i (fun s => ea s % 16384 ≠ 0) cALIGN (fun s => BitVec.ofNat 64 (ea s % 2 ^ 52))

/-- In handler mode, outside ctxS, at an address that is a multiple of 4,096 and no window, with the earlier accesses performed at device scope: SNAPST of a full buffer writes its 4,096 bytes and then completes; SNAPLD of an image that was taken by this context, or pre-empted from this core, completes with the image in the buffer and SV and MASK set, and with the vector part restored where there is one. An empty buffer raises TRETF 1, an image that does not fit SNAPFIT with its reason, a wrong address ALIGN, and an op outside handler mode PRIV. TLBINV of the core's own ASID, with the earlier accesses performed at device scope, or at system scope for kind 2, blocks on its request until it is answered, and then completes. The request drops the named entries from every TLB at once, and keeps with it the accesses and the packet fills that were outstanding through an entry that it drops, and for kind 2 the other devices; it is answered once none of them is outstanding. That an access counts by the pages it lies in is the model's reading (log entry 71), and so is the set of devices asked (log entry 84). An address of kind 0 at 2^52 or above raises DATAF 3 (R298), a foreign ASID PRIV, and a kind above 2 or a named address for kinds 1 and 2 ILLENC. -/
def Obligations.SnapshotsAndTranslations : Prop :=
  (∀ (g : Guard) (a : BitVec 6),
    let ea := fun s : State => (s.srcA a).toNat
    let may := fun s : State => s.isS = false ∧ s.me.h = true ∧ ea s % 4096 = 0 ∧ inWindow (ea s) = false ∧
      inAperture (ea s) = false
    let word := fun (bs : List Byte) (j : Nat) => leNat ((bs.drop (8 * j)).take 8)
    let reads := fun (bs : List Byte) (s : State) => may s ∧ (∃ ps, s.linePlaces (ea s) 4096 .read = .ok ps) ∧
      s.waitPerformed 2 = none ∧ s.devRead (ea s) 4096 = .ok bs ∧ bs.length = 4096
    let stores := fun s : State => may s ∧ (∃ ps, s.storeParts (ea s) (scalarBytes s.me.snap) = .ok ps) ∧ Settled 2 s
    (∀ u : State, Completes (.snapst g a)
      (fun s => stores s ∧ s.me.sv = true ∧ s.devWrite (ea s) (scalarBytes s.me.snap) .done = .done u) (fun _ => u)) ∧
    Raises (.snapst g a) (fun s => stores s ∧ s.me.sv = false) cTRETF (fun s => s.opInfo 1) ∧
    (∀ bs : List Byte,
      Completes (.snapld g a)
        (fun s => reads bs s ∧ word bs 0 % 2 ^ 16 = s.myCore.asid ∧ word bs 0 / 2 ^ 16 % 2 = 0 ∧
          word bs 0 / 2 ^ 22 % 1024 = s.cur.core ∧ word bs 0 / 2 ^ 19 % 8 = s.cur.ctx)
        (fun s => (s.engDone s.opAgent).setMe { s.me with snap := imageOfBytes bs, sv := true, mask := true }) ∧
      (∀ vs : List Byte, Completes (.snapld g a)
        (fun s => reads bs s ∧ word bs 0 % 2 ^ 16 = s.myCore.asid ∧ word bs 0 / 2 ^ 16 % 2 = 1 ∧
          word bs 0 / 2 ^ 22 % 1024 = s.cur.core ∧ s.devRead (ea s + 0x1000) 0x1E400 = .ok vs)
        (fun s => (s.engDone s.opAgent).setMe { s.me with
          snap := imageOfBytes bs, sv := true, mask := true, regs := regsOfVector vs s.regs })) ∧
      Raises (.snapld g a) (fun s => reads bs s ∧ word bs 0 % 2 ^ 16 ≠ s.myCore.asid) cSNAPFIT (fun s => s.opInfo 7) ∧
      Raises (.snapld g a) (fun s => reads bs s ∧ word bs 0 % 2 ^ 16 = s.myCore.asid ∧ word bs 0 / 2 ^ 16 % 2 = 0 ∧
        ¬ (word bs 0 / 2 ^ 22 % 1024 = s.cur.core ∧ word bs 0 / 2 ^ 19 % 8 = s.cur.ctx)) cSNAPFIT (fun s => s.opInfo 6)) ∧
    ∀ i ∈ [Instr.snapst g a, .snapld g a],
      Raises i (fun s => s.isS = true ∨ s.me.h = false) cPRIV opWord ∧
      Raises i (fun s => s.isS = false ∧ s.me.h = true ∧ ea s % 4096 ≠ 0) cALIGN
        (fun s => BitVec.ofNat 64 (ea s % 2 ^ 52))) ∧
  (∀ (g : Guard) (a b : BitVec 6) (k : BitVec 3),
    let va := fun s : State => (s.srcA a).toNat
    let own := fun s : State => (s.srcB b).toNat % 2 ^ 16 = s.myCore.asid
    let form := k.toNat < 3 ∧ (k ≠ 0 → a = 0)
    let ready := fun s : State => own s ∧ (k = 0 → va s < 2 ^ 52) ∧ Settled (if k = 2 then 3 else 2) s ∧ (k = 2 → s.storeFailure 0xFFFF = none)
    let ask := fun s : State => Wait.tlbinv s.cur.slot k (if k = 0 then va s else 0)
    (form → Blocks (.tlbinv g a b k) (fun s => ready s ∧ s.me.reply (ask s) = none) (fun s => [ask s])) ∧
    (form → ∀ r : Reply, Completes (.tlbinv g a b k) (fun s => ready s ∧ s.me.reply (ask s) = some r) (fun s => s)) ∧
    (form → Raises (.tlbinv g a b k) (fun s => ¬ own s) cPRIV opWord) ∧
    (k = 0 → Raises (.tlbinv g a b k) (fun s => own s ∧ 2 ^ 52 ≤ va s) cDATAF (fun s => addrInfo 3 (va s))) ∧
    (¬ form → Raises (.tlbinv g a b k) always cILLENC opWord) ∧
    (∀ (s : State) (w : Who) (slot v c : Nat) (e : TlbEntry),
      let asid := (s.core w.core).asid
      let named := e.asid = asid ∧ (k ≠ 0 ∨ inWindow v = false ∧ inAperture v = false ∧ e.covers asid v = true)
      let t := s.startWait w (.tlbinv slot k v)
      (e ∈ (t.core c).tlb ↔ e ∈ (s.core c).tlb ∧ ¬ named) ∧
      (e ∈ (s.core c).tlb → named → (s.core c).asid = asid → ∀ x, ∀ y ∈ ((s.core c).ctx x).acc, overlaps y.lo y.hi
        (e.va / 2 ^ pageBits e.level * 2 ^ pageBits e.level) (e.va / 2 ^ pageBits e.level * 2 ^ pageBits e.level + 2 ^ pageBits e.level) = true →
        (⟨c, x⟩, y.seq) ∈ (t.dropWait w slot).accs)) ∧
    ∀ (s : State) (w : Who) (t : TlbWait) (v : Nat),
      s.dev.tlbWaits.find? (fun t => decide (t.who = w) && s.dropDone t) = some t → Wait.tlbinv t.slot k v ∈ (s.ctx w).asked →
      (s.settleDrop w).answered w (.tlbinv t.slot k v) [] 0)

/-- PACQ of a free plane that no other context has waited for since its release completes: the plane is zero, at home, of the given accumulator kind and held by the context; it blocks while the plane is taken, and by the holder raises PLANEF 2. PREL by the holder releases the plane, discards PSAT and lets the contexts that wait for the plane come first, and by another context raises PLANEF 1. PWIN of a 23-bit value sets PG and PFSET of a sound program a feed register, from the next bundle on; another value raises PLANEF 9. In ctxS all four raise ILLENC. PLOAD of a free, unpoisoned tile of the accumulator's format within the extent, with the plane free, completes: the context holds the plane, each lane that the tile covers holds its element, and every other lane is 0. PRET by the holder into a free tile within the extent completes: the tile's elements are those of the plane's lanes, scaled where a scale is named and rounded under RMODE, waiting to be written, the register is busy and the plane is released, with PSAT as it was. A tile that does not fit raises PLANEF 7. -/
def Obligations.PlaneInAndOut : Prop :=
  (∀ (g : Guard) (c : BitVec 1) (a b : BitVec 6) (f : BitVec 3),
    let x := fun s : State => (s.srcA a).toNat
    let may := fun s : State => s.isS = false ∧ s.holdsPlane = false ∧ (s.myCore.depth = 0 ∨ s.isRegrow = true)
    Completes (.pacq g c) (fun s => may s ∧ s.planeTaken = false)
      (fun s => s.setPlane { fp := decide (c = 1), holder := some s.cur.ctx }) ∧
    Blocks (.pacq g c) (fun s => may s ∧ s.planeTaken = true) (fun s => [.cond s.cur.slot condPlane]) ∧
    Raises (.pacq g c) (fun s => s.isS = false ∧ s.holdsPlane = true) cPLANEF (fun s => s.opInfo 2) ∧
    Raises (.pacq g c) (fun s => s.isS = false ∧ s.holdsPlane = false ∧ s.myCore.depth ≠ 0 ∧ s.isRegrow = false) cPLANEF
      (fun s => s.opInfo 10) ∧
    Completes (.prel g) (fun s => s.isS = false ∧ s.holdsPlane = true)
      (fun s => s.setPlane { s.myCore.plane with holder := none, sat := false, halted := false, waiters := s.myCore.planeWaiters }) ∧
    Raises (.prel g) (fun s => s.isS = false ∧ s.holdsPlane = false) cPLANEF (fun s => s.opInfo 1) ∧
    Completes (.pwin g a) (fun s => s.isS = false ∧ x s < 2 ^ 23) (fun s => s.writeLate 0x080 (s.srcA a)) ∧
    Raises (.pwin g a) (fun s => s.isS = false ∧ 2 ^ 23 ≤ x s) cPLANEF (fun s => s.opInfo 9) ∧
    Completes (.pfset g f a b) (fun s => s.isS = false ∧ x s < 2 ^ 60) (fun s => s.setCur { s.cur with
      feeds := s.cur.feeds ++
        [(f.toNat, ⟨BitVec.ofNat 52 (x s % 2 ^ 36), BitVec.ofNat 24 (x s / 2 ^ 36), s.srcB b⟩)] }) ∧
    Raises (.pfset g f a b) (fun s => s.isS = false ∧ 2 ^ 60 ≤ x s) cPLANEF (fun s => s.opInfo 9) ∧
    ∀ i ∈ [Instr.pacq g c, .prel g, .pwin g a, .pfset g f a b], Raises i inS cILLENC opWord) ∧
  (∀ (g : Guard) (t : BitVec 5) (h c o : BitVec 1) (a : BitVec 6),
    let D := fun s : State => (s.tile t.toNat).desc
    let husk := decide (h = 1)
    let off : Int := if h = 1 then -8 else 0
    let want : Fmt := if c = 1 then .flt fp32 else .int 32 true
    let may := fun s : State => s.isS = false ∧ s.holdsPlane = false ∧ (s.myCore.depth = 0 ∨ s.isRegrow = true)
    let loads := fun s : State => may s ∧ planeTileOk (D s) husk = true ∧ descFmt (D s) = want
    let ready := fun s : State => s.planeTaken = false ∧ s.tileWaits t.toNat false = false ∧ (s.tile t.toNat).poison = 0 ∧
      s.tileConsumes t.toNat (fun _ => [(0, descData (D s))]) = none
    let rets := fun s : State => s.isS = false ∧ s.holdsPlane = true ∧ planeTileOk (D s) husk = true ∧
      descFmt (D s) ≠ .tern ∧ s.tileWaits t.toNat true = false
    let lanes := fun s : State => descD0 (D s)
    let rows := fun s : State => descD1 (D s)
    let scale := fun s : State => if a = 0 then none
      else some (rneFp32 (Val.mul (fp32.read ((s.srcA a).toNat % 2 ^ 32)) (fp32.read ((s.srcA a).toNat / 2 ^ 32))).1).1
    let elem := fun (s : State) (i : Nat) (u : Word) =>
      let p := s.myCore.plane
      retireElem p.fp ((scale s).map fp32.read) (descFmt (D s)) (descCode (D s)) (decide (o = 1)) s.rmodeNow u
        (p.acc (((i / lanes s / rows s : Nat) : Int) + off + p.dy) (((i / lanes s % rows s : Nat) : Int) + off + p.dx)
          (i % lanes s))
    Completes (.pload g t h c) (fun s => loads s ∧ ready s) (fun s =>
      s.setPlane { fp := decide (c = 1), holder := some s.cur.ctx,
                   cells := updateKeys (fun key _ => BitVec.ofNat 32
                     (((s.viewTile (D s)).elem (keyRow key - off) (keyCol key - off) (keyLane key)).getD 0))
                     (blockKeys off (off + descD2 (D s)) off (off + descD1 (D s))) [] }) ∧
    Blocks (.pload g t h c) (fun s => loads s ∧ s.planeTaken = true) (fun s => [.cond s.cur.slot condPlane]) ∧
    Raises (.pload g t h c) (fun s => may s ∧ ¬ loads s) cPLANEF (fun s => s.opInfo 7) ∧
    (∀ s : State, s.opRuns (.pret g t h a o) = true → rets s →
      ∃ (u : State) (q : Retire), exec (.pret g t h a o) s = .next (s.afterOp (.pret g t h a o) (.done u)) ∧
        u.myCore.plane = { s.myCore.plane with holder := none, halted := false, waiters := s.myCore.planeWaiters } ∧ q ∈ u.myCore.retires ∧
        q.ctx = s.cur.ctx ∧ q.reg = t.toNat ∧ q.off = descOff (D s) ∧ q.todo = [(0, descData (D s))].filter (fun r => decide (r.2 ≠ 0)) ∧
        q.bytes = leBytes (descData (D s)) (packElems (descFmt (D s))
          (eachElem (elem s) (descD2 (D s) * rows s * lanes s) 0 s.cur.lfsr).1) ∧
        .tileWriteComplete s.cur.core q.key ∈ u.pending ∧ u.mem = s.mem ∧ u.regs = s.regs) ∧
    Raises (.pret g t h a o) (fun s => s.isS = false ∧ s.holdsPlane = true ∧
      (planeTileOk (D s) husk = false ∨ descFmt (D s) = .tern)) cPLANEF (fun s => s.opInfo 7))

/-- PSHIFT by the holder with a code up to 10 whose move keeps the displacement in range and every non-zero lane in the extent completes, and each lane's value stands where the move takes it, with the displacement and the walk position moved on; code 10 returns the plane home. A lane that would leave raises PLANEF 3, and a displacement out of range PLANEF 4. The handler of a trap that the holder took shifts too: R165 and R347 stop steps alone. PSTEP and PSTEPS by the holder, outside the handler of a trap that it took as the holder, of tiles that are free, unpoisoned and reachable, of formats and scales that the plane's kind admits, within the step limit and with a shift that stays in the extent, complete: the plane moves, each home cell gains the step's products, the step count rises by 1, or 8 with a remote first tile, both feed registers advance and, with the last mark, the block count rises. A step beyond the limit raises PLANEF 5, a tile of a core not bound to the launch PLANEF 8, formats that do not fit PLANEF 6, and a sparse step on a tile without metadata PLANEF 12. In the handler of a trap that its context took as the holder a step blocks, which is the model's reading (log entry 83). -/
def Obligations.PlaneMoves : Prop :=
  (∀ (g : Guard) (sh : BitVec 4),
    let p := fun s : State => s.myCore.plane
    let may := fun s : State => s.isS = false ∧ s.holdsPlane = true ∧ sh.toNat ≤ 10
    let moved := fun (my mx : Int) (w : Nat) (s : State) => may s ∧ shiftMove s.regs.pg (p s) sh = some (my, mx, w)
    let leaves := fun (my mx : Int) (c : Nat × Word) => inExtent (keyRow c.1 + my) (keyCol c.1 + mx) = false
    (∀ (my mx : Int) (w : Nat),
      Completes (.pshift g sh)
        (fun s => moved my mx w s ∧ (∀ c ∈ (p s).cells, (p s).nonZero c.2 = true → ¬ leaves my mx c) ∧
          -128 ≤ (p s).dy + my ∧ (p s).dy + my ≤ 127 ∧ -128 ≤ (p s).dx + mx ∧ (p s).dx + mx ≤ 127)
        (fun s => s.setPlane { p s with
          cells := ((p s).cells.filter fun c => inExtent (keyRow c.1 + my) (keyCol c.1 + mx)).map fun c =>
            (cellKey (keyRow c.1 + my) (keyCol c.1 + mx) (keyLane c.1), c.2),
          dy := (p s).dy + my, dx := (p s).dx + mx, walk := w }) ∧
      Raises (.pshift g sh)
        (fun s => moved my mx w s ∧ (∀ c ∈ (p s).cells, (p s).nonZero c.2 = true → ¬ leaves my mx c) ∧
          ¬ (-128 ≤ (p s).dy + my ∧ (p s).dy + my ≤ 127 ∧ -128 ≤ (p s).dx + mx ∧ (p s).dx + mx ≤ 127))
        cPLANEF (fun s => s.opInfo 4) ∧
      ∀ s : State, s.opRuns (.pshift g sh) = true → s.cur.slot < 11 → moved my mx w s →
        (∃ c ∈ (p s).cells, (p s).nonZero c.2 = true ∧ leaves my mx c) →
        ∃ info, exec (.pshift g sh) s = .next (s.afterOp (.pshift g sh) (.trap cPLANEF info)) ∧
          info.toNat / 2 ^ 36 % 16 = 3) ∧
    (∀ s : State, shiftMove s.regs.pg (p s) 10 = some (-(p s).dy, -(p s).dx, 0)) ∧
    (∀ s : State, shiftMove s.regs.pg (p s) 0 = some (0, 0, (p s).walk)) ∧
    Raises (.pshift g sh) (fun _ => 10 < sh.toNat) cILLENC opWord ∧
    Raises (.pshift g sh) (fun s => sh.toNat ≤ 10 ∧ s.isS = false ∧ s.holdsPlane = false) cPLANEF (fun s => s.opInfo 1)) ∧
  (∀ (g : Guard) (a b : BitVec 5) (x y : BitVec 3) (sh : BitVec 4) (l : BitVec 1),
    let A := fun s : State => (s.tile a.toNat).desc
    let B := fun s : State => (s.tile b.toNat).desc
    let fa := fun s : State => Map.get {} s.regs.feed x.toNat
    let fb := fun s : State => Map.get {} s.regs.feed y.toNat
    let bound := fun (s : State) (d : Dword) =>
      descRemote d = true → (s.core (s.tileCore d)).boundTo s.myCore.binding.launch = true
    let weight := fun s : State => if descRemote (A s) = true then 8 else 1
    let free := fun s : State => sh.toNat ≤ 10 ∧ s.isS = false ∧ s.holdsPlane = true ∧
      ¬ (s.me.h = true ∧ s.myCore.plane.halted = true) ∧
      s.tileWaits a.toNat false = false ∧ s.tileWaits b.toNat false = false ∧
      (s.tile a.toNat).poison = 0 ∧ (s.tile b.toNat).poison = 0
    let pair := fun (fp : Bool) (n : Nat) (s : State) => free s ∧ pairOf (descFmt (A s)) (descFmt (B s)) = some (fp, n) ∧
      fp = s.myCore.plane.fp ∧ (descScales (A s) = true → descAxis (A s) = false) ∧
      (descScales (B s) = true → descAxis (B s) = true)
    let sound := fun (sp : Bool) (n : Nat) (s : State) =>
      sp = true → descMeta (B s) = true ∧ (fb s).c % 4 = 0 ∧ n ≠ 8
    let near := fun s : State => bound s (A s) ∧ bound s (B s)
    let clean := fun (sp : Bool) (n : Nat) (s : State) =>
      s.tileConsumes a.toNat (fun _ => sheetBytes s.regs.pg (s.viewTile (A s)) (fa s) (if sp then 2 * n else n)) = none ∧
      s.tileConsumes b.toNat (fun _ => (List.range 16).flatMap (weightBytes (s.viewTile (B s)) (fb s) sp n)) = none
    let ask := fun (s : State) (q : Plane) (d : Dword) => if descRemote d = true then
      [Instr.remoteOperandRequest (s.tileCore d) (descOff d) (descOff d + descSize d) q.blocks.toNat] else []
    let means := fun (i : Instr) (sp : Bool) =>
      (∀ (fp : Bool) (n : Nat) (my mx : Int) (w : Nat) (q : Plane), Completes i
        (fun s => pair fp n s ∧ sound sp n s ∧ near s ∧ s.myCore.plane.stepc + weight s ≤ s.myCore.binding.pmax ∧
          shiftMove s.regs.pg s.myCore.plane sh = some (my, mx, w) ∧ s.myCore.plane.move my mx w = .ok q ∧ clean sp n s)
        (fun s =>
          let r := multiply q s.regs.pg (fa s) (fb s) (s.viewTile (A s)) (s.viewTile (B s)) fp sp n
          let f := Map.put {} s.regs.feed x.toNat (fa s).advance
          let f := if x = y then f else Map.put {} f y.toNat (fb s).advance
          let u := (s.setMyCore (s.myCore.countStep (weight s))).setPlane { q with
            cells := r.1, sat := q.sat || r.2, stepc := q.stepc + weight s,
            blocks := if l = 1 then q.blocks + 1 else q.blocks }
          (u.setRegs { u.regs with feed := f }).postAll (ask s q (A s) ++ ask s q (B s)))) ∧
      Blocks i (fun s => sh.toNat ≤ 10 ∧ s.isS = false ∧ s.holdsPlane = true ∧ s.me.h = true ∧ s.myCore.plane.halted = true)
        (fun s => [.cond s.cur.slot condPlane]) ∧
      (∀ (fp : Bool) (n : Nat), Raises i (fun s => pair fp n s ∧ sound sp n s ∧ near s ∧
        s.myCore.binding.pmax < s.myCore.plane.stepc + weight s) cPLANEF (fun s => s.opInfo 5)) ∧
      (∀ (fp : Bool) (n : Nat), Raises i (fun s => pair fp n s ∧ sound sp n s ∧ ¬ near s) cPLANEF (fun s => s.opInfo 8)) ∧
      (∀ (fp : Bool) (n : Nat), Raises i (fun s => pair fp n s ∧ ¬ sound sp n s) cPLANEF (fun s => s.opInfo 12)) ∧
      Raises i (fun s => free s ∧ ∀ fp n, ¬ pair fp n s) cPLANEF (fun s => s.opInfo 6) ∧
      Raises i (fun _ => 10 < sh.toNat) cILLENC opWord ∧
      Raises i (fun s => sh.toNat ≤ 10 ∧ s.isS = false ∧ s.holdsPlane = false) cPLANEF (fun s => s.opInfo 1)
    means (.pstep g a b x y sh l) false ∧ means (.psteps g a b x y sh l) true)

/-- By the holder with the plane at home: HSEND over a link that is up, to a neighbour of the launch, in its turn and once, moves the strip's lanes into the link, zeroes them and marks them sent, and the strip is on its way; HADD of the next strip in its turn adds the strip that has arrived into its lanes and marks it; HCLR zeroes the named strips and marks them passed. They raise HUSKF: 1 without a neighbour of the launch, 7 on a link that is down, 2 away from home, 5 a second time, 3 and 4 out of turn; HADD blocks until a strip is there. NLSEND of a local, free, unpoisoned tile over a link that is up, to a neighbour of the launch, outside a holding segment, completes: the tile stands last among the link's outbound streams, to be read as its bytes leave, and its read is pending. NLRECV with a stream of the tile's size arriving and the tile free completes: the tile receives the stream and its register is busy until the last byte. A remote tile raises HUSKF 9 and another size HUSKF 8; NLRECV blocks until a stream arrives. -/
def Obligations.NeighbourLinks : Prop :=
  (∀ (g : Guard) (d : BitVec 2) (m : BitVec 4),
    let p := fun s : State => s.myCore.plane
    let l := fun s : State => s.myLink d
    let held := fun s : State => s.isS = false ∧ s.holdsPlane = true
    let linked := fun s : State => held s ∧ s.boundNeighbour d = true ∧ (l s).down = false
    let home := fun s : State => linked s ∧ (p s).atHome = true
    let turn := fun s : State => (d = 1 ∨ d = 3) →
      (p s).sent 0 = true ∧ (p s).sent 2 = true ∧ (p s).in_ 0 = true ∧ (p s).in_ 2 = true
    let sends := fun s : State => home s ∧ (p s).sent d = false ∧ turn s ∧ s.me.seg.holds = false
    let adds := fun s : State => home s ∧ (p s).in_ d = false ∧ ∀ e ∈ earlierDirs d, (p s).in_ e = true
    let empty := fun s : State => s.setMyCore (s.myCore.setLink d { l s with inStrip := none })
    Completes (.hsend g d) (fun s => sends s ∧ (l s).outStrip = none) (fun s =>
      let lanes := (stripKeys d).map fun k => (Map.get 0 (p s).cells k : Word)
      let u := s.setPlane ({ p s with cells := zeroKeys (stripKeys d) (p s).cells }.mark (1#12 <<< d.toNat))
      (u.setMyCore (u.myCore.setLink d { l s with outStrip := some ⟨(p s).fp, lanes, false⟩ })).post
        (.huskStripTransfer s.cur.core d)) ∧
    Blocks (.hsend g d) (fun s => sends s ∧ (l s).outStrip ≠ none) (fun s => [.cond s.cur.slot (condLink d)]) ∧
    Raises (.hsend g d) (fun s => home s ∧ (p s).sent d = true) cHUSKF (fun s => s.huskInfo 5 d) ∧
    Raises (.hsend g d) (fun s => home s ∧ (p s).sent d = false ∧ ¬ turn s) cHUSKF (fun s => s.huskInfo 3 d) ∧
    (∀ x : Strip, Completes (.hadd g d)
      (fun s => adds s ∧ (l s).inStrip = some x ∧ x.bad = false ∧ x.fp = (p s).fp)
      (fun s => (empty s).setPlane ((addStrip (p s) (landKeys d) x.lanes).mark (1#12 <<< (4 + d.toNat))))) ∧
    Blocks (.hadd g d) (fun s => adds s ∧ (l s).inStrip = none) (fun s => [.cond s.cur.slot (condLink d)]) ∧
    Raises (.hadd g d) (fun s => home s ∧ (p s).in_ d = true) cHUSKF (fun s => s.huskInfo 5 d) ∧
    Raises (.hadd g d) (fun s => home s ∧ (p s).in_ d = false ∧ ∃ e ∈ earlierDirs d, (p s).in_ e = false) cHUSKF
      (fun s => s.huskInfo 4 d) ∧
    (∀ i ∈ [Instr.hsend g d, .hadd g d],
      Raises i (fun s => held s ∧ s.boundNeighbour d = false) cHUSKF (fun s => s.huskInfo 1 d) ∧
      Raises i (fun s => held s ∧ s.boundNeighbour d = true ∧ (l s).down = true) cHUSKF (fun s => s.huskInfo 7 d) ∧
      Raises i (fun s => linked s ∧ (p s).atHome = false) cHUSKF (fun s => s.huskInfo 2 d) ∧
      Raises i (fun s => s.isS = false ∧ s.holdsPlane = false) cPLANEF (fun s => s.opInfo 1)) ∧
    (m ≠ 0 → ∀ s : State, s.opRuns (.hclr g m) = true → Map.wf 0 (p s).cells = true → held s → (p s).atHome = true →
      (∀ e ∈ clearedDirs m, (p s).sent e = false ∧ (p s).in_ e = false) →
      ∃ q : Plane, exec (.hclr g m) s = .next (s.afterOp (.hclr g m) (.done (s.setPlane q))) ∧
        (∀ k, Map.get 0 q.cells k = if ∃ e ∈ clearedDirs m, k ∈ stripKeys e then 0 else Map.get 0 (p s).cells k) ∧
        q.holder = (p s).holder ∧
        (q.hstat ≠ 0 → ∀ e ∈ clearedDirs m, q.sent e = true ∧ q.in_ e = true)) ∧
    (m ≠ 0 → Raises (.hclr g m) (fun s => held s ∧ (p s).atHome = true ∧
      ∃ e ∈ clearedDirs m, (p s).sent e = true ∨ (p s).in_ e = true) cHUSKF
      (fun s => s.huskInfo 5 ((clearedDirs m).headD 0)))) ∧
  (∀ (g : Guard) (t : BitVec 5) (d : BitVec 2),
    let D := fun s : State => (s.tile t.toNat).desc
    let l := fun s : State => s.myLink d
    let key := fun s : State => s.myCore.nextKey
    let linked := fun s : State => s.isS = false ∧ s.boundNeighbour d = true ∧ (l s).down = false
    let local_ := fun s : State => linked s ∧ descRemote (D s) = false
    Completes (.nlsend g t d)
      (fun s => local_ s ∧ s.tileWaits t.toNat false = false ∧ (s.tile t.toNat).poison = 0 ∧ s.poisonedTile (D s) = none ∧
        s.me.seg.holds = false)
      (fun s =>
        let u := s.newKey.1.pendTile (key s) t.toNat (D s) false
        let x : Stream := ⟨descSize (D s), [], key s, descOff (D s), descSize (D s), false⟩
        (u.setMyCore (u.myCore.setLink d { l s with outStreams := (l s).outStreams ++ [x] })).postOnce
          (.nlStreamTransfer s.cur.core d)) ∧
    Blocks (.nlsend g t d) (fun s => local_ s ∧ s.tileWaits t.toNat false = true) (fun s => [.cond s.cur.slot condTile]) ∧
    (∀ (x : Stream) (y : List Stream), Completes (.nlrecv g t d)
      (fun s => local_ s ∧ (l s).recv = none ∧ (l s).inStreams = x :: y ∧ x.size = descSize (D s) ∧
        s.tileWaits t.toNat true = false)
      (fun s =>
        let u := s.newKey.1.pendTile (key s) t.toNat (D s) true
        (u.setMyCore (u.myCore.setLink d { l s with
          recv := some ⟨key s, descOff (D s), x.size, s.cur.ctx, t.toNat, false⟩ })).drainStream s.cur.core d)) ∧
    Blocks (.nlrecv g t d) (fun s => local_ s ∧ (l s).recv = none ∧ (l s).inStreams = [])
      (fun s => [.cond s.cur.slot (condLink d)]) ∧
    (∀ (x : Stream) (y : List Stream), Raises (.nlrecv g t d)
      (fun s => local_ s ∧ (l s).recv = none ∧ (l s).inStreams = x :: y ∧ x.size ≠ descSize (D s)) cHUSKF
      (fun s => s.huskInfo 8 d)) ∧
    ∀ i ∈ [Instr.nlsend g t d, .nlrecv g t d],
      Raises i inS cILLENC opWord ∧
      Raises i (fun s => s.isS = false ∧ s.boundNeighbour d = false) cHUSKF (fun s => s.huskInfo 1 d) ∧
      Raises i (fun s => linked s ∧ descRemote (D s) = true) cHUSKF (fun s => s.huskInfo 9 d))

/-- In an integer format of width w, with the registers in the window, each of VADD, VSUB, VMUL, VFMA, VFMS, VMIN, VMAX, VABS, VNEG, VSHL, VSHR, VSRA, VQADD, VQSUB and VMULH completes and delivers elements formed from the sources' elements: exactly and cut to w bits; the saturating ones clamped, with SAT where one clamps; the shifts by the low eight bits of the second element, VSHL and VSHR giving 0 from w on; VMULH the high half of the product. VIOTA gives each element its index. -/
def Obligations.VectorIntegers : Prop :=
  ∀ (g : Guard) (d a b : BitVec 7) (w : Nat) (sg : Bool),
    let X := fun (s : State) (j : Nat) => readInt w sg (s.elem (readV s.regs a) j)
    let Y := fun (s : State) (j : Nat) => readInt w sg (s.elem (readV s.regs b) j)
    let Z := fun (s : State) (j : Nat) => readInt w sg (s.elem (readV s.regs d) j)
    let x := fun (s : State) (j : Nat) => s.elem (readV s.regs a) j
    let n := fun (s : State) (j : Nat) => s.elem (readV s.regs b) j % 256
    let gives := fun (i : Instr) (vs : List (BitVec 7)) (lat : Nat) (e : State → Nat → Nat × Flags) =>
      GivesElems i d lat (fun s => vecReady vs isIF s ∧ shapeFmt s.shape = .int w sg) (fun _ => .int w sg)
        (fun s => shapeN s.shape) (fun s j _ => e s j)
    let wraps := fun (i : Instr) (lat : Nat) (e : State → Nat → Int) =>
      gives i [d, a, b] lat (fun s j => (intBits w (e s j), 0))
    let clamps := fun (i : Instr) (e : State → Nat → Int) =>
      gives i [d, a, b] 2 (fun s j => (intBits w (clampInt w sg (e s j)).1, if (clampInt w sg (e s j)).2 = true then flagSAT else 0))
    wraps (.vadd g d a b) 2 (fun s j => X s j + Y s j) ∧ wraps (.vsub g d a b) 2 (fun s j => X s j - Y s j) ∧
    wraps (.vmul g d a b) 4 (fun s j => X s j * Y s j) ∧
    wraps (.vfma g d a b) 4 (fun s j => Z s j + X s j * Y s j) ∧
    wraps (.vfms g d a b) 4 (fun s j => Z s j - X s j * Y s j) ∧
    wraps (.vmin g d a b) 2 (fun s j => min (X s j) (Y s j)) ∧ wraps (.vmax g d a b) 2 (fun s j => max (X s j) (Y s j)) ∧
    wraps (.vmulh g d a b) 4 (fun s j => X s j * Y s j / 2 ^ w) ∧
    clamps (.vqadd g d a b) (fun s j => X s j + Y s j) ∧ clamps (.vqsub g d a b) (fun s j => X s j - Y s j) ∧
    gives (.vabs g d a) [d, a] 2 (fun s j => (intBits w ((X s j).natAbs : Int), 0)) ∧
    (sg = true → gives (.vneg g d a) [d, a] 2 (fun s j => (intBits w (-X s j), 0))) ∧
    (sg = false → Raises (.vneg g d a) (fun s => shapeFmt s.shape = .int w sg) cILLENC opWord) ∧
    gives (.vshl g d a b) [d, a, b] 2 (fun s j => (if w ≤ n s j then 0 else x s j * 2 ^ n s j % 2 ^ w, 0)) ∧
    gives (.vshr g d a b) [d, a, b] 2 (fun s j => (if w ≤ n s j then 0 else x s j / 2 ^ n s j, 0)) ∧
    gives (.vsra g d a b) [d, a, b] 2 (fun s j => (intBits w (readInt w true (x s j) / 2 ^ min (n s j) w), 0)) ∧
    gives (.viota g d) [d] 2 (fun _ j => (intBits w (j : Int), 0))

/-- In a floating format, with the registers in the window, VADD, VSUB, VMUL, VFMA, VFMS and VSCL complete and deliver, element by element, the exact value of the sources' elements rounded once under RMODE with overflow as an overflow, with the flags of both; a NaN destination of VFMA and VFMS, and a scale of 255 in VSCL, give the canonical NaN without flags. VMIN, VMAX, VABS and VNEG deliver exact results and set no flags. VIOTA gives each element its index, rounded. -/
def Obligations.VectorFloats : Prop :=
  ∀ (g : Guard) (d a b : BitVec 7) (f : FltFmt),
    let X := fun (s : State) (j : Nat) => f.read (s.elem (readV s.regs a) j)
    let Y := fun (s : State) (j : Nat) => f.read (s.elem (readV s.regs b) j)
    let Z := fun (s : State) (j : Nat) => f.read (s.elem (readV s.regs d) j)
    let round := fun (s : State) (u : Word) (v : Val × Flags) =>
      let r := f.round .ovf s.rmodeNow u (shapeCode s.shape) v.1
      (r.1, v.2 ||| r.2)
    let gives := fun (i : Instr) (vs : List (BitVec 7)) (lat : Nat) (e : State → Nat → Word → Nat × Flags) =>
      GivesElems i d lat (fun s => vecReady vs isIF s ∧ shapeFmt s.shape = .flt f) (fun _ => .flt f)
        (fun s => shapeN s.shape) e
    let down := fun s : State => decide (s.rmodeNow = modeRDN)
    let fused := fun (s : State) (j : Nat) (u : Word) (p : Val × Flags) => if Z s j = .nan then (f.nanBits, (0 : Flags))
      else round s u ((Val.add (down s) (Z s j) p.1).1, p.2 ||| (Val.add (down s) (Z s j) p.1).2)
    gives (.vadd g d a b) [d, a, b] 2 (fun s j u => round s u (Val.add (down s) (X s j) (Y s j))) ∧
    gives (.vsub g d a b) [d, a, b] 2 (fun s j u => round s u (Val.add (down s) (X s j) (Y s j).neg)) ∧
    gives (.vmul g d a b) [d, a, b] 4 (fun s j u => round s u (Val.mul (X s j) (Y s j))) ∧
    gives (.vfma g d a b) [d, a, b] 4 (fun s j u => fused s j u (Val.mul (X s j) (Y s j))) ∧
    gives (.vfms g d a b) [d, a, b] 4 (fun s j u =>
      fused s j u ((Val.mul (X s j) (Y s j)).1.neg, (Val.mul (X s j) (Y s j)).2)) ∧
    gives (.vmin g d a b) [d, a, b] 2 (fun s j u => ((round s u (Val.min (X s j) (Y s j), 0)).1, 0)) ∧
    gives (.vmax g d a b) [d, a, b] 2 (fun s j u => ((round s u (Val.max (X s j) (Y s j), 0)).1, 0)) ∧
    gives (.vabs g d a) [d, a] 2 (fun s j u => ((round s u ((X s j).abs, 0)).1, 0)) ∧
    (f.signed = true → gives (.vneg g d a) [d, a] 2 (fun s j u => ((round s u ((X s j).neg, 0)).1, 0))) ∧
    gives (.viota g d) [d] 2 (fun s j u => round s u (.ofInt (j : Int), 0)) ∧
    gives (.vscl g d a b) [d, a, b] 4 (fun s j u =>
      let n := shapeCols s.shape
      let e := (readV s.regs b).toNat / 256 ^ (j / n * ((n + 31) / 32) + j % n / 32) % 256
      if e = 255 then (f.nanBits, 0) else round s u (Val.mul (X s j) (.fin false 1 ((e : Int) - 127))))

/-- With the registers in the window, VAND, VOR, VXOR, VSEL and VMOV complete in every format and deliver the bytes below Sz, zero above; VCEQ, VCLT and VCLE in integer and floating formats, and VCLTU in integer formats, deliver all ones where the compare holds and zero elsewhere; VBC fills every element with the low bits of its scalar; all after two context-cycles. With the registers in the window and an integer or floating format of R rows and C columns, VROWSH, VCOLSH and VESH deliver the source moved down, right or along by the signed immediate with zeros moved in; VROT the source with its rows rotated; VTRN, after four context-cycles, the transpose. -/
def Obligations.VectorBitsAndMoves : Prop :=
  (∀ (g : Guard) (d a b : BitVec 7) (c : BitVec 6),
    let X := fun s : State => readV s.regs a
    let Y := fun s : State => readV s.regs b
    let M := fun s : State => readV s.regs d
    let F := fun s : State => shapeFmt s.shape
    let bytes := fun (i : Instr) (vs : List (BitVec 7)) (v : State → VReg) => Completes i (vecReady vs anyFmt)
      (fun s => s.deliverV d (BitVec.ofNat 8192 ((v s).toNat % 256 ^ shapeSz s.shape)) 2 0 (some (s.cur.slot - 5)))
    let cmp := fun (i : Instr) (ok : Fmt → Bool) (t : Fmt → Nat → Nat → Bool) =>
      GivesElems i d 2 (vecReady [d, a, b] ok) F (fun s => shapeN s.shape)
        (fun s j _ => (if t (F s) (s.elem (X s) j) (s.elem (Y s) j) = true then 2 ^ (F s).width - 1 else 0, 0))
    bytes (.vand g d a b) [d, a, b] (fun s => X s &&& Y s) ∧ bytes (.vor g d a b) [d, a, b] (fun s => X s ||| Y s) ∧
    bytes (.vxor g d a b) [d, a, b] (fun s => X s ^^^ Y s) ∧
    bytes (.vsel g d a b) [d, a, b] (fun s => (X s &&& M s) ||| (Y s &&& ~~~(M s))) ∧
    bytes (.vmov g d a) [d, a] X ∧
    cmp (.vceq g d a b) isIF (fun f x y => (f.read x).eq (f.read y)) ∧
    cmp (.vclt g d a b) isIF (fun f x y => (f.read x).lt false (f.read y)) ∧
    cmp (.vcle g d a b) isIF (fun f x y => (f.read x).lt false (f.read y) || (f.read x).eq (f.read y)) ∧
    cmp (.vcltu g d a b) isI (fun _ x y => decide (x < y)) ∧
    GivesElems (.vbc g d c) d 2 (vecReady [d] isIF) F (fun s => shapeN s.shape)
      (fun s _ _ => ((s.srcA c).toNat % 2 ^ (F s).width, 0))) ∧
  (∀ (g : Guard) (d a : BitVec 7) (i : BitVec 7),
    let C := fun s : State => shapeCols s.shape
    let R := fun s : State => shapeRows s.shape
    let at_ := fun (s : State) (r c : Int) =>
      if 0 ≤ r ∧ r < R s ∧ 0 ≤ c ∧ c < C s then s.elem (readV s.regs a) (r.toNat * C s + c.toNat) else 0
    let moves := fun (j : Instr) (lat : Nat) (e : State → Nat → Nat) =>
      GivesElems j d lat (vecReady [d, a] isIF) (fun s => shapeFmt s.shape) (fun s => shapeN s.shape) (fun s k _ => (e s k, 0))
    moves (.vrowsh g d a i) 2 (fun s k => if C s = 0 then 0 else at_ s ((k / C s : Nat) - i.toInt) (k % C s : Nat)) ∧
    moves (.vcolsh g d a i) 2 (fun s k => if C s = 0 then 0 else at_ s (k / C s : Nat) ((k % C s : Nat) - i.toInt)) ∧
    moves (.vesh g d a i) 2 (fun s k =>
      if 0 ≤ (k : Int) - i.toInt ∧ (k : Int) - i.toInt < shapeN s.shape
      then s.elem (readV s.regs a) ((k : Int) - i.toInt).toNat else 0) ∧
    moves (.vrot g d a i) 2 (fun s k =>
      if C s = 0 then 0 else at_ s (((k / C s : Nat) - i.toInt) % (R s : Int)) (k % C s : Nat)) ∧
    moves (.vtrn g d a) 4 (fun s k => if R s = 0 then 0 else at_ s (k % R s : Nat) (k / R s : Nat)))

/-- VCVT completes and delivers each element's value rounded into the target format; VPACK3 the signs of INT8 elements as trits, with SAT where an element is no trit, and VUNP3 the trits as INT8, with TERN for a reserved byte; VCMPR, for a number of columns that is a multiple of four, the two elements of each group of four that rank highest, in order, and their positions after them; VGET an element to a scalar and VPUT a scalar into an element. An element number beyond the shape, and other columns in VCMPR, raise ILLENC. -/
def Obligations.VectorConversions : Prop :=
  ∀ (g : Guard) (d a : BitVec 7) (e : BitVec 8) (c : BitVec 6) (o : BitVec 1) (f : BitVec 6),
    let x := fun (s : State) (j : Nat) => s.elem (readV s.regs a) j
    let A := fun s : State => (readV s.regs a).toNat
    let N := fun s : State => shapeN s.shape
    let F := fun s : State => shapeFmt s.shape
    let ternary := fun (s : State) => vecReady [d, a] anyFmt s ∧ (F s = .int 8 true ∨ F s = .tern) ∧ N s ≤ 1024
    (fmtAssigned f = true → isIF (fmtOf f) = true →
      GivesElems (.vcvt g d a o f) d 3 (vecReady [d, a] isIF) (fun _ => fmtOf f)
        (fun s => min (N s) (8192 / (fmtOf f).width))
        (fun s j u => (fmtOf f).round (if o = 1 then .ovf else .sat) s.rmodeNow u f ((F s).read (x s j)))) ∧
    (fmtConv f = false → Raises (.vcvt g d a o f) always cILLENC opWord) ∧
    GivesElems (.vpack3 g d a) d 3 ternary (fun _ => .tern) N (fun s j _ =>
      let v := readInt 8 true (elemAt (.int 8 true) (A s) j)
      (if 0 < v then 1 else if v < 0 then 2 else 0, if v < -1 ∨ 1 < v then flagSAT else 0)) ∧
    GivesElems (.vunp3 g d a) d 3 ternary (fun _ => .int 8 true) N (fun s j _ =>
      (intBits 8 (tritVal (elemAt .tern (A s) j)), if 243 ≤ A s / 256 ^ (j / 5) % 256 then flagTERN else 0)) ∧
    Completes (.vcmpr g d a) (fun s => vecReady [d, a] isIF s ∧ shapeCols s.shape % 4 = 0) (fun s =>
      let group := fun k : Nat => (List.range 4).map fun j => x s (4 * k + j)
      let kept := fun k : Nat => keptOf (F s) (group k)
      let vals := (List.range (N s / 4)).flatMap fun k => (kept k).map fun j => (group k).getD j 0
      let places := (List.range (N s / 4)).map fun k => (kept k).headD 0 + 4 * (kept k).getD 1 0
      s.deliverV d (BitVec.ofNat 8192 (packElems (F s) vals + packBits 4 places * 256 ^ (shapeSz s.shape / 2))) 3 0
        (some (s.cur.slot - 5))) ∧
    Raises (.vcmpr g d a) (fun s => shapeCols s.shape % 4 ≠ 0) cILLENC opWord ∧
    (∀ (w : Nat) (sg : Bool), Completes (.vget g c a e)
      (fun s => vecReady [a] isIF s ∧ e.toNat < N s ∧ F s = .int w sg)
      (fun s => s.deliver c (BitVec.ofInt 64 (readInt w sg (x s e.toNat))) 3)) ∧
    Completes (.vget g c a e) (fun s => vecReady [a] isF s ∧ e.toNat < N s)
      (fun s => s.deliver c (BitVec.ofNat 64 (x s e.toNat)) 3) ∧
    GivesElems (.vput g d c e) d 2 (fun s => vecReady [d] isIF s ∧ e.toNat < N s) F N (fun s j _ =>
      (if j = e.toNat then (s.srcA c).toNat % 2 ^ (F s).width else s.elem (readV s.regs d) j, 0)) ∧
    ∀ i ∈ [Instr.vget g c a e, .vput g d c e], Raises i (fun s => N s ≤ e.toNat) cILLENC opWord

/-- In a floating format, outside ctxS and handler mode, with the registers in the window and the F slot not occupied, FEXP2, FLOG2, FRECIP, FRSQRT, FSQRT, FTANH, FSIGM, FSIN, FCOS and FDIV complete, deliver the function of each element after twelve context-cycles and occupy the slot for four; while it is occupied they raise STRUCT 1; another format raises ILLENC. A function's value where the model leaves it free (log entry 12) is whatever Config gives. Outside ctxS and handler mode, in an integer or floating format: QADD, QMAX and QMIN along an axis of at most 256 groups into a latch that is empty, or holds as many results of the same kind, complete: each group is reduced in the pairwise tree of R145 and combined with what the latch held, after six context-cycles; another latch raises STRUCT 6. QSCAN of at most 256 elements delivers every group's running sums. QMOV delivers the latch after three context-cycles and QCLR empties it after one. Axis 3, and too many results, raise ILLENC. -/
def Obligations.FunctionsAndLatches : Prop :=
  (∀ (g : Guard) (d a b : BitVec 7),
    let x := fun (s : State) (j : Nat) => s.elem (readV s.regs a) j
    let y := fun (s : State) (j : Nat) => s.elem (readV s.regs b) j
    let means := fun (i : Instr) (vs : List (BitVec 7)) (h : FltFmt → State → Nat → Nat × Flags) =>
      (∀ f : FltFmt, Completes i (fun s => vecReady vs isF s ∧ shapeFmt s.shape = .flt f ∧ s.regs.occF = 0) (fun s =>
        let r := eachElem (fun j _ => h f s j) (shapeN s.shape) 0 0
        (s.setRegs { s.regs with occF := 4 }).deliverV d (packed (.flt f) r.1) 12 r.2 none)) ∧
      Raises i (fun s => vecReady vs isF s ∧ s.regs.occF ≠ 0) cSTRUCT (fun s => s.opInfo 1) ∧
      Raises i (fun s => isF (shapeFmt s.shape) = false) cILLENC opWord
    let fn := fun (i : Instr) (n : Nat) => means i [d, a] (fun f s j => f.elementary (shapeCode s.shape) n (x s j))
    fn (.fexp2 g d a) 1 ∧ fn (.flog2 g d a) 2 ∧ fn (.frecip g d a) 3 ∧ fn (.frsqrt g d a) 4 ∧ fn (.fsqrt g d a) 5 ∧
    fn (.ftanh g d a) 6 ∧ fn (.fsigm g d a) 7 ∧ fn (.fsin g d a) 8 ∧ fn (.fcos g d a) 9 ∧
    means (.fdiv g d a b) [d, a, b] (fun f s j => f.divide (shapeCode s.shape) (x s j) (y s j))) ∧
  (∀ (g : Guard) (q : BitVec 2) (d a : BitVec 7) (x : BitVec 2),
    let n := q.toNat
    let groups := fun s : State => qGroups s.shape x
    let kind := fun s : State => isF (shapeFmt s.shape)
    let count := fun s : State => Map.get 0 s.regs.qcount n
    let in_ := fun s : State => (s.qInputs a x)
    let fits := fun s : State => x ≠ 3 ∧ (groups s).length ≤ 256 ∧ vecReady [a] isIF s
    let ready := fun s : State => count s ≠ 0 → count s = (groups s).length ∧ s.regs.qkind.getLsbD n = kind s
    let old := fun (s : State) (j : Nat) => QVal.read (kind s) (elemAt (.int 32 true) (s.latch n).toNat j)
    let means := fun (i : Instr) (op : QVal → QVal → QVal × Flags) =>
      Completes i (fun s => fits s ∧ ready s) (fun s =>
        let rs := (in_ s).1.mapIdx fun j l =>
          let t := qTree op 16 l
          if count s = 0 then (t.1.bits, t.2) else ((op (old s j) t.1).1.bits, t.2 ||| (op (old s j) t.1).2)
        (s.setLatch n (groups s).length (kind s)).writeLatch n (BitVec.ofNat 8192 (packBits 32 (rs.map (·.1)))) 6
          ((in_ s).2 ||| orFlags (rs.map (·.2)))) ∧
      Raises i (fun s => fits s ∧ ¬ ready s) cSTRUCT (fun s => s.opInfo 6) ∧
      Raises i (fun s => x = 3 ∨ 256 < (groups s).length) cILLENC opWord
    means (.qadd g q a x) qSum ∧ means (.qmax g q a x) qMax ∧ means (.qmin g q a x) qMin ∧
    (∀ s : State, s.opRuns (.qscan g q a x) = true → x ≠ 3 → shapeN s.shape ≤ 256 → vecReady [a] isIF s →
      ∃ (xs : List QVal) (fl : Flags), exec (.qscan g q a x) s = .next (s.afterOp (.qscan g q a x)
        (.done ((s.setLatch n (shapeN s.shape) (kind s)).writeLatch n
          (BitVec.ofNat 8192 (packBits 32 (xs.map QVal.bits))) 6 fl))) ∧
        xs = (in_ s).1.flatMap fun l => l.mapIdx fun j _ => (l.take (j + 1)).tail.foldl (fun acc y => (qSum acc y).1) (l.headD (.int 0))) ∧
    Raises (.qscan g q a x) (fun s => x = 3 ∨ 256 < shapeN s.shape) cILLENC opWord ∧
    Completes (.qmov g d q) (vecReady [d] isIF) (fun s => s.deliverV d (Map.get 0 s.regs.q n) 3 0 none) ∧
    Completes (.qclr g q) (vecReady [] isIF) (fun s =>
      (s.setRegs { s.regs with qcount := Map.put 0 s.regs.qcount n 0 }).writeLatch n 0 1 0))

/-- Each op of the X, F and Q slots raises ILLENC in ctxS and with a vector register outside the launch's window, whatever its format, and PRIV in handler mode, where its format, its fields and its registers are admitted. For the ops that have more conditions on format, shape or fields these are named: VNEG a format with negative values, VCVT a target it converts to, VPACK3 and VUNP3 INT8 or TERN and at most 1,024 elements, VCMPR columns in fours, VGET and VPUT an element of the shape, the reductions and QSCAN an axis other than 3 and at most 256 results. That ILLENC comes before PRIV is the model's reading of R65 (log entry 59). -/
def Obligations.VectorOpsRefused : Prop :=
  ∀ (g : Guard) (d a b : BitVec 7) (c : BitVec 6) (i : BitVec 7) (e : BitVec 8) (o : BitVec 1) (t : BitVec 6) (q x : BitVec 2),
    let refused := fun (i : Instr) (vs : List (BitVec 7)) (ok : Fmt → Bool) (more : State → Prop) =>
      Raises i (fun s => s.isS = true ∨ ∃ v ∈ vs, s.inVectors v = false) cILLENC opWord ∧
      Raises i (fun s => s.isS = false ∧ (∀ v ∈ vs, s.inVectors v = true) ∧ ok (shapeFmt s.shape) = true ∧ more s ∧
        s.me.h = true) cPRIV opWord
    let n := fun s : State => shapeN s.shape
    (∀ i ∈ [Instr.vadd g d a b, .vsub g d a b, .vmul g d a b, .vfma g d a b, .vfms g d a b, .vmin g d a b,
      .vmax g d a b, .vceq g d a b, .vclt g d a b, .vcle g d a b], refused i [d, a, b] isIF always) ∧
    (∀ i ∈ [Instr.vshl g d a b, .vshr g d a b, .vsra g d a b, .vqadd g d a b, .vqsub g d a b, .vmulh g d a b,
      .vcltu g d a b], refused i [d, a, b] isI always) ∧
    (∀ i ∈ [Instr.vand g d a b, .vor g d a b, .vxor g d a b, .vsel g d a b], refused i [d, a, b] anyFmt always) ∧
    refused (.vmov g d a) [d, a] anyFmt always ∧
    (∀ j ∈ [Instr.vabs g d a, .vtrn g d a, .vrowsh g d a i, .vcolsh g d a i, .vesh g d a i, .vrot g d a i],
      refused j [d, a] isIF always) ∧
    refused (.vneg g d a) [d, a] isIF (fun s => signedFmt (shapeFmt s.shape) = true) ∧
    refused (.vcvt g d a o t) [d, a] isIF (fun _ => fmtAssigned t = true ∧ isIF (fmtOf t) = true) ∧
    (∀ j ∈ [Instr.vpack3 g d a, .vunp3 g d a],
      refused j [d, a] (fun f => decide (f = .int 8 true) || decide (f = .tern)) (fun s => n s ≤ 1024)) ∧
    refused (.vcmpr g d a) [d, a] isIF (fun s => shapeCols s.shape % 4 = 0) ∧
    refused (.vscl g d a b) [d, a, b] isF always ∧
    refused (.vget g c a e) [a] isIF (fun s => e.toNat < n s) ∧ refused (.vput g d c e) [d] isIF (fun s => e.toNat < n s) ∧
    (∀ j ∈ [Instr.fexp2 g d a, .flog2 g d a, .frecip g d a, .frsqrt g d a, .fsqrt g d a, .ftanh g d a, .fsigm g d a,
      .fsin g d a, .fcos g d a], refused j [d, a] isF always) ∧
    refused (.fdiv g d a b) [d, a, b] isF always ∧
    (∀ j ∈ [Instr.viota g d, .vbc g d c], refused j [d] isIF always) ∧
    (∀ j ∈ [Instr.qadd g q a x, .qmax g q a x, .qmin g q a x], refused j [a] isIF
      (fun s => x ≠ 3 ∧ (qGroups s.shape x).length ≤ 256)) ∧
    refused (.qscan g q a x) [a] isIF (fun s => x ≠ 3 ∧ n s ≤ 256) ∧
    refused (.qmov g d q) [d] isIF always ∧ refused (.qclr g q) [] isIF always

/-- A REG that nothing holds up makes its core the word's owner under the line's next grant number: an unregistered word is granted with its data where the registration is sub-word, an owned one is revoked from its owner and granted, a LOST one is taken over by a full-word write alone. The revoked owner gives the word up and forwards its value where one is wanted; a word still pending under the revoked grant is given up at once where none is; the GRANT, with the FDATA it announces, makes the requester's word O with the written bytes over the data that came; and FDATA for a home stores the word there. -/
def Obligations.RegistrationMessages : Prop :=
  (∀ (s : State) (m : RegMsg),
    let k := m.word
    let gr := s.grantOf k + 1
    let new : Owner := ⟨m.owner, tagOf gr⟩
    (∀ x : WbMsg, Instr.wb x ∈ s.pending → ¬ (x.word = k ∧ x.owner = m.owner)) → s.scHeld k = false →
    s.homeNeed m.owner k true = none → s.hostBias k = false →
    (s.ownerOf k = none → (m.full = true ∨ k ∉ s.dev.badMem) → Becomes (.reg m) s fun t =>
      t.ownerOf k = some new ∧ t.grantOf k = gr ∧ t.mem = s.mem ∧ t.cores = s.cores ∧
      t.pending = s.pending ++ [.grant ⟨k, m.owner, gr, if m.full = true then none else some (s.wordAt k), false⟩]) ∧
    ∀ o : Owner, s.ownerOf k = some o →
      (o.agent ≠ ownLost → o.agent ≠ m.owner → Becomes (.reg m) s fun t =>
        t.ownerOf k = some new ∧ t.grantOf k = gr ∧ t.mem = s.mem ∧ t.cores = s.cores ∧
        t.pending = s.pending ++ [.revoke ⟨k, o.agent, o.tag, .core m.owner, !m.full⟩,
          .grant ⟨k, m.owner, gr, none, !m.full⟩]) ∧
      (o.agent = ownLost → Becomes (.reg m) s fun t =>
        (m.full = true → t.ownerOf k = some new ∧ t.pending = s.pending ++ [.grant ⟨k, m.owner, gr, none, false⟩]) ∧
        (m.full = false → t.ownerOf k = some o ∧ t.pending = s.pending ++ [.lostReply (.fdata k m.owner)]))) ∧
  (∀ (s : State) (m : RevokeMsg), m.owner ≠ ownBridge → (s.core m.owner).dead = false →
    s.wbSent m.word m.owner m.tag = false → ((s.core m.owner).word m.word).st = .O →
    tagOf ((s.core m.owner).word m.word).grant = m.tag → Becomes (.revoke m) s fun t =>
      (t.core m.owner).word m.word = {} ∧ t.mem = s.mem ∧
      t.pending = s.pending ++ (if m.forward = true then
        [.fdata ⟨m.word, m.dest, ((s.core m.owner).word m.word).data, m.tag, (s.core m.owner).isBad m.word⟩] else [])) ∧
  (∀ (s : State) (m : RevokeMsg) (g : GrantMsg), m.owner ≠ ownBridge → (s.core m.owner).dead = false →
    s.wbSent m.word m.owner m.tag = false → ((s.core m.owner).word m.word).st = .pending →
    ((s.core m.owner).word m.word).got = some g → tagOf g.grant = m.tag → m.forward = false →
    Becomes (.revoke m) s fun t => (t.core m.owner).word m.word = {} ∧ t.mem = s.mem) ∧
  (∀ (s : State) (m : GrantMsg),
    let x := (s.core m.owner).word m.word
    let owned := fun (t : State) (base : Word) =>
      let y := (t.core m.owner).word m.word
      y.st = .O ∧ y.grant = m.grant ∧ y.data = mergeWord base x.data x.mask
    x.st = .pending →
    (m.fwd = false → Becomes (.grant m) s fun t => owned t (m.data.getD x.data)) ∧
    (m.fwd = true → ∀ (d : Word) (bad : Bool), x.fdata = some (d, bad) → Becomes (.grant m) s fun t => owned t d) ∧
    (m.fwd = true → x.fdata = none → Becomes (.grant m) s fun t =>
      ((t.core m.owner).word m.word).st = .pending ∧ ((t.core m.owner).word m.word).got = some m)) ∧
  ∀ (s : State) (m : FdataMsg),
    (∀ (n : Nat) (gr : GrantMsg), m.dest = .core n → ((s.core n).word m.word).st = .pending →
      ((s.core n).word m.word).got = some gr → Becomes (.fdata m) s fun t =>
        let x := (s.core n).word m.word
        let y := (t.core n).word m.word
        y.st = .O ∧ y.grant = gr.grant ∧ y.data = mergeWord m.data x.data x.mask) ∧
    (m.dest = .home → m.word < 2 ^ 52 → s.homeHeld m.word = false → Becomes (.fdata m) s fun t =>
      t.wordAt m.word = m.data ∧ t.ownerOf m.word = none)

/-- A WB whose grant is still the word's registration stores the word at its home and deregisters it; one whose word a REVOKE has taken goes to the new owner where GONE said so, and otherwise changes nothing. A bypassing write stores its masked bytes where the word is unregistered and revokes an owner first. An atomic on unregistered words stores the new value and answers with the old one. A LOST in place of FDATA leaves the requester without the word, and the word LOST unless another core has registered it since. The core claims a position after the present cycle and sends each op of the blocked bundle with that cycle and its mask bit as its key. At its home an op that has arrived is applied no earlier than 256 cycles after its key's cycle and after every op of a lower key there; applied, a word that its core holds as private having gone home first, it stores its new value and sends the old one back, and the reply reaches the context that waits. -/
def Obligations.WritesAndAtomicsAtHome : Prop :=
  ((∀ (s : State) (m : WbMsg),
    let k := m.word
    let tag := tagOf m.grant
    let mine := fun (w o : Nat) (g : BitVec 22) => w = k ∧ o = m.owner ∧ g = tag
    k < 2 ^ 52 → (∀ r : RevokeMsg, Instr.revoke r ∈ s.pending → ¬ mine r.word r.owner r.tag) →
    (∀ r : GoneMsg, Instr.gone r ∈ s.pending → ¬ mine r.word r.owner r.tag) →
    ((∀ r ∈ s.dev.gone, ¬ mine r.word r.owner r.tag) →
      (s.ownerOf k = some ⟨m.owner, tag⟩ → Becomes (.wb m) s fun t => t.wordAt k = m.data ∧ t.ownerOf k = none) ∧
      (s.ownerOf k ≠ some ⟨m.owner, tag⟩ → Becomes (.wb m) s fun t => t.mem = s.mem ∧ t.dev = s.dev)) ∧
    ∀ n : Nat, s.dev.gone = [⟨k, m.owner, tag, .core n⟩] → Becomes (.wb m) s fun t =>
      t.mem = s.mem ∧ t.dev.gone = [] ∧ t.pending = s.pending ++ [.fdata ⟨k, .core n, m.data, tag, m.bad⟩]) ∧
  (∀ (s : State) (m : GoneMsg), Becomes (.gone m) s fun t =>
    t.dev.gone = s.dev.gone ++ [m] ∧ t.mem = s.mem ∧ t.cores = s.cores) ∧
  (∀ (s : State) (m : BypassMsg), m.word < 2 ^ 52 → s.scHeld m.word = false →
    s.homeNeed m.who.core m.word true = none →
    (s.ownerOf m.word = none → m.word ∉ s.dev.badMem → Becomes (.bypassWrite m) s fun t =>
      t.wordAt m.word = mergeWord (s.wordAt m.word) m.data m.mask ∧ t.grantOf m.word = s.grantOf m.word + 1 ∧
      t.ownerOf m.word = none) ∧
    ∀ o : Owner, s.ownerOf m.word = some o → o.agent ≠ ownLost → Becomes (.bypassWrite m) s fun t =>
      t.mem = s.mem ∧ t.dev.homeWait = s.dev.homeWait ++ [⟨m.word, .bypassWrite m⟩] ∧
      t.pending = s.pending ++ [.revoke ⟨m.word, o.agent, o.tag, .home, true⟩]) ∧
  (∀ (s : State) (m : AtomicMsg),
    let ws := opWords m.pa m.wide
    let n := if m.wide = true then 64 else 32
    let old := s.opValue m.pa m.wide
    m.pa + 8 ≤ 2 ^ 52 → s.atomSealed m.who m.pa = false →
    (∀ k ∈ ws, s.scHeld k = false ∧ s.homeNeed m.who.core k true = none ∧ s.ownerOf k = none ∧ k ∉ s.dev.badMem) →
    Wait.atomic m ∈ (s.ctx m.who).asked → Becomes (.atomicAtHome m) s fun t =>
      t.opValue m.pa m.wide = ((atomNew m.op n old m.b.toNat m.c.toNat).getD old) % 2 ^ n ∧
      t.answered m.who (.atomic m) (leBytes 8 old) 0) ∧
  ∀ (s : State) (k core : Nat), Becomes (.lostReply (.fdata k core)) s fun t =>
    t.ownerOf k = (if s.homeNames core k = true then some ⟨ownLost, 0⟩ else s.ownerOf k) ∧
    (t.core core).word k = {} ∧ t.mem = s.mem ∧
    ∀ r ∈ (t.core core).regOut, r.1 ≠ k) ∧
  ((∀ (s : State) (who : Who),
    let k := s.core who.core
    let c := k.nextPosition s.dev.cycle.toNat
    k.wheel ≠ [] → (∀ x : Nat, x ≠ who.ctx → Instr.atomscSend ⟨who.core, x⟩ ∉ s.pending) →
    Becomes (.atomscSend who) s fun t =>
      s.dev.cycle.toNat < c ∧ c ∈ (t.core who.core).claims ∧
      ∀ op : ScOp, Wait.atomsc op ∈ (s.ctx who).waits →
        Instr.atomscArrive { op with key := c * 16 + op.slot } ∈ t.pending) ∧
  (∀ (s : State) (op : ScOp), s.dev.stall = none → op.key / 16 ≤ s.dev.cycle.toNat →
    (∀ k ∈ opWords op.pa op.wide, s.homeNeed op.who.core k true = none) →
    Becomes (.atomscArrive op) s fun t =>
      op ∈ t.dev.scq ∧ Instr.atomscApply op ∈ t.pending ∧ t.mem = s.mem) ∧
  (∀ (s : State) (op : ScOp),
    let ws := opWords op.pa op.wide
    let n := if op.wide = true then 64 else 32
    let home := ws.foldl (fun u k => u.sendHome op.who.core k) s
    let old := home.opValue op.pa op.wide
    (s.dev.cycle.toNat < op.key / 16 + 256 ∨ s.scEarlier op = true →
      exec (.atomscApply op) s = .next (s.post (.atomscApply op))) ∧
    (op.key / 16 + 256 ≤ s.dev.cycle.toNat → s.scEarlier op = false → op.pa + 8 ≤ 2 ^ 52 →
      s.atomSealed op.who op.pa = false →
      (∀ k ∈ ws, s.homeHeld k = false ∧ home.ownerOf k = none ∧ k ∉ home.dev.badMem) →
      Becomes (.atomscApply op) s fun t =>
        t.opValue op.pa op.wide = ((atomNew op.op n old op.b.toNat 0).getD old) % 2 ^ n ∧ op ∉ t.dev.scq ∧
        .atomscReply op (BitVec.ofNat 64 old) ∈ t.pending)) ∧
  ∀ (s : State) (op : ScOp) (old : Dword), Wait.atomsc { op with key := 0 } ∈ (s.ctx op.who).asked →
    Becomes (.atomscReply op old) s fun t =>
      t.answered op.who (.atomsc { op with key := 0 }) (leBytes 8 old.toNat) 0 ∧ t.mem = s.mem)

/-- A READ that meets nothing in its way is answered with the home's word, forwarded to the owner, or answered LOST; RETRY serves it again once no write-back of the word is under way. An owner that holds the word answers with its value and keeps it; one whose word is not to be corrected fails the read (log entry 104); one that awaits its registration holds the forward until it has it, or behind the revoke of it, but answers a forward of the pod's table with a word that has been written whole (log entry 103, the model's reading of R272); one that has given the word up answers RETRY. DATA makes an absent word V, or P in a page private to the core, for the contexts that may use what it brings (log entry 102). A hot line is replicated unless a word of it is registered. UNPRIV leaves no P word of the page in its owner, and its acknowledgement removes the page's private entry and its translations. -/
def Obligations.ReadsAndCopies : Prop :=
  (∀ (s : State) (m : ReadMsg),
    let k := m.word
    (∀ r ∈ s.dev.recipes, ¬ (r.st = .sealed ∧ r.pins = 0)) → s.tileGone m = false →
    (s.privAt k = none → m.page = none) → s.sliceEvict.homeNeed m.who.core k false = none →
    (s.ownerOf k = none → k ∉ s.dev.badMem → Becomes (.read m) s fun t =>
      Instr.data ⟨m, s.wordAt k, s.grantOf k⟩ ∈ t.pending ∧ t.mem = s.mem ∧ t.cores = s.cores) ∧
    ∀ o : Owner, s.ownerOf k = some o → Becomes (.read m) s fun t =>
      (if o.agent = ownLost then Instr.lostReply (.read m) else .fwd ⟨o.agent, m, false⟩) ∈ t.pending ∧
      t.mem = s.mem ∧ t.cores = s.cores) ∧
  (∀ (s : State) (m : ReadMsg), (∀ x : WbMsg, Instr.wb x ∈ s.pending → x.word ≠ m.word) →
    Becomes (.retry m) s fun t => exec (.read m) s = .next t) ∧
  (∀ (s : State) (m : FwdMsg),
    let x := (s.core m.owner).word m.read.word
    m.owner ≠ ownBridge → (s.core m.owner).dead = false →
    let awaits := m.pod = true ∨ s.homeNames m.owner m.read.word = true ∨ s.revokeHeld m.owner m.read.word = true
    let whole := m.pod = true ∧ x.mask = 15
    let bad := (s.core m.owner).isBad m.read.word
    (x.st = .O → bad = false → Becomes (.fwd m) s fun t => t = s.post (.data ⟨m.read, x.data, x.grant⟩)) ∧
    (x.st = .O → bad = true → Becomes (.fwd m) s fun t => t = s.readFails m.read 2) ∧
    (x.st = .pending → whole → Becomes (.fwd m) s fun t => t = s.post (.data ⟨m.read, x.data, x.grant⟩)) ∧
    (x.st = .pending → ¬ whole → awaits → Becomes (.fwd m) s fun t => t = s.post (.fwd m)) ∧
    (x.st ≠ .O → (x.st = .pending → ¬ awaits) → Becomes (.fwd m) s fun t => t = s.post (.retry m.read))) ∧
  (∀ (s : State) (m : DataMsg),
    let k := m.read.word
    m.read.why = .fill → s.hostBias k = false → ((s.core m.read.who.core).word k).st = .I →
    (∀ p, s.privAt k = some p → p.2 = m.read.who.core → m.read.hidden = []) →
    Becomes (.data m) s fun t =>
      let y := (t.core m.read.who.core).word k
      y.data = m.data ∧ y.grant = m.grant ∧ y.hidden = (m.read.hidden ++ s.hiddenNow k).eraseDups ∧
      y.st = (match s.privAt k with
        | some p => if p.2 = m.read.who.core then .P else .V
        | none => .V)) ∧
  (∀ (s : State) (m : ReadMsg) (slot : Nat), m.why = .lda slot →
    Wait.lda slot m.word m.va ∈ (s.ctx m.who).asked →
    Becomes (.lostReply (.read m)) s fun t => t.answered m.who (.lda slot m.word m.va) [] 4) ∧
  (∀ (s : State) (line : Nat), Becomes (.hotLineReplicate line) s fun t =>
    t.mem = s.mem ∧ t.cores = s.cores ∧
    ((∀ p ∈ s.dev.owner, p.1 / 128 = line → p.2 = none) → line ∈ t.dev.replicas) ∧
    ((∃ p ∈ s.dev.owner, p.1 / 128 = line ∧ p.2 ≠ none) → t = s)) ∧
  (∀ (s : State) (page owner : Nat), Becomes (.unpriv page owner) s fun t =>
    Instr.unprivAck page owner ∈ t.pending ∧
    ∀ k : Nat, inPage page k = true → ((t.core owner).word k).st ≠ .P) ∧
  ∀ (s u : State) (page owner : Nat), s.sharePage page = .ok u →
    Becomes (.unprivAck page owner) s fun t =>
      (∀ q ∈ t.dev.priv, q.1 ≠ page) ∧
      ∀ c ∈ t.cores, ∀ e ∈ c.2.tlb, ∀ x ∈ u.pageEntries page,
        ¬ (x.2.asid = e.asid ∧ x.2.pa = e.pa ∧ x.2.level = e.level)

/-- A fill whose packet can be read caches its 64 bytes, and the contexts that waited for it ask again; one that fails answers each of them with the failure. A prefetch leaves memory, the device and every context's registers and answers as they are. A walk that ends in a leaf installs the translation in the pod's TLB and in that of every core of the pod that waits for it, for a context or for an engine; one that meets an svc entry starts the hold of each context that waits for it, and answers ctxS and a launch without a hold vector with reason 1; one that fails answers each with its reason, and freezes the address spaces that share a table whose entry is not to be corrected (log entry 108); one that TLBINV overtook, and one that nothing waits for, install nothing. A gathered row that may be read is read request by request and, with its last bytes, enters the data queue behind the others, with its bytes or its fault. The first waiting op of the M unit that may be performed is performed. A retired tile's bytes are written, piece by piece as Config chooses (log entry 13, the model's choice), when no earlier access to its bytes is pending; after the last of them its poison is cleared and its flags are raised. A strip moves to the neighbour's buffer when that is empty and waits otherwise. The chunk of a stream that a link can take, as long as Config chooses, leaves the sender, and one that it cannot take waits. Serving a pod-mate's operand read changes nothing. -/
def Obligations.EnginesMakeProgress : Prop :=
  ((∀ (s : State) (f : Fill),
    let g := s.fetchAgent f.core f.va
    (∀ bs : List Byte, bs ≠ [] → s.packetBytes g f.pa = .ok bs → Becomes (.packetFill f) s fun t =>
      Map.get [] (t.core f.core).pkts (f.va / 64) = bs ∧
      ∀ c va : Nat, va / 64 = f.va / 64 → Wait.fill va ∉ (t.ctx ⟨f.core, c⟩).asked) ∧
    (∀ n : Need, s.packetBytes g f.pa = .need n →
      Becomes (.packetFill f) s fun t => t = (s.meetNeed g f.va n).post (.packetFill f)) ∧
    (∀ e : Nat, s.packetBytes g f.pa = .err e → Becomes (.packetFill f) s fun t =>
      t.mem = s.mem ∧ ∀ c va : Nat, va / 64 = f.va / 64 → Wait.fill va ∈ (s.ctx ⟨f.core, c⟩).asked →
        let k := s.key f.pa / 64 * 64
        t.answered ⟨f.core, c⟩ (.fill va)
          (if s.isRemote f.pa = true then [] else leBytes 1 (s.lostWord ((List.range 16).map fun i => k + 4 * i)))
          (if s.isRemote f.pa = true then e else s.homeStatus k 64))) ∧
  (∀ (s : State) (core va : Nat), Becomes (.sequentialPrefetch core va) s fun t =>
    t.mem = s.mem ∧ t.dev = s.dev ∧ t.pending = s.pending ∧
    ∀ c : Nat, (t.ctx ⟨core, c⟩).regs = (s.ctx ⟨core, c⟩).regs ∧ (t.ctx ⟨core, c⟩).replies = (s.ctx ⟨core, c⟩).replies) ∧
  ∀ (s : State) (w : Walk),
    let core := w.who.core
    let g : Agent := ⟨core, w.who.ctx, w.asid, ⟨core, 18, BitVec.ofNat 32 (w.va / 65536)⟩⟩
    let fails := fun reason : Nat => Becomes (.walkComplete w) s fun t =>
      t.mem = s.mem ∧ ∀ v ∈ s.walkWaiters w, (t.core v.core).tlb = (s.core v.core).tlb ∧
        ∀ x ∈ (s.ctx v).asked, isWalk w.va x = true → t.answered v x [] reason
    let cores := (s.walkWaiters w).map (·.core) ++ (s.walkEngines w).map (·.id.core)
    (w ∈ s.dev.walks ∨ cores = [] → Becomes (.walkComplete w) s fun t =>
      w ∉ t.dev.walks ∧ t.dev.podTlb = s.dev.podTlb ∧ ∀ m : Nat, (t.core m).tlb = (s.core m).tlb) ∧
    (w ∉ s.dev.walks → ∀ e : TlbEntry, cores ≠ [] → s.walk g w.va = .leaf e → Becomes (.walkComplete w) s fun t =>
      ∀ m ∈ cores, e ∈ (t.core m).tlb ∧ e ∈ Map.get [] t.dev.podTlb (corePod m)) ∧
    (w ∉ s.dev.walks → s.walkWaiters w ≠ [] →
      (s.walk g w.va = .svc → Becomes (.walkComplete w) s fun t =>
        t.mem = s.mem ∧ ∀ v ∈ s.walkWaiters w, ∀ (va : Nat) (a : Access), (s.ctx v).asked = [.walk va a] →
          (v.ctx ≠ 4 → (s.core v.core).binding.holdVec ≠ 0 → (s.ctx v).aheadFetch (.walk va a) = false →
            (t.ctx v).hold = true ∧ (t.ctx v).xlhold = xlholdOf va a) ∧
          (v.ctx = 4 ∨ (s.core v.core).binding.holdVec = 0 ∨ (s.ctx v).aheadFetch (.walk va a) = true →
            t.answered v (.walk va a) [] 1)) ∧
      (∀ r : Nat, s.walk g w.va = .bad r → (r = 4 → s.sharedWalk g w.va = []) → fails r) ∧
      (s.walk g w.va = .bad 4 → Becomes (.walkComplete w) s fun t => ∀ a ∈ s.sharedWalk g w.va,
        (Map.get {} s.dev.asids a).bound = true → (Map.get {} t.dev.asids a).frozen = true) ∧
      (∀ die : Option Nat, s.walk g w.va = .refused die → fails 0x102))) ∧
  ((∀ (s : State) (w : Who) (i table : Dword) (seq : Nat) (got : List Byte) (rest : List GqEntry),
    let c := s.ctx w
    let va := gqAddrOf table i
    let n := gqRow table
    let g := s.agent w 16 (BitVec.ofNat 32 seq)
    let a := va + got.length
    let m := min (n - got.length) (128 - a % 128)
    c.gqAddr = .gather i table seq got :: rest →
    let held := got = [] ∧ c.mustWait false seq seq (gqClass table) va (va + n) = true
    (16 ≤ c.gqData.length ∨ held → exec (.gatherRowArrive w) s = .next (s.post (.gatherRowArrive w))) ∧
    (c.gqData.length < 16 → ¬ held →
      (∀ bs : List Byte, s.engSpan g a m = .ok bs → Becomes (.gatherRowArrive w) s fun t => t.mem = s.mem ∧
        (m = n - got.length →
          (t.ctx w).gqAddr = rest ∧ (t.ctx w).gqData = c.gqData ++ [⟨i, table, got ++ bs, none⟩]) ∧
        (m ≠ n - got.length → (t.ctx w).gqAddr = .gather i table seq (got ++ bs) :: rest ∧
          (t.ctx w).gqData = c.gqData ∧ Instr.gatherRowArrive w ∈ t.pending)) ∧
      (∀ e : Nat, s.engSpan g a m = .err e → Becomes (.gatherRowArrive w) s fun t =>
        (t.ctx w).gqAddr = rest ∧
        (t.ctx w).gqData = c.gqData ++ [⟨i, table, [], some (s.rowFault g va n e)⟩] ∧ t.mem = s.mem))) ∧
  (∀ (s : State) (w : Who) (h : Held), (s.ctx w).wantsFlush = false →
    ((s.ctx w).mq.find? (s.ctx w).mayPerform) = some h → ∀ u : State, s.performHeld w h = some u →
    Becomes (.heldStorePerform w) s fun t =>
      t.mem = u.mem ∧ t.cores = u.cores ∧ t.dev = u.dev ∧
      (((u.ctx w).mq ≠ [] ∨ (u.ctx w).wantsFlush = true ∧ u.wet w = true) → Instr.heldStorePerform w ∈ t.pending)) ∧
  (∀ (s : State) (core n : Nat) (r : Retire),
    let k := s.core core
    k.retires.find? (fun x => decide (x.key = n)) = some r →
    (k.scoreWaits r.key = true → exec (.tileWriteComplete core n) s = .next (s.post (.tileWriteComplete core n))) ∧
    (k.scoreWaits r.key = false → Becomes (.tileWriteComplete core n) s fun t =>
      let p := pieceOf 0 (Config.grain (3 * s.tick)) (Config.grain (3 * s.tick + 1)) (Config.grain (3 * s.tick + 2))
        (fun _ => false) r.todo
      t.mem = s.mem ∧
      (∀ o m : Nat, p = some (o, m) → (t.core core).pool = putBytes k.pool (r.off + o) ((r.bytes.drop o).take m) ∧
        Instr.tileWriteComplete core n ∈ t.pending ∧ (t.core core).score = k.score ∧
        (t.core core).retires.find? (fun x => decide (x.key = n)) = some { r with todo := cutPiece o m r.todo }) ∧
      (p = none → (t.core core).pool = k.pool ∧
        (∀ e ∈ (t.core core).score, e.key ≠ n) ∧
        (r.reg < 32 → (Map.get {} (t.ctx ⟨core, r.ctx⟩).regs.tile r.reg).poison = 0) ∧
        (t.ctx ⟨core, r.ctx⟩).regs.fflags = (s.ctx ⟨core, r.ctx⟩).regs.fflags ||| r.flags))) ∧
  (∀ (s : State) (core m : Nat) (d : Dir) (x : Strip), s.neighbour core d = some m → m ≠ core →
    ((s.core core).link d).outStrip = some x →
    (((s.core m).link (dirBack d)).inStrip = none → Becomes (.huskStripTransfer core d) s fun t =>
      ((t.core core).link d).outStrip = none ∧ ((t.core m).link (dirBack d)).inStrip = some x ∧ t.mem = s.mem) ∧
    (((s.core m).link (dirBack d)).inStrip ≠ none →
      exec (.huskStripTransfer core d) s = .next (s.post (.huskStripTransfer core d)))) ∧
  (∀ (s : State) (core m : Nat) (d : Dir) (x : Stream) (l : List Stream), s.neighbour core d = some m → m ≠ core →
    ((s.core core).link d).outStreams = x :: l →
    let u := s.drainStream m (dirBack d)
    let n := min (min (Config.grain (3 * s.tick) % 1024 + 1) (16384 - ((u.core m).link (dirBack d)).buffered)) x.left
    (n = 0 ∨ (s.core core).scoreWaits x.key = true →
      exec (.nlStreamTransfer core d) s = .next (u.postOnce (.nlStreamTransfer core d))) ∧
    (n ≠ 0 → (s.core core).scoreWaits x.key = false → Becomes (.nlStreamTransfer core d) s fun t =>
      t.mem = s.mem ∧ ((t.core core).link d).outStreams =
        if n = x.left then l else { x with off := x.off + n, left := x.left - n } :: l)) ∧
  ∀ (s : State) (owner lo hi block : Nat), exec (.remoteOperandRequest owner lo hi block) s = .next s)

/-- A transfer's step always completes. While an earlier access of an overlapping footprint is pending it waits. Else it moves the next piece of its image, which Config chooses among what is left (log entry 13, the model's choice): a tile load puts it in the pool at the tile's offset, a tile store puts the tile's bytes at their address, a copy between pools the source's; what has moved is left no more, and the rest follows in a later step; with the last piece the transfer ends and a loaded tile's poison is set to the reason its bytes give. A piece that needs something first stays begun. A poisoned word that a store reads ends it with error 4, and a refused access with its own error. A tile bound for another core or device is read piece by piece and then sent to the landing its handle names; a scattered row is stored once it is the oldest of its queue. A bulk copy whose store is performed is accepted with its parameters, its template and, into a circular buffer, its slot; or waits for a free slot; or ends with the code of what they break, 4 where they are poisoned. A copy's step always completes. One that another slot of its circular buffer goes before waits. A copy performs its next element, in the order that was chosen when it began (log entry 15 and Config, the model's choice): the element leaves memory and the pool as its write has made them, or is the one that fails, with its error; one that needs something first starts that and waits. A copy whose elements have all been performed fills its slot, into a circular buffer; it then makes its completion write where its template asks for one, and ends. Into a landing slot its pieces are sent, and it ends when they have landed. An element's error ends the copy with the error's code. -/
def Obligations.TransfersComplete : Prop :=
  ((∀ (s : State) (x : XferId),
    (∃ t : State, exec (.transferComplete x) s = .next t) ∧ ∃ t : State, exec (.apertureStore x) s = .next t) ∧
  (∀ (s : State) (x : XferId) (u : Xfer), s.findXfer x = some u →
    let k := s.core x.core
    let w : Who := ⟨x.core, u.ctx⟩
    let g := s.agent w x.ch x.id
    let errs := fun (e : Nat) (t : State) => u ∉ (t.core x.core).xfers ∧
      (k.afterSlice u.ctx = false → e ≠ 0 → (t.core x.core).cerr.getLsbD x.ch = decide (x.ch < 16))
    let goes := fun (v : Xfer) (t : State) => (v.todo = [] → t.findXfer x = none) ∧
      (v.todo ≠ [] → t.findXfer x = some v ∧ Instr.transferComplete x ∈ t.pending)
    let stores := fun (va : Nat) (bytes : Nat → Nat → List Byte) (bad : Nat → Nat → Bool) (more : State → Prop) =>
      ∀ (p : Nat × Nat) (o n : Nat), s.nextPiece g va u = some p →
        (s.engStore g (va + p.1) (bytes p.1 p.2) = .err 4 → (o, n) = wholeWords va p u.todo) →
        (s.engStore g (va + p.1) (bytes p.1 p.2) ≠ .err 4 → (o, n) = p) →
        let v := u.took o (bytes o n) false
        (bad o n = true → Becomes (.transferComplete x) s fun t => t.mem = s.mem ∧ errs 4 t) ∧
        (bad o n = false →
          (∀ q : State, s.engStore g (va + o) (bytes o n) = .ok q → q.findXfer x = some u → Becomes (.transferComplete x) s fun t =>
            t.mem = q.mem ∧ (t.core x.core).pool = (q.core x.core).pool ∧ goes v t ∧ (v.todo = [] → more t)) ∧
          (∀ e : Nat, s.engStore g (va + o) (bytes o n) = .err e → Becomes (.transferComplete x) s fun t =>
            t.mem = s.mem ∧ errs e t) ∧
          (∀ m : Need, s.engStore g (va + o) (bytes o n) = .need m →
            exec (.transferComplete x) s = .next (s.pieceWaits g x u va (o, n) m)))
    (k.scoreWaits u.key = true → exec (.transferComplete x) s = .next (s.post (.transferComplete x))) ∧
    (k.scoreWaits u.key = false →
      (∀ (reg : Nat) (d : Dword) (mode : BitVec 2) (va : Nat), u.kind = .tld reg d mode va →
        (s.nextPiece g va u = none → Becomes (.transferComplete x) s fun t => t.mem = s.mem ∧ errs 0 t ∧
          (reg < 32 → (Map.get {} (t.ctx w).regs.tile reg).poison = u.reason d mode)) ∧
        ∀ o n : Nat, s.nextPiece g va u = some (o, n) →
          (∀ (bs : List Byte) (bad : Bool), s.unitRead g (va + o) n = .ok (bs, bad) → Becomes (.transferComplete x) s fun t =>
            let v := u.took o bs bad
            (t.core x.core).pool = putBytes k.pool (descOff d + o) bs ∧ t.mem = s.mem ∧ goes v t ∧
            (v.todo = [] → reg < 32 → (Map.get {} (t.ctx w).regs.tile reg).poison = v.reason d mode)) ∧
          (∀ m : Need, s.unitRead g (va + o) n = .need m →
            exec (.transferComplete x) s = .next (s.pieceWaits g x u va (o, n) m)) ∧
          ∀ e : Nat, s.unitRead g (va + o) n = .err e → Becomes (.transferComplete x) s fun t =>
            t.mem = s.mem ∧ (t.core x.core).pool = k.pool ∧ errs e t ∧
            (u.bad = true → reg < 32 → (Map.get {} (t.ctx w).regs.tile reg).poison = 3)) ∧
      (∀ (reg : Nat) (d : Dword) (mode : BitVec 2) (va : Nat), u.kind = .tst reg d mode va →
        stores va (fun o n => k.tileBytes d (o, n)) (fun o n => k.poolPoison (descOff d + o) n) always) ∧
      (∀ (reg : Nat) (dd sd : Dword) (o n : Nat), u.kind = .tcpy reg dd sd → s.nextPiece g 0 u = some (o, n) →
        Becomes (.transferComplete x) s fun t =>
          let from_ := s.core (if descRemote sd = true then podMate x.core (descMate sd) else x.core)
          let bs := from_.tileBytes sd (o, n)
          let v := u.took o bs (from_.poolPoison (descOff sd + o) n)
          t.mem = s.mem ∧ (t.core x.core).pool = putBytes k.pool (descOff dd + o) bs ∧ goes v t ∧
          (v.todo = [] → reg < 32 → (Map.get {} (t.ctx w).regs.tile reg).poison = if v.bad = true then 3 else 0)) ∧
      (∀ (d : Dword) (mode : BitVec 2) (h : Dword) (o n : Nat), u.kind = .tstx d mode h → s.nextPiece g 0 u = some (o, n) →
        Becomes (.transferComplete x) s fun t =>
          let v := u.took o (k.tileBytes d (o, n)) (k.poolPoison (descOff d + o) n)
          t.mem = s.mem ∧ (t.core x.core).pool = k.pool ∧
          (v.todo ≠ [] → t.findXfer x = some v ∧ Instr.transferComplete x ∈ t.pending) ∧
          (v.todo = [] → v.bad = true → t.findXfer x = none) ∧
          (v.todo = [] → v.bad = false →
            ∃ r : State, t = r.sendLanding x u.asid h [(0, v.image)] ∧ r.mem = s.mem ∧ r.findXfer x = some v)) ∧
      (∀ (va : Nat) (bs : List Byte), u.kind = .scatter va bs →
        ((s.ctx w).gqAddr.head? ≠ some (.scatter x) →
          exec (.transferComplete x) s = .next (s.post (.transferComplete x))) ∧
        ((s.ctx w).gqAddr.head? = some (.scatter x) →
          stores va (fun o n => (bs.drop o).take n) (fun _ _ => false) fun t => .scatter x ∉ (t.ctx w).gqAddr)))) ∧
  ∀ (s : State) (x : XferId) (u : Xfer) (value : Dword) (started : Bool) (p0 t0 : List Byte) (b0 : Nat),
    s.findXfer x = some u → u.kind = .copy value started p0 t0 b0 →
    let k := s.core x.core
    let b := k.binding
    let parAt := b.pb1 + 32 * bitsOf value 31 16
    let tplAt := b.constBase + 8 * bitsOf value 15 0
    let par := k.poolSpan parAt 32
    let tpl := k.poolSpan tplAt 128
    let n := (parWord par 1).toNat
    let slot := cbGetSlot (Map.get 0 k.cb n)
    let bad := k.poolPoison parAt 32 = true ∨ k.poolPoison tplAt 128 = true
    (¬ bad → k.copyFault value par tpl = none → exec (.apertureStore x) s = .next (s.post (.apertureStore x))) ∧
    (¬ bad → k.copyFault value par tpl = some 0 → Becomes (.apertureStore x) s fun t =>
      Instr.copyComplete x ∈ t.pending ∧ t.mem = s.mem ∧ (t.core x.core).pool = k.pool ∧
      (t.core x.core).cb = (if tplKind tpl = 2 then Map.put 0 k.cb n slot.2 else k.cb) ∧
      (∃ v ∈ (t.core x.core).xfers, v.ch = x.ch ∧ v.id = x.id ∧ v.run = { left := elemOrder x tpl } ∧
        v.kind = .copy value true par tpl (if tplKind tpl = 2 then slot.1 else 0))) ∧
    (∀ e : Nat, e ≠ 0 → (¬ bad ∧ k.copyFault value par tpl = some e ∨ bad ∧ e = 4) → Becomes (.apertureStore x) s fun t =>
      t.mem = s.mem ∧ (t.core x.core).pool = k.pool ∧ u ∉ (t.core x.core).xfers ∧
      (k.afterSlice u.ctx = false → (t.core x.core).cerr.getLsbD x.ch = decide (x.ch < 16)))) ∧
  ((∀ (s : State) (x : XferId), ∃ t : State, exec (.copyComplete x) s = .next t) ∧
  (∀ (s : State) (g : Agent) (x : XferId) (tpl par : List Byte) (base i : Nat) (r : CopyRun), r.err = 0 ∨ i ≤ r.fail →
    (∀ (q : State) (ps : List (Nat × List Byte)), s.copyElem g tpl par base i r.done = .ok (q, ps) →
      s.copyStep g x tpl par base i r = .ok (q, { r with
        left := r.left.drop 1, pieces := r.pieces ++ ps, done := (i, (elemOffsets tpl (tplLoops tpl) 0 i).2) :: r.done })) ∧
    ∀ e : Nat, s.copyElem g tpl par base i r.done = .err e →
      s.copyStep g x tpl par base i r = .ok (s, { r with left := r.left.drop 1, err := e, fail := i })) ∧
  ∀ (s : State) (x : XferId) (u : Xfer) (value : Dword) (started : Bool) (par tpl : List Byte) (base : Nat),
    s.findXfer x = some u → u.kind = .copy value started par tpl base →
    let k := s.core x.core
    let n := (parWord par 1).toNat
    let g := s.agent ⟨x.core, u.ctx⟩ x.ch x.id
    let wrote := leBytes 8 (parWord par 3).toNat
    let only := fun (v : Xfer) (r : State) => ∀ y ∈ (r.core x.core).xfers, y.ch = x.ch → y.id = x.id → y = v
    (started = false → only u s →
      (tplCw tpl = false → Becomes (.copyComplete x) s fun t =>
        t.mem = s.mem ∧ (t.core x.core).pool = k.pool ∧ t.findXfer x = none) ∧
      (tplCw tpl = true → ∀ q : State, s.engStore g (parWord par 2).toNat wrote = .ok q → only u q →
        Becomes (.copyComplete x) s fun t =>
          t.mem = q.mem ∧ (t.core x.core).pool = (q.core x.core).pool ∧ t.findXfer x = none)) ∧
    (started = true → tplKind tpl = 2 → k.slotEarlier n base = true →
      exec (.copyComplete x) s = .next (s.post (.copyComplete x))) ∧
    (started = true → (tplKind tpl = 2 → k.slotEarlier n base = false) →
      (∀ (i : Nat) (l : List Nat), u.run.left = i :: l →
        (∀ m : Need, s.copyStep g x tpl par base i u.run = .need m →
          exec (.copyComplete x) s = .next (s.engWait g (parWord par 0).toNat m (.copyComplete x))) ∧
        ∀ (q : State) (r : CopyRun), s.copyStep g x tpl par base i u.run = .ok (q, r) → q.findXfer x = some u →
          Becomes (.copyComplete x) s fun t => t.mem = q.mem ∧ (t.core x.core).pool = (q.core x.core).pool ∧
            t.findXfer x = some { u with run := r } ∧ Instr.copyComplete x ∈ t.pending) ∧
      (u.run.left = [] → only u s →
        let r := u.run
        let filled := if tplKind tpl = 2 then Map.put 0 k.cb n (cbFill (Map.get 0 k.cb n)) else k.cb
        let ended := { u with kind := .copy value false par tpl base }
        (r.err ≠ 0 → tplKind tpl ≠ 3 → Becomes (.copyComplete x) s fun t =>
          t.mem = s.mem ∧ (t.core x.core).pool = k.pool ∧ t.findXfer x = none ∧
          (k.afterSlice u.ctx = false → (t.core x.core).cerr.getLsbD x.ch = decide (x.ch < 16))) ∧
        (r.err = 0 → tplKind tpl ≠ 3 → tplCw tpl = false → Becomes (.copyComplete x) s fun t =>
          t.mem = s.mem ∧ (t.core x.core).pool = k.pool ∧ (t.core x.core).cb = filled ∧
          (t.core x.core).cerr = k.cerr ∧ t.findXfer x = none) ∧
        (r.err = 0 → tplKind tpl < 2 → tplCw tpl = true →
          let w := s.setCore x.core (k.setKind x (.copy value false par tpl base))
          ∀ q : State, w.engStore g (parWord par 2).toNat wrote = .ok q → only ended q → Becomes (.copyComplete x) s fun t =>
            t.mem = q.mem ∧ (t.core x.core).pool = (q.core x.core).pool ∧ t.findXfer x = none) ∧
        (r.err = 0 → tplKind tpl = 3 → Becomes (.copyComplete x) s fun t =>
          t.mem = s.mem ∧ (t.core x.core).pool = k.pool ∧ ∃ l ∈ t.dev.lzSends, l.x = x ∧ l.handle = parWord par 1))))

/-- A reservation of this device's own core is judged in order: no zone UNDEF, also on a core that is not bound (R396), no landing right refused, a count of 0 or above the slot size TOOBIG, then the lowest FREE slot, a place in the queue of sixteen, or BUSY. A packet with the right and the slot's rn that fits lands whole and is counted; any other of the slot is dropped with its late bit set. An abort with the slot's rn, and 125,000 cycles without a packet, tear a slot. An acknowledgement of all packets ends the landing; one with a status ends the transfer in error 6. A granted reservation is recorded with its pinned port and whether its path has gone down since (R238), or aborted where its sender has died. Answers reach the LZRES that waits, by message or by the time that runs out; over Ethernet what is unanswered for 12,500 cycles is sent again, unless its address space is frozen. Zero-filling the last TORN slot of a zone makes its slots FREE. -/
def Obligations.LandingMessages : Prop :=
  (∀ (s : State) (m : LzReq), m.tag = 65536 → m.node = s.dev.node.toNat →
    let tag := s.dev.nextTag % 65536
    let q : LzReq := { m with tag := tag }
    let k := s.core m.core
    let z := k.zone m.zone
    let sent := fun (h : Dword) (refused : Bool) => Becomes (.lzresMsg m) s fun t =>
      t.pending = s.pending ++ [.lzans ⟨m.who, m.slot, h, refused, tag⟩] ∧ t.mem = s.mem ∧
      ∃ o ∈ t.dev.lzOut, o.req = q
    (z.valid = false → sent (s.handleOf q 2 0 0) false) ∧
    (z.valid = true → s.landRight m.core m.zone m.node m.asid = false → sent (s.handleOf q 0 0 0) true) ∧
    (s.landRight m.core m.zone m.node m.asid = true → z.valid = true →
      (m.count = 0 ∨ z.size < m.count → sent (s.handleOf q 3 0 0) false) ∧
      (0 < m.count → m.count ≤ z.size →
        (∀ n : Nat, z.freeSlot = some n → sent (s.handleOf q 0 z.counter.toNat n) false ∧
          Becomes (.lzresMsg m) s fun t =>
            (((t.core m.core).zone m.zone).slot n).state = 1 ∧ (((t.core m.core).zone m.zone).slot n).rn = z.counter ∧
            ((t.core m.core).zone m.zone).counter = z.counter + 1) ∧
        (z.freeSlot = none → 16 ≤ k.lzq.length → sent (s.handleOf q 1 0 0) false) ∧
        (z.freeSlot = none → k.lzq.length < 16 → Becomes (.lzresMsg m) s fun t =>
          t.pending = s.pending ∧ (t.core m.core).lzq = k.lzq ++ [⟨q, s.dev.cycle, none, false⟩])))) ∧
  (∀ (s : State) (m : LzPkt),
    let z := (s.core m.core).zone m.zone
    let l := z.slot m.slot
    let n := m.bytes.length
    let fits := m.rn = l.rn ∧ l.landed + n ≤ l.count ∧ m.off + n ≤ z.size ∧ l.live = true
    z.valid = true → m.slot < z.count → s.landRight m.core m.zone m.node m.asid = true → m.ethernet = false →
    (fits → Becomes (.lzpkt m) s fun t =>
      let l' := ((t.core m.core).zone m.zone).slot m.slot
      (t.core m.core).pool = putBytes (s.core m.core).pool (z.base + m.slot * z.size + m.off) m.bytes ∧
      l'.landed = l.landed + n ∧ l'.pkts = l.pkts + 1 ∧ l'.state = (if l.landed + n = l.count then 3 else 2) ∧
      t.mem = s.mem) ∧
    (¬ fits → Becomes (.lzpkt m) s fun t =>
      (t.core m.core).pool = (s.core m.core).pool ∧ (((t.core m.core).zone m.zone).slot m.slot).late = true ∧
      t.mem = s.mem)) ∧
  (∀ (s : State) (core zone slot : Nat), (((s.core core).zone zone).slot slot).live = true →
    let l := ((s.core core).zone zone).slot slot
    let torn := fun (cause : BitVec 3) (t : State) =>
      let l' := ((t.core core).zone zone).slot slot
      l'.state = 4 ∧ l'.cause = cause ∧ t.mem = s.mem
    Becomes (.lzabort ⟨core, zone, slot, l.rn⟩) s (torn 2) ∧
    (∀ rn : Half, rn ≠ l.rn → exec (.lzabort ⟨core, zone, slot, rn⟩) s = .next s) ∧
    (125000 ≤ (s.dev.cycle - l.since).toNat → Becomes (.lzSlotTimeout core zone slot) s (torn 3)) ∧
    ((s.dev.cycle - l.since).toNat < 125000 → exec (.lzSlotTimeout core zone slot) s = .next s)) ∧
  (∀ (s : State) (core zone slot : Nat),
    let z := (s.core core).zone zone
    (z.slot slot).state = 4 → (s.core core).lzq = [] → Map.wf {} z.slots = true →
    (∀ p ∈ z.slots, p.1 = slot ∨ p.2.state ≠ 4 ∨ p.2.cleaning = true) →
    Becomes (.slotZeroFillComplete core zone slot) s fun t =>
      (t.core core).pool = putBytes (s.core core).pool (z.base + slot * z.size) (List.replicate z.size 0) ∧
      ((((t.core core).zone zone).slot slot).state = 0) ∧ t.mem = s.mem) ∧
  (∀ (s : State) (m : LzAck) (l : LzSend), s.dev.lzSends = [l] → l.x = m.send →
    (m.status ≠ 0 → Becomes (.lzack m) s fun t => t.dev.lzSends = [] ∧
      ∀ u : Xfer, s.findXfer m.send = some u → (s.core m.send.core).afterSlice u.ctx = false →
        (t.core m.send.core).cerr.getLsbD m.send.ch = decide (m.send.ch < 16)) ∧
    (m.status = 0 → l.base + l.pkts.length ≤ m.count → Becomes (.lzack m) s fun t =>
      t.dev.lzSends = [] ∧ (t.core m.send.core).cerr = (s.core m.send.core).cerr) ∧
    (m.status = 0 → m.count < l.base + l.pkts.length → Becomes (.lzack m) s fun t =>
      ∃ l' ∈ t.dev.lzSends, l'.x = l.x ∧ l'.pkts = l.pkts ∧ l'.acked = max l.acked m.count)) ∧
  (∀ (s : State) (o : LzOut), s.dev.lzOut = [o] → o.req.wait ∈ (s.ctx o.req.who).asked →
    (∀ (m : LzAns), m.tag = o.req.tag → m.refused = false → bitsOf m.handle 63 60 ≠ 15 → o.gone = false →
      Becomes (.lzans m) s fun t => t.dev.lzOut = [] ∧
        t.answered o.req.who o.req.wait (leBytes 8 m.handle.toNat) 0 ∧
        (bitsOf m.handle 63 60 = 0 → ⟨o.req.who, o.req.asid, m.handle, o.port, 0, o.cut⟩ ∈ t.dev.lzHeld)) ∧
    (∀ (m : LzAns), m.tag = o.req.tag → m.refused = false → bitsOf m.handle 63 60 = 0 → o.gone = true →
      handleNode m.handle ≠ s.dev.node.toNat → Becomes (.lzans m) s fun t =>
        t.dev.lzOut = [] ∧ t.dev.lzHeld = s.dev.lzHeld ∧ t.dev.sent.length = s.dev.sent.length + 1) ∧
    (∀ (m : LzAns), m.tag = o.req.tag → m.refused = true → o.gone = false →
      Becomes (.lzans m) s fun t => t.dev.lzOut = [] ∧
        t.answered o.req.who o.req.wait (leBytes 8 m.handle.toNat) 1) ∧
    (250000 ≤ (s.dev.cycle - o.sent).toNat → Becomes (.lzresAnswerTimeout o.req.tag) s fun t =>
      t.dev.lzOut = [] ∧ t.answered o.req.who o.req.wait (leBytes 8 o.req.noRoute.toNat) 0) ∧
    (o.ethernet = true → 12500 ≤ (s.dev.cycle - o.resent).toNat → Becomes (.lzresResendTimeout o.req.tag) s fun t =>
      t.dev.lzOut = [{ o with resent := s.dev.cycle }] ∧ t.dev.sent.length = s.dev.sent.length + 1)) ∧
  (∀ (s : State) (core : Nat) (r : LzQueued), (s.core core).lzq = [r] →
    r.req.node = s.dev.node.toNat → 125000 ≤ (s.dev.cycle - r.since).toNat →
    Becomes (.lzresQueueTimeout core r.req.tag) s fun t => (t.core core).lzq = [] ∧
      t.pending = s.pending ++ [.lzans ⟨r.req.who, r.req.slot, s.handleOf r.req 1 0 0, false, r.req.tag⟩]) ∧
  ∀ (s : State) (l : LzSend), s.dev.lzSends = [l] → l.ethernet = true → s.frozenCore l.x.core = false →
    handleNode l.handle ≠ s.dev.node.toNat → 12500 ≤ (s.dev.cycle - l.since).toNat →
    Becomes (.lzpktResendTimeout l.x) s fun t =>
      t.dev.lzSends = [{ l with since := s.dev.cycle }] ∧
      t.dev.sent.length = s.dev.sent.length + (l.pkts.drop (l.acked - l.base)).length

/-- A request for an ABSENT tile within the depth limits queues the regrow when its die's queue of the depth has room and waits outside it otherwise; one for a tile that is queued or growing joins those who wait, unless a slice's access would close a circle; requests that find no room are let in in the order in which they came; one for a present tile lets its access go on; one beyond the limits or closing a circle fails with RDEPTH. A queued tile without absent sources starts in ctx3 of an idle regrow core of its class: the context runs the recipe's slice, the tile is growing and reads zero, and its sources are pinned for it. The query is answered with the first of its conditions that the core still meets. -/
def Obligations.RegrowsStart : Prop :=
  (∀ (s : State) (q : RegrowReq) (r : Recipe), s.recipe q.tile = some r →
    let outer := match (s.ctx q.who).slice with
      | some sl => sl.va
      | none => r.va
    (r.st = .declared ∨ r.st = .sealed → Becomes (.regrowRequest q) s fun t =>
      (∀ va : Nat, Wait.regrow q.tile va ∉ (t.ctx q.who).asked) ∧ t.mem = s.mem ∧
      t.dev = { s.dev with regrowWait := s.dev.regrowWait.filter (· ≠ q) }) ∧
    (r.st ≠ .declared → r.st ≠ .sealed →
      (∀ i : Dword, (depthFault r q.depth outer = some i ∨ depthFault r q.depth outer = none ∧ s.circle r q = some i) →
        q.engine = none → Wait.regrow q.tile r.va ∈ (s.ctx q.who).asked → Becomes (.regrowRequest q) s fun t =>
          t.answered q.who (.regrow q.tile r.va) (leBytes 8 i.toNat) cRDEPTH.toNat) ∧
      (depthFault r q.depth outer = none → s.circle r q = none →
        (r.st = .absent → s.regrowTurn q = false →
          exec (.regrowRequest q) s = .next ((s.waitTurn q).post (.regrowRequest q))) ∧
        (r.st = .absent → s.regrowTurn q = true → Becomes (.regrowRequest q) s fun t =>
          q ∈ t.dev.regrows ∧ t.pending = s.pending ++ [.sliceStart q.tile] ∧
          ∃ r' : Recipe, t.recipe q.tile = some r' ∧ r'.st = .queued ∧ r'.depth = q.depth ∧
            r'.waiters = [(q.who, q.engine)]) ∧
        (r.st ≠ .absent → Becomes (.regrowRequest q) s fun t =>
          ∃ r' : Recipe, t.recipe q.tile = some r' ∧ r'.st = r.st ∧ (q.who, q.engine) ∈ r'.waiters)))) ∧
  (∀ (s : State) (tile core : Nat) (r : Recipe), s.recipe tile = some r → r.st = .queued →
    (∀ x ∈ s.sourceTiles r, x.st = .declared ∨ x.st = .sealed) →
    s.regrowCore r.launch r.depth (homeDie tile) = (true, some core) → Becomes (.sliceStart tile) s fun t =>
      let c := t.ctx ⟨core, 3⟩
      c.life = .running ∧ c.slice = some ⟨tile, r.va, r.depth, 0, recMax r.rc⟩ ∧ c.regs.pc = recStart r.rc ∧
      (∃ r' : Recipe, t.recipe tile = some r' ∧ r'.st = .growing ∧ r'.at_ = some ⟨core, 3⟩ ∧
        r'.pinned = (s.sourceTiles r).map (·.tile) ∧ r'.late = []) ∧
      ∀ a : Nat, a / 16384 * 16384 = tile → t.byteAt a = 0) ∧
  ∀ (s : State) (m : FitQuery), Wait.fit m ∈ (s.ctx m.who).asked → Becomes (.snapfitQuery m) s fun t =>
    t.answered m.who (.fit m) [] (s.holdsOf m.src) ∧ t.mem = s.mem ∧ t.dev = s.dev

/-- A store to a bound window writes its bytes in the slots that are not sealed; to a queue that is not bound or is closing, or with a line a host wants cached, or from a master that lacks the right, it writes nothing. A seal in the next slot with the expected number is taken: the launch joins its queue's backlog, or is refused with the lowest reason that applies, which its completion record tells where it has an address, and the window's count moves on; a seal with another number is broken and nothing else is read; a record whose judging needs something first waits for it. The mailbox takes a command the same way: a store writes the slots that are not sealed, a seal in the next free slot with the expected number is accepted with the slot's bytes and moves the count on, and one with another number is broken. A bind record that can be obeyed makes the context run the strand from the image's first bundle with s1 the launch's argument; on a core that runs none it loads the core for the launch first; one whose needs are not met, a groupmate of a lower number that is yet to be bound among them, is kept. A launch whose strands have all ended, and whose accesses are performed, writes back what it stored, writes its completion record where that has an address, and is closed; the lines of host memory that it stored to and the bridge does not own are asked for first. A card whose operands have moved becomes ready; a ready card that has waited longer than the ageing interval goes to a core that waits with none of its own. The classifier stops counting after 65,536 cycles. -/
def Obligations.WorkArrivesAndEnds : Prop :=
  ((∀ (s : State) (n : Nat) (m : ApStore),
    let q := Map.get {} s.dev.queues n
    let q' := fun t : State => Map.get {} t.dev.queues n
    let refused := s.apertureRefused m (2 ^ 39 + 4096 * n + m.off) 2
    (refused.isSome = true ∨ m.cached = true ∨ q.bound = false ∨ q.closing.isSome = true →
      Becomes (.windowStore n m) s fun t =>
        t.dev.queues = s.dev.queues ∧ t.mem = s.mem ∧ t.pending = s.pending) ∧
    (refused = none → m.cached = false → q.bound = true → q.closing = none → Becomes (.windowStore n m) s fun t =>
      t.mem = s.mem ∧ (q' t).backlog = q.backlog ∧ (q' t).e = q.e ∧
      ∀ a : Nat, a < 4096 → Map.get 0 (q' t).window a =
        (if m.off ≤ a ∧ a < m.off + m.bytes.length ∧ sealedAt q.window a = false then m.bytes.getD (a - m.off) 0
        else Map.get 0 q.window a)) ∧
    (refused = none → m.cached = false → q.bound = true → q.closing = none → Becomes (.windowStore n m) s fun t =>
      sealedAt (q' t).window (256 * q.k.toNat) = true → Instr.launchSeal n ∈ t.pending)) ∧
  (∀ (s : State) (n : Nat), n < 65536 →
    let q := Map.get {} s.dev.queues n
    let b := Map.get 0 q.window (sealAt q.k.toNat)
    let q' := fun t : State => Map.get {} t.dev.queues n
    let rc := parseRecord (slotBytes q.window q.k.toNat)
    let g := dispAgent s.dev.nextLaunch q.asid
    q.bound = true → q.closing = none → b.getLsbD 7 = true →
    (b.toNat ≠ 128 + q.e.toNat → Becomes (.launchSeal n) s fun t =>
      (Map.get 0 (q' t).window (sealAt q.k.toNat)) = 0 ∧ (q' t).e = q.e ∧ (q' t).k = q.k ∧
      (q' t).backlog = q.backlog ∧ t.dev.launches = s.dev.launches) ∧
    (b.toNat = 128 + q.e.toNat →
      (∀ gs : List TtGroup, s.judge g n rc = .ok (0, gs) → Becomes (.launchSeal n) s fun t =>
        (q' t).e = q.e + 1 ∧ (q' t).k = q.k + 1 ∧ (q' t).backlog = q.backlog ++ [s.dev.nextLaunch] ∧
        t.dev.nextLaunch = s.dev.nextLaunch + 1 ∧ t.mem = s.mem ∧
        (rc.strands ≠ 0 → (t.launch s.dev.nextLaunch).rc = rc ∧ (t.launch s.dev.nextLaunch).tt = gs ∧
          (t.launch s.dev.nextLaunch).strands = rc.strands)) ∧
      (∀ x : Need, s.judge g n rc = .need x → exec (.launchSeal n) s = .next ((s.meetNeed g 0 x).post (.launchSeal n))) ∧
      (∀ (r : Nat) (gs : List TtGroup), r ≠ 0 → s.judge g n rc = .ok (r, gs) →
        let s' := s.setDev { s.dev with nextLaunch := s.dev.nextLaunch + 1 }
        let writes := rc.compAddr ≠ 0 ∧ rc.compAddr % 16 = 0 ∧ inWindow rc.compAddr = false ∧
          inAperture rc.compAddr = false ∧ (Map.get {} s.dev.asids q.asid).bound = true
        let record := s'.engWriteVa g rc.compAddr (leBytes 8 rc.compVal.toNat ++ leBytes 8 (1 + 256 * r))
        let closes := fun (u t : State) =>
          (q' t).e = (q' u).e + 1 ∧ (q' t).k = (q' u).k + 1 ∧ (q' t).backlog = (q' u).backlog ∧
          t.dev.launches = u.dev.launches ∧ t.mem = u.mem
        (rc.compAddr = 0 ∨ rc.compAddr % 16 ≠ 0 → Becomes (.launchSeal n) s (closes s)) ∧
        (writes → ∀ u : State, record = .ok u → Becomes (.launchSeal n) s (closes u)) ∧
        (rc.compAddr ≠ 0 → rc.compAddr % 16 = 0 → (¬ writes ∨ ∃ e, record = .err e) → Becomes (.launchSeal n) s fun t =>
          closes s t ∧ (q' t).faults = q.faults + 1)))) ∧
  ∀ (s : State) (m : ApStore),
    let refused := s.apertureRefused m (2 ^ 43 + m.off) 1
    (refused.isSome = true ∨ m.cached = true ∨ s.dev.mboxOpen = false → Becomes (.mailboxStore m) s fun t =>
      t.dev.mbox = s.dev.mbox ∧ t.mem = s.mem) ∧
    (refused = none → m.cached = false → s.dev.mboxOpen = true →
      sealedAt (windowWrite s.dev.mbox.bytes (openBytes s.dev.mbox.bytes m)) (256 * s.dev.mbox.k.toNat) = false →
      Becomes (.mailboxStore m) s fun t =>
        t.mem = s.mem ∧ t.dev.mbox.accepted = s.dev.mbox.accepted ∧ ∀ a : Nat, a < 4096 →
          Map.get 0 t.dev.mbox.bytes a =
            if m.off ≤ a ∧ a < m.off + m.bytes.length ∧ sealedAt s.dev.mbox.bytes a = false then
              m.bytes.getD (a - m.off) 0
            else Map.get 0 s.dev.mbox.bytes a) ∧
    (refused = none → m.cached = false → s.dev.mboxOpen = true →
      let x := s.dev.mbox
      let b := windowWrite x.bytes (openBytes x.bytes m)
      let k := x.k.toNat
      sealedAt b (256 * k) = true → s.dev.slotBusy k = false →
      ((Map.get 0 b (sealAt k)).toNat ≠ 128 + x.e.toNat → Becomes (.mailboxStore m) s fun t =>
        t.dev.mbox = { x with bytes := Map.put 0 b (sealAt k) 0 } ∧ t.mem = s.mem) ∧
      ((Map.get 0 b (sealAt k)).toNat = 128 + x.e.toNat → Becomes (.mailboxStore m) s fun t =>
        t.mem = s.mem ∧ (x.accepted ++ [⟨k, slotBytes b k⟩]) <+: t.dev.mbox.accepted ∧
        (sealedAt b (256 * (x.k + 1).toNat) = false →
          t.dev.mbox = { x with bytes := b, e := x.e + 1, k := x.k + 1, accepted := x.accepted ++ [⟨k, slotBytes b k⟩] })))) ∧
  ((∀ (s : State) (r : BindRec) (l : Launch), l = s.launch r.launch → l.strands ≠ 0 →
    s.recsGood l r.launch [r] = true →
    (s.bindReady l r.launch [r] = false ∨ inTurn l [r] r = false → Becomes (.bindRecord [r]) s fun t =>
      t = s.setDev { s.dev with bindHeld := s.dev.bindHeld ++ [[r]] }) ∧
    (s.bindReady l r.launch [r] = true → (Map.get {} s.dev.asids l.asid).frozen = false →
      s.freshCore r.who.core = false → Becomes (.bindRecord [r]) s fun t =>
        let c := t.ctx r.who
        c.life = .running ∧ c.regs.pc = BitVec.ofNat 52 (l.rc.image + l.rc.codeAt) ∧
        readS c.regs 1 = l.rc.args ∧ c.regs.lfsr = seedOf r.strand ∧ c.prio = BitVec.ofNat 4 l.rc.prio ∧
        (∃ st : Strand, c.strand = some st ∧ st.launch = r.launch ∧ st.num = r.strand) ∧
        r.strand ∈ (t.launch r.launch).bound ∧ strandAt (t.launch r.launch) r.strand = some r.who ∧ t.mem = s.mem) ∧
    (s.bindReady l r.launch [r] = true → (Map.get {} s.dev.asids l.asid).frozen = false → s.freshCore r.who.core = true →
      ∀ img : List Byte, s.dispRead (dispAgent r.launch l.asid) true l.rc.image l.rc.size = .ok img →
      Becomes (.bindRecord [r]) s fun t =>
        let c := t.ctx r.who
        c.life = .running ∧ c.regs.pc = BitVec.ofNat 52 (l.rc.image + l.rc.codeAt) ∧ readS c.regs 1 = l.rc.args ∧
        (∃ st : Strand, c.strand = some st ∧ st.launch = r.launch ∧ st.num = r.strand) ∧
        (t.core r.who.core).asid = l.asid ∧ (t.core r.who.core).binding = bindOf l r.launch ∧
        strandAt (t.launch r.launch) r.strand = some r.who)) ∧
  (∀ (s : State) (n : Nat),
    let l := s.launch n
    l.strands ≠ 0 → l.strands ≤ l.ended.length →
    let done := (l.bound.filterMap (strandAt l)).all s.strandDone = true ∧ l.left.all s.leftDone = true ∧
      s.launchSettled l = true
    let u := s.flushLaunch l
    let closed := fun t : State =>
      (t.launch n).strands = 0 ∧ n ∉ (Map.get {} t.dev.queues l.queue).backlog ∧ ∀ d ∈ t.dev.cards, d.launch ≠ n
    (¬ done → exec (.launchComplete n) s = .next (s.post (.launchComplete n))) ∧
    (done → s.awayLines l ≠ [] → Becomes (.launchComplete n) s fun t =>
      Instr.launchComplete n ∈ t.pending ∧ ∀ x ∈ s.awayLines l, (x, true) ∈ t.dev.hostAsk) ∧
    (done → s.awayLines l = [] → l.rc.compAddr = 0 → Becomes (.launchComplete n) s fun t => closed t ∧ t.mem = u.mem) ∧
    (done → s.awayLines l = [] → l.rc.compAddr ≠ 0 → l.rc.compAddr % 16 = 0 → inWindow l.rc.compAddr = false →
      inAperture l.rc.compAddr = false → (Map.get {} s.dev.asids l.asid).bound = true →
      ∀ v : State, u.engWriteVa (dispAgent n l.asid) l.rc.compAddr (leBytes 8 l.rc.compVal.toNat ++ leBytes 8 0) = .ok v →
      Becomes (.launchComplete n) s fun t => closed t ∧ t.mem = v.mem)) ∧
  (∀ (s : State) (d : Card), s.dev.cards = [d] → d.die = false →
    (∀ u : State, moveOperands (s.cardAgent d) d.ops s = .ok u → Becomes (.jobCardReady d.id) s fun t =>
      t.mem = u.mem ∧ (t.core d.core).pool = (u.core d.core).pool ∧
      (u.dev.cards = [d] → t.dev.cards = [{ d with ready := true }])) ∧
    (d.ops = [] → Becomes (.jobCardReady d.id) s fun t =>
      t.dev.cards = [{ d with ready := true }] ∧ t.mem = s.mem ∧ t.cores = s.cores) ∧
    ∀ core : Nat, core ≠ d.core → coreDie d.core = coreDie core → d.ready = true → (s.core core).popping ≠ 0 →
      s.idleFor core d.launch = true → corePod core = corePod d.core →
      (((s.core d.core).ageing.toNat < (s.dev.cycle - d.since).toNat) → Becomes (.jobCardSteal core d.id) s fun t =>
        t.dev.cards = [{ d with core := core, ready := false }] ∧ t.pending = s.pending ++ [.jobCardReady d.id]) ∧
      ((s.dev.cycle - d.since).toNat ≤ (s.core d.core).ageing.toNat →
        exec (.jobCardSteal core d.id) s = .next (s.post (.jobCardSteal core d.id)))) ∧
  ∀ (s : State) (core : Nat), Becomes (.classifierWindowEnd core) s fun t =>
    t.mem = s.mem ∧ t.dev = s.dev ∧
    (65536 ≤ (s.dev.cycle - (s.core core).classStart).toNat → (t.core core).classDone = true) ∧
    ((s.dev.cycle - (s.core core).classStart).toNat < 65536 → t = s))

/-- A request marks a context that has a strand and a SNAPBASE, and is reported as refused where SNAPBASE is zero. At a boundary that allows it the context stops issuing; once its accesses are performed at the device its image is written at SNAPBASE and the context is free, its strand kept among the saved. A restore into a free context of a core bound to the launch, from an image that fits, makes the context run the strand from the address saved; an image that breaks R341, a replay mask that names a slot absent at TRAPPC among that, makes it take TRETF. -/
def Obligations.PreemptionSavesAndRestores : Prop :=
  (∀ (s : State) (w : Who),
    let c := s.ctx w
    (c.strand = none ∨ c.preempt = true → exec (.preemptRequest w) s = .next s) ∧
    (c.strand.isSome = true → c.regs.snapbase = 0 → c.preempt = false →
      exec (.preemptRequest w) s = .next (s.tell (.notPreemptible w))) ∧
    (c.strand.isSome = true → c.regs.snapbase ≠ 0 → c.preempt = false → Becomes (.preemptRequest w) s fun t =>
      t.ctx w = { c with preempt := true } ∧ t.pending = s.pending ++ [.preemptGrant w] ∧ t.mem = s.mem)) ∧
  (∀ (s : State) (w : Who) (st : Strand),
    let c := s.ctx w
    c.strand = some st → c.preempt = true →
    (c.life ≠ .saving → s.canSave w = true → Becomes (.preemptGrant w) s fun t =>
      (t.ctx w).life = .saving ∧ (t.ctx w).strand = some st ∧ Instr.preemptGrant w ∈ t.pending) ∧
    (c.life = .saving → c.allPerformed 2 = false →
      exec (.preemptGrant w) s = .next (s.post (.preemptGrant w))) ∧
    (c.life = .saving → c.allPerformed 2 = true → ∀ u : State,
      s.engWriteVa (s.agent w 21 0) (c.regs.snapbase.toNat * 4096) (s.saveImage w) = .ok u → u.ctx w = c →
      Becomes (.preemptGrant w) s fun t =>
        t.mem = u.mem ∧ (t.ctx w).life = .idle ∧ (t.ctx w).strand = none ∧
        ∃ v : Saved, Map.get none t.dev.saved u.dev.nextSaved = some v ∧ v.strand = st ∧ v.src = w ∧
          v.base = c.regs.snapbase.toNat * 4096)) ∧
  ∀ (s : State) (w : Who) (n : Nat) (v : Saved) (bs : List Byte),
    let m := imageOfBytes (bs.take 4096)
    Map.get none s.dev.saved n = some v → s.canRestore w v = true →
    s.engReadVa ⟨w.core, w.ctx, v.asid, ⟨w.core, 21, 1⟩⟩ v.base 0x1F400 = .ok bs → s.restoreFits w v m = true →
    ∀ present : Nat, s.restoredSlots ⟨w.core, w.ctx, v.asid, ⟨w.core, 21, 1⟩⟩ m = .ok present →
    (({ snap := m } : Ctx).imageBad present = true → Becomes (.strandRestore w n) s fun t =>
      let c := t.ctx w
      c.strand = some v.strand ∧ c.h = true ∧ c.trapcause = cTRETF ∧ c.regs.pc = (s.core w.core).binding.trapPc ∧
      Map.get none t.dev.saved n = none ∧ t.mem = s.mem) ∧
    (({ snap := m } : Ctx).imageBad present = false → imgWord m 8 % 2 ^ 11 = 0 → imgWord m 0 / 2 ^ 17 % 4 = 1 →
      Becomes (.strandRestore w n) s fun t =>
        let c := t.ctx w
        c.life = .running ∧ c.strand = some v.strand ∧ c.regs.pc = BitVec.ofNat 52 (imgWord m 4) ∧ c.prio = v.prio ∧
        (∀ i : BitVec 6, i ≠ 0 → readS c.regs i = Map.get 0 m (31 + i.toNat)) ∧
        Map.get none t.dev.saved n = none ∧ strandAt (t.launch v.strand.launch) v.strand.num = some w ∧ t.mem = s.mem)

/-- A context whose quantum has run out gives up the port when a ready rival has at least its priority. A frame tick advances at its boundary, goes back to zero at the frame's end, and stands while a slip or a power stall holds it. A group is released at its release tick; a released group that has not tripped at its deadline holds the frame, and the slip ends once no group is late. A sample above a limit begins a stall at a tick boundary, and the stall ends once both figures stand below their limits. The model's choices: log 44 (when a sample starts a stall, and what its end moves) and log 99 (ctxS among the rivals of a quantum). -/
def Obligations.TimeRuns : Prop :=
  (∀ (s : State) (core x y : Nat) (l : List Nat),
    let k := s.core core
    k.port = some x → s.quantumRivals core x = y :: l →
    (1024 ≤ (s.dev.cycle - k.runStart).toNat → Becomes (.quantumExpire core) s fun t =>
      (t.core core).port = none ∧ t.mem = s.mem ∧ t.dev = s.dev) ∧
    ((s.dev.cycle - k.runStart).toNat < 1024 → exec (.quantumExpire core) s = .next s)) ∧
  (∀ (s : State) (n : Nat) (p : Part), s.dev.parts[n]? = some p →
    (s.dev.stall.isSome = true → exec (.frameTickAdvance n) s = .next s) ∧
    (s.dev.stall = none →
      (p.slip = true → Becomes (.frameTickAdvance n) s fun t =>
        t.dev.parts[n]? = some { p with heldTicks := p.heldTicks + 1 }) ∧
      (p.slip = false → p.tick + 1 < p.length → Becomes (.frameTickAdvance n) s fun t =>
        t.dev.parts[n]? = some { p with tick := p.tick + 1 } ∧ t.dev.launches = s.dev.launches) ∧
      (p.slip = false → p.length ≤ p.tick + 1 → Becomes (.frameTickAdvance n) s fun t =>
        t.dev.parts[n]? = some { p with tick := 0, frames := p.frames + 1 }))) ∧
  (∀ (s : State) (id n i : Nat) (g : TtGroup) (p : Part),
    let l := s.launch id
    l.tt[n]? = some g → s.groupPart l g = some i → s.dev.parts[i]? = some p →
    (p.tick = g.release → p.slip = false → g.tripped = false → Becomes (.releaseTick id n) s fun t =>
      (t.launch id).tt[n]? = some { g with released := true } ∧ t.dev.parts = s.dev.parts) ∧
    (p.tick ≠ g.release → exec (.releaseTick id n) s = .next s) ∧
    (g.released = true → g.tripped = false → p.tick = g.deadline → p.slip = false →
      Becomes (.deadlineSlip id n) s fun t =>
        t.dev.parts[i]? = some { p with slip := true, heldTicks := 0 } ∧ t.dev.launches = s.dev.launches) ∧
    (g.tripped = true ∨ p.tick ≠ g.deadline → exec (.deadlineSlip id n) s = .next s)) ∧
  (∀ (s : State) (n : Nat) (p : Part), s.dev.parts[n]? = some p → p.slip = true →
    (s.anyLate n = false → Becomes (.slipEnd n) s fun t =>
      t.dev.parts[n]? = some { p with slip := false, heldTicks := 0 }) ∧
    (s.anyLate n = true → exec (.slipEnd n) s = .next s)) ∧
  (∀ (s : State) (p : Sample),
    let d := { s.dev with samples := (s.dev.samples ++ [p]).drop (s.dev.samples.length + 1 - ampWindow) }
    (s.dev.stall.isSome = true ∨ d.overPower = false → Becomes (.powerSample p) s fun t => t = s.setDev d) ∧
    (s.dev.stall = none → d.overPower = true → Becomes (.powerSample p) s fun t =>
      t.dev.stall = some t.dev.cycle ∧ t.dev.cycle.toNat % 16 = 0 ∧ t.mem = s.mem ∧ t.cores = s.cores)) ∧
  ∀ (s : State) (c : Dword),
    (s.dev.stall = none → exec .powerStallEnd s = .next s) ∧
    (s.dev.stall = some c → s.dev.underPower = false → exec .powerStallEnd s = .next s) ∧
    (s.dev.stall = some c → s.dev.underPower = true → Becomes .powerStallEnd s fun t =>
      t.dev.stall = none ∧ t.dev.cycle.toNat % 16 = 0 ∧ t.mem = s.mem)

/-- A neighbour link that goes down empties both its ends and refuses traffic; a fabric port is marked down. A core that stops runs nothing and holds no word, and what was registered to it is LOST; a die that loses lock stops each of its cores. A freeze stops every running context of the bound address spaces it names, freezes the black box of every die, and is reported. Power lost leaves the reset state without power; power applied leaves the reset state of its part form, or the failed step of bring-up; a host port whose partner offers no supported mode stays down. The management port reads the black box, its events and its double faults, and unfreezes it; it reads the samples and the bring-up status, and it caps the power of a 7940-D; an SPDM request outside the one algorithm pair or the four measurements is answered with the error, and a port that is down answers none. The model's choices: logs 1 and 49 (answers as words of a port), 17 (what verifies an image, and the digests), 46 (the words of a core that stops), 77 (power lost), 81 (the words of a double fault) and 84 (a freeze is recorded on every die). -/
def Obligations.StopsAndPower : Prop :=
  (∀ (s : State) (core m : Nat) (d : Dir), s.neighbour core d = some m → m ≠ core →
    Becomes (.linkDown (.neighbour core d)) s fun t =>
      ((t.core core).link d).down = true ∧ ((t.core m).link (dirBack d)).down = true ∧
      ((t.core core).link d).outStrip = none ∧ ((t.core m).link (dirBack d)).inStreams = [] ∧ t.mem = s.mem) ∧
  (∀ (s : State) (p : Nat),
    (Becomes (.linkDown (.ngufer p)) s fun t => p ∈ t.dev.portsDown ∧ t.mem = s.mem) ∧
    (Becomes (.linkDown (.ethernet p)) s fun t => p ∈ t.dev.ethDown ∧ t.mem = s.mem)) ∧
  (∀ (s : State) (core : Nat), core < 576 → (s.core core).dead = false → Becomes (.coreHardwareStop core) s fun t =>
    (t.core core).dead = true ∧ (t.core core).l1 = [] ∧
    (∀ c : Nat, (t.ctx ⟨core, c⟩).life = .idle ∨ (t.ctx ⟨core, c⟩).life = .stopped) ∧
    ∀ (k : Nat) (o : Owner), t.ownerOf k = some o → o.agent ≠ core) ∧
  (∀ (s : State) (die : Nat), die < 4 → Becomes (.pllLossOfLock die) s fun t =>
    t.dev.deadDies.getLsbD die = true ∧
    ∀ c : Nat, c < 576 → coreDie c = die → coreRow c < s.gridSize → coreCol c < s.gridSize → (t.core c).dead = true) ∧
  (∀ (s : State) (l : List Nat), Becomes (.errorFreeze l) s fun t =>
    t.mem = s.mem ∧
    ∀ a ∈ l, (Map.get {} s.dev.asids a).bound = true →
      (Map.get {} t.dev.asids a).frozen = true ∧ Told.frozen a ∈ t.dev.told ∧
      (∀ d : Nat, d < s.dies → (Map.get {} t.dev.bbox d).frozen = true) ∧
      ∀ k c : Nat, (s.core k).asid = a → (t.ctx ⟨k, c⟩).life ≠ .running) ∧
  (∀ s : State, Becomes .powerLoss s fun t =>
    t.dev.power = false ∧ t.cores = [] ∧ t.mem = [] ∧
    t.pending = s.pending.filter fun i => match i with
      | .powerOn _ => true
      | _ => false) ∧
  (∀ (s : State) (p : PowerUp),
    (s.dev.power = true → exec (.powerOn p) s = .next s) ∧
    (s.dev.power = false → Becomes (.powerOn p) s fun t =>
      t.dev.power = true ∧ t.dev.form = p.form ∧ t.cores = [] ∧ t.mem = [] ∧ t.dev.cycle = 0 ∧
      (imageVerifies p.image = true → t.dev.bringup = p.fail) ∧
      (imageVerifies p.image = false → p.fail ≠ 1 → t.dev.bringup = 2) ∧
      (t.dev.bringup = 0 → t.dev.mbox = {}) ∧
      ∀ x ∈ p.hosts, t.dev.bringup = 0 ∨ t.dev.bringup = 7 → x.supported = false → x.port ∈ t.dev.portsDown)) ∧
  (∀ (s : State) (die w : Nat),
    let b := Map.get {} s.dev.bbox die
    let recent := s.dev.samples.drop (s.dev.samples.length - 1024)
    let means := fun (i : Instr) (port : Nat) (ws : List Dword) => Becomes i s fun t =>
      t.dev.answers = s.dev.answers ++ [(port, ws)] ∧ t.mem = s.mem ∧ t.cores = s.cores
    (Becomes (.i3cReadBlackBox die) s fun t => Map.get {} t.dev.bbox die = { b with frozen := false } ∧
      t.mem = s.mem ∧ t.cores = s.cores ∧
      t.dev.answers = s.dev.answers ++ [(0x3000 + die, b.events.flatMap fun e => [e.1, e.2]),
        (0x3400 + die, b.doubles.flatMap fun x => [x.1.setWidth 64, x.2.1, x.2.2.1.setWidth 64, x.2.2.2])]) ∧
    means .i3cReadPowerSamples 0x3100 (recent.map fun p => BitVec.ofNat 64 (p.watts + p.amps * 2 ^ 32)) ∧
    means .i3cReadBringupStatus 0x3200 [BitVec.ofNat 64 (s.dev.bringup.toNat + if s.dev.verified = true then 256 else 0)] ∧
    (s.dev.form = 2 → w ≤ 750 → Becomes (.i3cWritePowerCap w) s fun t =>
      t = s.setDev { s.dev with pwrCap := w }) ∧
    (s.dev.form ≠ 2 ∨ 750 < w → exec (.i3cWritePowerCap w) s = .next s)) ∧
  ∀ (s : State) (port alg index : Nat),
    (port ∈ s.dev.portsDown → exec (.spdmRequest port alg index) s = .next s) ∧
    (port ∉ s.dev.portsDown → Becomes (.spdmRequest port alg index) s fun t =>
      t.mem = s.mem ∧ t.cores = s.cores ∧ ∃ ws : List Dword, t.dev.answers = s.dev.answers ++ [(spdmPort port, ws)] ∧
        (alg ≠ 0 ∨ index < 1 ∨ 4 < index → ws = [spdmError]) ∧
        (alg = 0 → 1 ≤ index → index ≤ 4 → ws.head? = some (BitVec.ofNat 64 index) ∧ ws.length = 13))

/-- RD, WR and ATOM from another device are checked for their form, their storage and the source's rights, and are answered with the failure or with the bytes read, the bytes written, or the old value and the new one stored; TLBINV drops the address space's translations and is acknowledged once no access that went through one of them is outstanding, and a malformed one is answered with status 3. RDRSP, WRACK and ATOMRSP reach the op that asked, an unanswered request fails with status 3 after 125,000 cycles, the last TLBACK, once those accesses are done, releases the TLBINV that waits, and anything nobody asked for, or malformed, is dropped and recorded. The model's choices: log 84 (which devices a TLBINV waits for), log 35 (the answers for a recipe tile) and log 105 (a failed store is kept for the next op of its class). -/
def Obligations.NativeFlows : Prop :=
  (∀ (s : State) (m : NatMsg),
    let k := m.pa.toNat
    let n := m.size
    let bad := decide (128 ≤ m.aux.toNat) || !m.data.isEmpty
    let means := fun (status : Nat) (bs : List Byte) => Becomes (.rd m) s fun t =>
      t.mem = s.mem ∧ t.cores = s.cores ∧ t.dev.sent = s.dev.sent ++
        [⟨2, s.dev.node, m.src, m.asid, m.tag, 0, m.pa, BitVec.ofNat 12 status, bs⟩]
    (s.natCheck m n bad [0] ≠ 0 → means (s.natCheck m n bad [0]) []) ∧
    (s.natCheck m n bad [0] = 0 → isAgent k = false → s.natAbsent k = false →
      ∀ bs : List Byte, s.engBytes m.agent k n = .ok bs → means 0 bs)) ∧
  (∀ (s : State) (m : NatMsg),
    let k := m.pa.toNat
    let n := m.size
    let bad := decide (128 ≤ m.aux.toNat) || decide (m.data.length < n)
    let means := fun (status : Nat) (t : State) => t.dev.sent.getLast? =
      some ⟨4, s.dev.node, m.src, m.asid, m.tag, 0, m.pa, BitVec.ofNat 12 status, []⟩
    (s.natCheck m n bad (rightsOf .write k) ≠ 0 → Becomes (.wr m) s fun t =>
      means (s.natCheck m n bad (rightsOf .write k)) t ∧ t.mem = s.mem) ∧
    (s.natCheck m n bad (rightsOf .write k) = 0 → isAgent k = false →
      ∀ u : State, s.engPut m.agent k (m.data.take n) = .ok u → u.dev.node = s.dev.node →
      Becomes (.wr m) s fun t => means 0 t ∧ t.mem = u.mem)) ∧
  (∀ (s : State) (m : NatMsg),
    let k := m.pa.toNat
    let wide := decide (m.aux.toNat / 32 % 2 = 1)
    let n := if wide = true then 8 else 4
    let bad := isAgent k || decide (k % n ≠ 0) || decide (m.data.length < 16)
    let arg := fun i : Nat => leNat ((m.data.drop (8 * i)).take n)
    (natAtom m.aux = none → Becomes (.atomMsg m) s fun t => t.mem = s.mem ∧
      t.dev.sent = s.dev.sent ++ [⟨6, s.dev.node, m.src, m.asid, m.tag, 0, m.pa, 3, []⟩]) ∧
    ∀ op : AtomOp, natAtom m.aux = some op → s.natCheck m n bad [0, 1] = 0 →
      ((∃ r : Recipe, s.tileAt k = some r ∧ r.st ≠ .declared) → Becomes (.atomMsg m) s fun t => t.mem = s.mem ∧
        t.dev.sent = s.dev.sent ++ [⟨6, s.dev.node, m.src, m.asid, m.tag, 0, m.pa, 1, []⟩]) ∧
      ((∀ r : Recipe, s.tileAt k = some r → r.st = .declared) →
      (s.hostBias k = true → s.dev.answered (k / 64) true = true) →
      (∀ a ∈ opWords k wide, s.ownerOf a = none) → ∀ bs : List Byte, s.engBytes m.agent k n = .ok bs →
      Becomes (.atomMsg m) s fun t =>
        t.opValue k wide = ((atomNew op (8 * n) (s.opValue k wide) (arg 0) (arg 1)).getD (s.opValue k wide)) % 2 ^ (8 * n) ∧
        t.dev.sent = s.dev.sent ++
          [⟨6, s.dev.node, m.src, m.asid, m.tag, 0, m.pa, 0, leBytes n (s.opValue k wide)⟩])) ∧
  (∀ (s : State) (m : NatMsg),
    let w : Who := ⟨1022, m.src.toNat⟩
    let mine := s.dev.tlbWaits.find? fun t => decide (t.who = w) && decide (t.slot = m.tag.toNat)
    let u := s.startDrop w m.tag.toNat m.pa.toNat [] fun _ => true
    let ack := fun (t : State) (status : BitVec 12) => t.dev.sent = s.dev.sent ++
      [⟨0x0D, s.dev.node, m.src, m.asid, m.tag, 0, m.pa, status, []⟩]
    (m.rsv ≠ 0 ∨ m.aux ≠ 0 ∨ 2 ^ 16 ≤ m.pa.toNat ∨ m.data ≠ [] → Becomes (.tlbinvMsg m) s fun t =>
      ack t 3 ∧ t.mem = s.mem ∧ t.cores = s.cores) ∧
    (m.rsv = 0 → m.aux = 0 → m.pa.toNat < 2 ^ 16 → m.data = [] →
      (mine = none → Becomes (.tlbinvMsg m) s fun t => t.mem = s.mem ∧
        (∀ c ∈ t.cores, ∀ e ∈ c.2.tlb, e.asid ≠ m.pa.toNat) ∧
        (u.dropDone (u.dropWait w m.tag.toNat) = true → ack t 0) ∧
        (u.dropDone (u.dropWait w m.tag.toNat) = false →
          t.dev.sent = s.dev.sent ∧ t.dev.natHeld = s.dev.natHeld ++ [m])) ∧
      (∀ d : TlbWait, mine = some d →
        (s.dropDone d = true → Becomes (.tlbinvMsg m) s fun t => ack t 0 ∧ t.cores = s.cores) ∧
        (s.dropDone d = false → Becomes (.tlbinvMsg m) s fun t =>
          t = s.setDev { s.dev with natHeld := s.dev.natHeld ++ [m] })))) ∧
  (∀ (s : State) (r : NatReq) (x : Wait) (m : NatMsg) (kind : Nat) (i : Instr),
    (kind = 1 ∧ i = .rdrsp m ∨ kind = 3 ∧ i = .wrack m ∨ kind = 5 ∧ i = .atomrsp m) →
    s.dev.natReqs = [r] → r.kind = kind → r.tag = m.tag.toNat → r.dst = m.src.toNat → r.wait = some x →
    x ∈ (s.ctx r.who).asked →
    (∀ n slot kd pa len : Nat, ∀ aux : BitVec 12, ∀ d : List Byte, x = .native slot kd pa len aux d →
      n = m.aux.toNat → m.rsv = 0 → n < 5 →
      (n = 0 → min (if kind = 1 then 128 else if kind = 3 then 0 else 8) r.len ≤ m.data.length) →
      Becomes i s fun t => t.dev.natReqs = [] ∧ t.answered r.who x m.data n ∧ t.mem = s.mem) ∧
    (125000 ≤ (s.dev.cycle - r.sent).toNat → Becomes (.nativeRequestTimeout r.tag) s fun t =>
      t.dev.natReqs = [] ∧ t.answered r.who x [] 3 ∧ t.mem = s.mem)) ∧
  (∀ (s : State) (m : NatMsg) (w : TlbWait), s.dev.tlbWaits = [w] →
    (m.rsv = 0 → m.aux = 0 → m.data = [] → w.acks = [(m.src.toNat, m.tag.toNat)] →
      (w.who.core = 1023 → Becomes (.tlback m) s fun t => t = s.setDev { s.dev with tlbWaits := [] }) ∧
      (w.who.core ≠ 1023 → s.dropDone { w with acks := [] } = true → Becomes (.tlback m) s fun t =>
        t.dev.tlbWaits = [] ∧ ∀ (kind : BitVec 3) (va : Nat), Wait.tlbinv w.slot kind va ∈ (s.ctx w.who).asked →
          t.answered w.who (.tlbinv w.slot kind va) [] 0) ∧
      (w.who.core ≠ 1023 → s.dropDone { w with acks := [] } = false → Becomes (.tlback m) s fun t =>
        t = s.setDev { s.dev with tlbWaits := [{ w with acks := [] }] })) ∧
    (m.rsv ≠ 0 ∨ m.aux ≠ 0 ∨ m.data ≠ [] ∨ (m.src.toNat, m.tag.toNat) ∉ w.acks → exec (.tlback m) s = .next (s.natStray m))) ∧
  ∀ (s : State) (m : NatMsg), Becomes (.unlistedMessage m) s fun t =>
    t = s.log 0 0x11 m.asid.toNat 1023 7 m.kind.toNat ∧ t.mem = s.mem ∧ t.cores = s.cores

/-- A host whose ports are all down is not heard. A host's request outside its own range, or one that an access table turns away, changes no memory, and one to a page in a flip waits. A read of an agent aperture returns the bytes there, and one that would cache a window line is refused; a write there goes on as a store. Under host bias a read is answered with the home's bytes, those of a LOST or uncorrectable word apart, and a write stores its own and leaves the half unregistered and whole; under device bias a half that no core owns is answered, or stored, and registered to the bridge. A snoop is answered from the bridge's copy, which a taking snoop removes. A host's answer to a back-invalidate gives the half's words their value and frees them; a host silent for 125,000 cycles leaves them LOST. An answer to the bridge's own request installs the line it asked for, and an answer to nothing changes nothing. The model's choices: log 85 (the node under which a host meets the access tables) and log 96 (what a host reads of a word that is LOST or uncorrectable). -/
def Obligations.HostFlows : Prop :=
  (∀ (s : State) (m : HostReq),
    let k := m.half * 64
    let bs := m.data.take 64 ++ List.replicate (64 - m.data.length) 0
    let reads := s.hostRefused m 0 = none
    let writes := s.hostRefused m 1 = none
    let halfIs := fun (t : State) (bs : List Byte) => ∀ i : Nat, i < 64 → t.byteAt (k + i) = bs.getD i 0
    (s.hostDown m = true → exec (.hostRead m) s = .next s ∧ exec (.hostWrite m) s = .next s) ∧
    (s.hostDown m = false → isAgent k = true →
      (reads → m.cache = false → Becomes (.hostRead m) s fun t =>
        t = s.answerHost (hostPort m.host.toNat) m.half (s.agentRead k 64)) ∧
      (reads → m.cache = true → Becomes (.hostRead m) s fun t =>
        t.mem = s.mem ∧ t.cores = s.cores ∧ t.dev.answers = s.dev.answers) ∧
      (Becomes (.hostWrite m) s fun t => t = s.post (if k < 2 ^ 43 then
          .windowStore ((k - 2 ^ 39) / 4096) ⟨k % 4096, m.data.take 64, hostNode m, 0, m.cache⟩
        else .mailboxStore ⟨k - 2 ^ 43, m.data.take 64, hostNode m, 0, m.cache⟩))) ∧
    (s.hostDown m = false → isAgent k = false →
    (s.ofHost m = false →
      (Becomes (.hostRead m) s fun t => t.mem = s.mem ∧ t.cores = s.cores ∧ t.dev.answers = s.dev.answers) ∧
      (Becomes (.hostWrite m) s fun t => t.mem = s.mem ∧ t.cores = s.cores ∧ t.dev.owner = s.dev.owner)) ∧
    (s.ofHost m = true → (s.hostRefused m 0).isSome = true → Becomes (.hostRead m) s fun t =>
      t.mem = s.mem ∧ t.cores = s.cores ∧ t.dev.answers = s.dev.answers) ∧
    (s.ofHost m = true → (s.hostRefused m 1).isSome = true → Becomes (.hostWrite m) s fun t =>
      t.mem = s.mem ∧ t.cores = s.cores ∧ t.dev.owner = s.dev.owner) ∧
    (s.ofHost m = true → s.flipping k = true →
      (reads → Becomes (.hostRead m) s fun t => t = s.setDev { s.dev with hostHeld := s.dev.hostHeld ++ [(false, m)] }) ∧
      (writes → Becomes (.hostWrite m) s fun t => t = s.setDev { s.dev with hostHeld := s.dev.hostHeld ++ [(true, m)] })) ∧
    (s.ofHost m = true → s.flipping k = false → k + 64 ≤ 2 ^ 52 →
      (s.hostBias k = true →
        (reads → Becomes (.hostRead m) s fun t =>
          t = (s.noteBadHalf m.half).answerHost (hostPort m.host.toNat) m.half (s.halfBytes m.half) ∧
            (∀ a ∈ halfWords m.half, (s.ownerOf a).map (·.agent) ≠ some ownLost → a ∉ s.dev.badMem → s.hostWord a = s.wordAt a)) ∧
        (writes → Becomes (.hostWrite m) s fun t => halfIs t bs ∧ t.cores = s.cores ∧
          ∀ a ∈ halfWords m.half, t.ownerOf a = none ∧ a ∉ t.dev.badMem)) ∧
      (s.hostBias k = false → s.privAt k = none →
        (∀ a ∈ halfWords m.half, s.inTransit a = false ∧ s.ownerOf a = none) →
        (reads → Becomes (.hostRead m) s fun t => t.mem = s.mem ∧
          (t.dev.answers.getLast?.map (·.1)) = some (hostPort m.host.toNat) ∧
          ∀ a ∈ halfWords m.half, (t.ownerOf a).map (·.agent) = some ownBridge) ∧
        (writes → Becomes (.hostWrite m) s fun t => halfIs t bs ∧
          ∀ a ∈ halfWords m.half, (t.ownerOf a).map (·.agent) = some ownBridge))))) ∧
  (∀ (s : State) (half : Nat) (take : Bool) (l : HostLine),
    Map.get none s.dev.hostLines (hostKey half / 128) = some l → Becomes (.hostSnoop half take) s fun t =>
      t.dev.answers.length = s.dev.answers.length + 1 ∧ t.mem = s.mem ∧
      Map.get none t.dev.hostLines (hostKey half / 128) = if take = true then none else some l) ∧
  (∀ (s : State) (half : Nat) (a : BiSnp), half * 64 + 64 ≤ 2 ^ 52 → s.dev.bisnp = [a] → a.half = half →
    a.serve = none → (∀ k ∈ halfWords half, (s.ownerOf k).map (·.agent) = some ownBridge) →
    (∀ bs : List Byte, Becomes (.bisnpResponse half (some bs)) s fun t =>
      t.dev.bisnp = [] ∧ t.dev.answered half a.inv = true ∧
      ∀ k ∈ halfWords half, t.ownerOf k = none ∧
        t.wordAt k = BitVec.ofNat 32 (leNat ((bs.drop (k - half * 64)).take 4))) ∧
    (Becomes (.bisnpResponse half none) s fun t =>
      t.dev.bisnp = [] ∧ ∀ k ∈ halfWords half, t.ownerOf k = none ∧
        t.wordAt k = (Map.get none s.dev.bridgeHeld k).getD (s.wordAt k)) ∧
    (125000 ≤ (s.dev.cycle - a.sent).toNat → Becomes (.hostSnoopTimeout half) s fun t =>
      t.dev.bisnp = [] ∧ ∀ k ∈ halfWords half, t.ownerOf k = some ⟨ownLost, 0⟩) ∧
    ((s.dev.cycle - a.sent).toNat < 125000 → exec (.hostSnoopTimeout half) s = .next s)) ∧
  ∀ (s : State) (line : Nat) (owned : Bool) (bs : List Byte),
    ((line, owned) ∈ s.dev.hostAsk → Map.get none s.dev.hostLines line = none →
      Becomes (.cxlCacheResponse line owned bs) s fun t =>
        Map.get none t.dev.hostLines line = some ⟨owned, bs.take 128⟩ ∧ (line, owned) ∉ t.dev.hostAsk ∧ t.mem = s.mem) ∧
    ((line, false) ∉ s.dev.hostAsk → (line, true) ∉ s.dev.hostAsk →
      exec (.cxlCacheResponse line owned bs) s = .next s)

/-- A command on a device whose firmware was not verified is refused with reason 6, one whose arguments are malformed with reason 2, and one of an unknown code with reason 1. A well-formed command whose conditions hold completes with status 0 and makes the change that its row of the table names: the address space, the queue, the group, the region, the rights, the partition, the protection, the reservation class, the host range, the scrubbed page, the restored link, the firmware, the node, the route, the queue's status. A flip and an unbinding that must wait read status 2 until they end; a new image is installed only when it verifies; a teardown ends with the address space unbound once every device has dropped its translations, and a table is rewritten once no request that it judges is in flight. The status of a command that must wait reads 2. The model's choices: log 48 (commands run one at a time, and a waiting one stays accepted), log 37 (how a scrubbed page reads back and whether a link trains), log 90 (the size of a quarantined page) and log 17 (what verifies an image). -/
def Obligations.MailboxCommands : Prop :=
  ∀ (s : State) (c : Cmd),
    let ends := fun (c : Cmd) (t : State) (status reason : Nat) => ∀ i : Nat, i < 8 →
      Map.get 0 t.dev.mbox.bytes (256 * c.slot + 128 + i) = (leBytes 8 (status + 256 * reason)).getD i 0
    let means := fun (i : Instr) (listed : List (Nat × Nat)) (ok : Bool) (pre : Prop) (post : State → Prop) =>
      (s.dev.verified = false → Becomes i s fun t => ends c t 1 6) ∧
      (s.dev.verified = true → c.plain listed = false ∨ ok = false → Becomes i s fun t => ends c t 1 2) ∧
      (s.dev.verified = true → c.plain listed = true → ok = true → pre → Becomes i s fun t => ends c t 0 0 ∧ post t)
    let asid := fun (t : State) (a : Nat) => Map.get {} t.dev.asids a
    let queue := fun (t : State) (q : Nat) => Map.get {} t.dev.queues q
    let table := fun t : State => Map.get {} t.dev.tables c.target
    let target := s.targetOk (c.arg 8 1) (c.arg 10 2)
    let mapped := fun node asid : Nat => decide (node * 65536 + asid = c.arg 12 1 * 65536 + c.arg 14 2)
    let grouped := fun node asid : Nat => decide ((Map.get 0 (table s).groups (node * 65536 + asid)).toNat = c.arg 12 1)
    let root := c.arg 16 8
    let pods : BitVec 36 := BitVec.ofNat 36 (c.arg 8 5)
    let page := c.arg 8 8
    let scrub := s.key page
    let lo := c.arg 16 8
    let size := c.arg 24 4 * 2 ^ 30
    let rest := s.dev.ranges.filterMap fun r => if r.1 = c.arg 8 1 then none else r.2
    let dir : Dir := BitVec.ofNat 2 (c.arg 12 1)
    let q := queue s (c.arg 8 2)
    means (.createAsid c) [(8, 2), (16, 8)] (decide (c.arg 8 2 ≠ 0) && decide (root % 65536 = 0) && decide (root < 2 ^ 52))
      ((asid s (c.arg 8 2)).frozen = false ∧ (asid s (c.arg 8 2)).bound = false)
      (fun t => asid t (c.arg 8 2) = { bound := true, root := root }) ∧
    means (.bindQueue c) [(8, 2), (10, 2), (12, 1)] (decide (c.arg 12 1 < 16))
      ((asid s (c.arg 10 2)).frozen = false ∧ (asid s (c.arg 10 2)).bound = true ∧ q.bound = false)
      (fun t => queue t (c.arg 8 2) =
        { bound := true, asid := c.arg 10 2, prio := BitVec.ofNat 4 (c.arg 12 1), window := q.window }) ∧
    means (.mapAccessGroup c) [(8, 1), (10, 2), (12, 1), (14, 2), (16, 1)] target
      ((asid s (c.arg 14 2)).frozen = false ∧ c.arg 12 1 = s.dev.node.toNat ∧ s.tableBusy c.target mapped = false)
      (fun t => Map.get 0 (table t).groups (c.arg 12 1 * 65536 + c.arg 14 2) = BitVec.ofNat 8 (c.arg 16 1)) ∧
    means (.setRegion c) [(8, 1), (10, 2), (16, 1), (24, 8), (32, 8)]
      (target && decide (c.arg 16 1 < 64) && decide (c.arg 24 8 ≤ c.arg 32 8) &&
        !((table s).regions.any fun r => decide (r.1 ≠ c.arg 16 1) && overlaps r.2.1 r.2.2 (c.arg 24 8) (c.arg 32 8)))
      (s.tableBusy c.target (fun _ _ => true) = false) (fun t => Map.get (0, 0) (table t).regions (c.arg 16 1) = (c.arg 24 8, c.arg 32 8)) ∧
    means (.setRights c) [(8, 1), (10, 2), (12, 1), (16, 32)] target (s.tableBusy c.target grouped = false)
      (fun t => Map.get 0 (table t).rights (c.arg 12 1) = BitVec.ofNat 256 (c.arg 16 32)) ∧
    means (.definePartition c) [(8, 5), (16, 2)] (s.podMaskOk (c.arg 8 5))
      (∀ l ∈ s.dev.launches, l.2.tt = [])
      (fun t => t.dev.parts.getLast? = some ⟨pods, c.arg 16 2 + 1, 0, false, 0, 0⟩ ∧
        ∀ p ∈ t.dev.parts.dropLast, p.pods &&& pods = 0) ∧
    means (.setProtection c) [(8, 5), (16, 1)] (s.podMaskOk (c.arg 8 5) && decide (c.arg 16 1 < 2))
      (∀ p ∈ s.boundPods fun _ => true, pods.getLsbD p = false)
      (fun t => t.dev.twin = if c.arg 16 1 = 1 then s.dev.twin ||| pods else s.dev.twin &&& ~~~pods) ∧
    means (.defineReservationClass c) [(8, 2), (10, 2), (16, 8), (24, 8), (32, 8), (40, 8)]
      (decide (1 ≤ c.arg 8 2) && decide (c.arg 8 2 ≤ 4095))
      (s.rateFits (c.arg 8 2) (·.hbm) (c.arg 16 8) 41943040 41943040 = true ∧
        s.rateFits (c.arg 8 2) (·.mesh) (c.arg 24 8) 1048576 512 = true ∧
        s.rateFits (c.arg 8 2) (·.ngufer) (c.arg 32 8) 2936012 64 = true ∧
        s.rateFits (c.arg 8 2) (·.eth) (c.arg 40 8) 1310720 64 = true)
      (fun t => Map.get none t.dev.rclass (c.arg 8 2) =
        some ⟨c.arg 10 2, c.arg 16 8, c.arg 24 8, c.arg 32 8, c.arg 40 8⟩) ∧
    means (.defineHostRange c) [(8, 1), (10, 2), (16, 8), (24, 4)]
      (decide (c.arg 8 1 < 16) && decide (c.arg 10 2 < 4096) && decide (lo % 2 ^ 30 = 0) &&
        decide (1 ≤ c.arg 24 4) && decide (c.arg 24 4 ≤ 512) && decide (lo + size ≤ 2 ^ 39) &&
        rest.all fun r => !overlaps r.base (r.base + r.size) lo (lo + size))
      ((rest.map (·.size)).sum + size ≤ 512 * 10 ^ 9 ∧ ∀ l ∈ s.dev.launches, l.2.strands = 0)
      (fun t => Map.get none t.dev.ranges (c.arg 8 1) = some ⟨BitVec.ofNat 12 (c.arg 10 2), lo, size⟩) ∧
    means (.scrubPage c true) [(8, 8)]
      (s.isLocal page && decide (scrub % 65536 = 0) && s.populated scrub && decide (scrub < 2 ^ 39)) True
      (fun t => ∀ a : Nat, scrub ≤ a → a < scrub + s.pageSize scrub → t.byteAt a = 0 ∧ t.ownerOf a = none ∧ a ∉ t.dev.badMem) ∧
    means (.restoreLink c true) [(8, 1), (10, 2), (12, 1)]
      (if c.arg 8 1 = 0 then decide (c.arg 12 1 < 4) && (s.neighbour (c.arg 10 2) dir).isSome && s.targetOk 2 (c.arg 10 2)
       else decide (c.arg 12 1 = 0) &&
        ((decide (c.arg 8 1 = 1) && decide (c.arg 10 2 < if s.dev.form = 2 then 9 else 36)) ||
         (decide (c.arg 8 1 = 2) && decide (c.arg 10 2 < if s.dev.form = 2 then 8 else 32))))
      (c.arg 8 1 = 0 → (s.core (c.arg 10 2)).waitsLink dir = false ∧
        (s.core ((s.neighbour (c.arg 10 2) dir).getD (c.arg 10 2))).waitsLink (dirBack dir) = false)
      (fun t => (c.arg 8 1 = 0 → (t.core (c.arg 10 2)).link dir = {}) ∧
        (c.arg 8 1 = 1 → c.arg 10 2 ∉ t.dev.portsDown) ∧ (c.arg 8 1 = 2 → c.arg 10 2 ∉ t.dev.ethDown)) ∧
    means (.setNode c) [(8, 1), (10, 2)] true (s.dev.natReqs = [] ∧ s.dev.natHeld = [] ∧ s.landingsOut = false)
      (fun t => t.dev.node = BitVec.ofNat 8 (c.arg 8 1) ∧ t.dev.nodeSet = true ∧
        t.dev.etype = if c.arg 10 2 = 0 then 0x88B5 else BitVec.ofNat 16 (c.arg 10 2)) ∧
    means (.writeRouteEntry c) [(8, 1), (9, 1), (10, 4), (16, 24)]
      (decide (c.arg 9 1 < 8) && decide (BitVec.ofNat 2 (c.arg 9 1 / 2) ≠ 3#2) &&
        ((List.range 4).map fun i => c.arg (10 + i) 1).all fun p =>
          decide (p = 255) || decide (p < s.portsOf (decide (BitVec.ofNat 2 (c.arg 9 1 / 2) = 1#2)))) True
      (fun t => Map.get {} t.dev.routes (c.arg 8 1) = ⟨decide (c.arg 9 1 % 2 = 1), BitVec.ofNat 2 (c.arg 9 1 / 2),
        ((List.range 4).map fun i => c.arg (10 + i) 1).filter (· ≠ 255), (c.bytes.drop 16).take 24⟩) ∧
    means (.queueStatus c) [(8, 2)] true (q.bound = true)
      (fun t => t.dev.queues = s.dev.queues ∧ ∀ i : Nat, i < 8 →
        Map.get 0 t.dev.mbox.bytes (256 * c.slot + 136 + i) =
          (leBytes 8 (q.e.toNat + q.k.toNat * 2 ^ 8 + q.faults.toNat * 2 ^ 32)).getD i 0) ∧
    (s.dev.verified = true → c.plain [(8, 8)] = true → s.isLocal page = true → scrub % 65536 = 0 →
      s.populated scrub = true → scrub < 2 ^ 39 → Becomes (.scrubPage c false) s fun t =>
        ends c t 1 6 ∧ ∀ a : Nat, scrub ≤ a → a < scrub + s.pageSize scrub → t.byteAt a = 0) ∧
    (Becomes (.unknownCommand c) s fun t => ends c t 1 1) ∧
    (∀ verified : Bool, c.plain [(8, 8), (16, 4)] = false → Becomes (.updateFirmware c verified) s fun t => ends c t 1 2 ∧
      t.dev.firmware = s.dev.firmware) ∧
    (c.plain [(8, 8), (16, 4)] = true → s.isLocal page = true →
      ∀ image : List Byte, s.engBytes (dispAgent 0 0) scrub (c.arg 16 4) = .ok image →
      s.verdict c = imageVerifies image ∧ (exec (.updateFirmware c (!imageVerifies image)) s = .next (s.waitCmd c)) ∧
      Becomes (.updateFirmware c (imageVerifies image)) s fun t =>
        (imageVerifies image = true → ends c t 0 0 ∧
          t.dev.firmware = image ∧ t.dev.verified = true ∧ t.dev.bringup = 0) ∧
        (imageVerifies image = false → ends c t 1 6 ∧
          t.dev.firmware = s.dev.firmware ∧ t.dev.verified = s.dev.verified)) ∧
    (s.dev.verified = true → c.plain [(8, 2)] = true → q.bound = true → q.closing = none →
      Becomes (.unbindQueue c) s fun t =>
        (s.queueLive (c.arg 8 2) = true → ends c t 2 0 ∧ (queue t (c.arg 8 2)).closing = some c) ∧
        (s.queueLive (c.arg 8 2) = false → ends c t 0 0 ∧ (queue t (c.arg 8 2)).bound = false)) ∧
    (q.closing = some c → s.queueLive (c.arg 8 2) = false → Becomes (.unbindQueueDone c) s fun t =>
      ends c t 0 0 ∧ (queue t (c.arg 8 2)).bound = false) ∧
    (q.closing ≠ some c ∨ s.queueLive (c.arg 8 2) = true → exec (.unbindQueueDone c) s = .next s) ∧
    (s.dev.verified = true → c.plain [(8, 8), (16, 1)] = true → page % 4096 = 0 → c.arg 16 1 < 2 →
      (s.hostRangeAt page).isSome = true → Becomes (.flipBias c) s fun t =>
        ends c t 2 0 ∧ ∃ f ∈ t.dev.flips, f.page = page ∧ f.toHost = decide (c.arg 16 1 = 1) ∧ f.cmd = c) ∧
    (∀ f : Flip, s.dev.flips = [f] → f.started = true → f.toHost = false →
      Map.get false s.dev.bias (f.page / 4096) = false → Becomes (.biasFlipEnd f.page) s fun t =>
        ends f.cmd t 0 0 ∧ t.dev.flips = [] ∧ Map.get false t.dev.bias (f.page / 4096) = false) ∧
    (∀ f : Flip, s.dev.flips = [f] → f.started = true → f.toHost = false →
      Map.get false s.dev.bias (f.page / 4096) = true → ∀ u : State,
      (s.toDevice f = (u, true) → Becomes (.biasFlipEnd f.page) s fun t => ends f.cmd t 0 0 ∧ t.dev.flips = [] ∧
        Map.get false t.dev.bias (f.page / 4096) = false) ∧
      (s.toDevice f = (u, false) → exec (.biasFlipEnd f.page) s = .next u)) ∧
    (∀ f : Flip, s.dev.flips = [f] → f.started = true → f.toHost = true → ∀ u : State, s.toHost f.page = some u →
      Becomes (.biasFlipEnd f.page) s fun t => ends f.cmd t 0 0 ∧ t.dev.flips = [] ∧
        Map.get false t.dev.bias (f.page / 4096) = true) ∧
    (s.dev.verified = true → c.plain [(8, 2)] = true → c.arg 8 2 ≠ 0 → (asid s (c.arg 8 2)).bound = true →
      (∀ (v : State) (x : Need), (s.beginTear (c.arg 8 2)).quarantineOnce (c.arg 8 2) = (v, some x) →
        exec (.tearDown c) s = .next ((v.waitCmd c).meetNeed (dispAgent 0 (c.arg 8 2)) 0 x)) ∧
      ∀ v : State, (s.beginTear (c.arg 8 2)).quarantineOnce (c.arg 8 2) = (v, none) →
        (v.tlbDropped (c.arg 8 2) = false → exec (.tearDown c) s = .next (v.waitCmd c)) ∧
        ∀ u : State, v.finishTear (c.arg 8 2) = .ok u → Becomes (.tearDown c) s fun t =>
          ends c t 0 0 ∧ t.mem = u.mem ∧ t.cores = u.cores ∧ asid t (c.arg 8 2) = {}) ∧
    (s.dev.verified = true → target = true →
      (c.plain [(8, 1), (10, 2), (16, 1), (24, 8), (32, 8)] = true → c.arg 16 1 < 64 → c.arg 24 8 ≤ c.arg 32 8 →
        ((table s).regions.any fun r => decide (r.1 ≠ c.arg 16 1) && overlaps r.2.1 r.2.2 (c.arg 24 8) (c.arg 32 8)) = false →
        s.tableBusy c.target (fun _ _ => true) = true → exec (.setRegion c) s = .next (s.waitCmd c)) ∧
      (c.plain [(8, 1), (10, 2), (12, 1), (16, 32)] = true → s.tableBusy c.target grouped = true →
        exec (.setRights c) s = .next (s.waitCmd c))) ∧
    (∀ i : Nat, i < 8 →
      Map.get 0 (s.waitCmd c).dev.mbox.bytes (256 * c.slot + 128 + i) = (leBytes 8 2).getD i 0)

/-- The words of the program chapters decode in their slots to the instructions they list, and a word with an unassigned op7, a non-zero unused field or, for each kind of slot, a value of a field that is reserved or not admitted (a LOOPI count of 0, a SEXT width and a PLOG function beyond the last, an LDS size of 3, a zone of 4, a vector code of 72 as a destination or 76 as a source, axis 3, stationary code 11, an empty HCLR set) decodes to nothing. -/
def Obligations.DecodeWords : Prop :=
  let g : Guard := ⟨0, false⟩
  decodeSlot 1 0x02020418 = some (.add g 4 2 3) ∧
  decodeSlot 2 0x38028C01 = some (.sext g 5 6 1) ∧
  decodeSlot 1 0x56049800 = some (.cmpi g 1 1 12 0) ∧
  decodeSlot 3 0x02010279 = some (.ld g 2 1 3 3 1) ∧
  decodeSlot 4 0x06038C33 = some (.st g 7 6 1 2 3) ∧
  decodeSlot 3 0x16005000 = some (.wbr g 2 0) ∧
  decodeSlot 0 0x0E002001 = some (.loopi g 0 16 1) ∧
  decodeSlot 0 0x22000005 = some (.trap g 5) ∧
  decodeSlot 0 0x24000000 = some (.tret g) ∧
  decodeSlot 10 0x02100000 = some (.pacq g 1) ∧
  decodeSlot 1 0x00000000 = none ∧ decodeSlot 0 0x24000001 = none ∧ decodeSlot 8 0xFE000000 = none ∧
  decodeSlot 0 0x0E000001 = none ∧
  decodeSlot 1 0x38028C03 = none ∧ decodeSlot 1 0x58030000 = none ∧
  decodeSlot 3 0x04000018 = none ∧ decodeSlot 3 0x42000004 = none ∧ decodeSlot 3 0x56000003 = none ∧
  decodeSlot 5 0x02120000 = none ∧ decodeSlot 5 0x0200004C = none ∧
  decodeSlot 8 0x02002600 = none ∧
  decodeSlot 9 0x02000C00 = none ∧
  decodeSlot 10 0x08000016 = none ∧ decodeSlot 10 0x0C160000 = none ∧ decodeSlot 10 0x18000000 = none

/-- For every slot op whose operands are well-formed, decoding the word that encodes it gives it back, with every operand; the two A slots, the two M slots and the three X slots decode alike, and no other slot exists. -/
def Obligations.EncodeDecode : Prop :=
  (∀ i : Instr, slotKind i < 11 → i.wf = true → decodeSlot (slotKind i) (encode i) = some i) ∧
  ∀ w : Word, decodeSlot 2 w = decodeSlot 1 w ∧ decodeSlot 4 w = decodeSlot 3 w ∧
    decodeSlot 6 w = decodeSlot 5 w ∧ decodeSlot 7 w = decodeSlot 5 w ∧ ∀ n : Nat, 11 ≤ n → decodeSlot n w = none

/-- A word that a slot's decoder accepts decodes to a well-formed op of that slot's kind, and encoding that op gives the word back, so that no two words decode to one op and no bit of a word is ignored. -/
def Obligations.DecodeThenEncode : Prop :=
  ∀ (n : Nat) (w : Word) (i : Instr), decodeSlot n w = some i →
    i.wf = true ∧ encode i = w ∧ slotKind i < 11 ∧ decodeSlot (slotKind i) w = some i

/-- The guard of a slot word stands in its bits [24:22] and its inversion in bit [21]; p0 reads true. An op whose guard, so read, is false leaves the machine as it was and only closes its bundle when it is the last, whatever its op7 and body hold, a reserved word among them; and it adds no fault, no wait and no result to the issue; a guard predicate that is poisoned is consumed instead (R354). -/
def Obligations.GuardsThatAreFalse : Prop :=
  (∀ (n : Nat) (w : Word),
    guardOfInstr (slotInstr n w) = ⟨w.extractLsb' 22 3, w.getLsbD 21⟩) ∧
  (∀ (s : State) (g : Guard), s.guardOk g = (readP s.regs g.p != g.neg)) ∧
  (∀ r : Regs, readP r 0 = true) ∧
  ∀ (s : State) (n : Nat) (w : Word), s.guardPoison (slotInstr n w) = false →
    s.guardOk (guardOfInstr (slotInstr n w)) = false → exec (slotInstr n w) s = .next s.shut

/-- When a core's turn comes and the context it chooses has a bundle of one op at its program counter, and the op's word decodes, the step is exec of that instruction in the state in which the context has begun to issue, with the yield, the prefetch and the passing of time around it. The word of a literal bundle of one op is the two code words after its header. On a core that leads a pair of a twin-protected launch whose signatures differ the step is exec of the op and then what the difference does. When an event's turn comes the step is exec of the event in the state without it, but that a message which the ports drop comes to nothing. The model's choices: log 5 (which of the possible moves is made), logs 8 and 9 (the time that passes with a step) and logs 60 and 88 (the signatures of a pair). -/
def Obligations.StepRunsDecoded : Prop :=
  (∀ (s : State) (core x n : Nat) (w : Word) (i : Instr) (pc succ : Addr) (stop : Bool),
    let u := s.served core
    let b := u.beginIssue ⟨core, x⟩
    let v := b.setRegs { b.regs with pc := pc }
    let v := v.setCur { v.cur with ops := [(n, w, i)], stop := stop, succ := succ }
    s.dev.power = true → s.dueTimer = none → s.chooseMove s.moves = some (.issue core) →
    u.choose core ((u.ready core).map (·.1)) = some x → b.me.slice = none → b.me.branch = none →
    b.myCore.fetch b.isRegrow b.regs.pc = .bundle pc [(n, w, slotInstr n w)] stop succ → decodeSlot n w = some i →
    v.bundleFault [(n, w, i)] = none → v.runs n = true →
    let around := fun t : State => ((t.settleYield ⟨core, x⟩ ((u.ready core).map (·.1))).prefetch ⟨core, x⟩).pass
    ∀ t : State, exec i (v.atSlot (n, w, i) v.twinMismatch) = .next t →
      step s = .next (around (if v.twinMismatch then v.closeTwin t else t))) ∧
  (∀ (p : List Byte) (j n : Nat) (pc succ : Addr),
    let h := pktWord p (j + 1) + pktWord p (j + 2) * 2 ^ 16
    let w : Word := BitVec.ofNat 32 (pktWord p (j + 3) + pktWord p (j + 4) * 2 ^ 16)
    headerOk h = true → maskSlots h = [n] → j + 4 < 32 →
    (∀ i : Nat, i < 4 → pktStart p (j + 1 + i) = false) →
    litBundle p j pc succ = .bundle pc [(n, w, slotInstr n w)] (h.testBit 11) succ) ∧
  ∀ (s : State) (i : Instr), s.dev.power = true → s.dueTimer = none → s.chooseMove s.moves = some (.event i) →
    let u : State := { s with pending := s.pending.erase i }
    (u.messageDropped i = true → step s = .next u.pass) ∧
    ∀ t : State, u.messageDropped i = false → exec i u = .next t → step s = .next t.pass

/-- A result of latency L in a context's queue leaves its register as it was for the L − 1 context-cycles after its own, and is in its register after L, scalars, predicates and vectors alike, with nothing else changed; in handler mode the vector side stands still. s0 reads zero and p0 reads true, and writes to them are discarded. -/
def Obligations.ResultsTakeTheirLatency : Prop :=
  let after := fun (n : Nat) (r : Regs) => Nat.repeat (tickRegs false) n r
  (∀ (r : Regs) (d : BitVec 6) (x : Dword) (L n : Nat), d ≠ 0 → 1 ≤ L → r.vqueue = [] →
    r.queue = [⟨BitVec.ofNat 8 d.toNat, L, x, 0⟩] →
    (n < L → ∀ a : BitVec 6, readS (after n r) a = readS r a) ∧
    (L ≤ n → readS (after n r) d = x ∧ ∀ a : BitVec 6, a ≠ d → readS (after n r) a = readS r a) ∧
    (∀ p : BitVec 3, readP (after n r) p = readP r p) ∧ (after n r).tile = r.tile ∧ (after n r).fflags = r.fflags) ∧
  (∀ (r : Regs) (d : BitVec 3) (b : Bool) (n : Nat), d ≠ 0 → r.vqueue = [] →
    r.queue = [⟨BitVec.ofNat 8 (0x80 + d.toNat), 1, (if b = true then 1 else 0), 0⟩] → 1 ≤ n →
    readP (after n r) d = b ∧ (∀ p : BitVec 3, p ≠ d → readP (after n r) p = readP r p) ∧ (after n r).s = r.s) ∧
  (∀ (r : Regs) (d c : BitVec 7) (x : VReg) (fl : BitVec 7) (L n : Nat), d.toNat < 72 → c.toNat < 72 → 1 ≤ L →
    r.queue = [] → r.vqueue = [⟨d, L, x, fl, none⟩] →
    (n < L → readV (after n r) c = readV r c ∧ (after n r).fflags = r.fflags) ∧
    (L ≤ n → readV (after n r) c = (if c = d then x else readV r c) ∧ (after n r).fflags = r.fflags ||| fl)) ∧
  (∀ r : Regs, (tickRegs true r).v = r.v ∧ (tickRegs true r).o = r.o ∧ (tickRegs true r).vqueue = r.vqueue ∧
    (tickRegs true r).ccyc = r.ccyc + 1) ∧
  ∀ (r : Regs) (x : Dword) (b : Bool), readS r 0 = 0 ∧ readP r 0 = true ∧ writeS r 0 x = r ∧ writeP r 0 b = r

/-- A bundle one of whose ops blocks, no poison being consumed, changes no register of any context, no program counter and no byte of memory, whatever its other ops did, unless the op in M0 goes ahead of an M1 request as log entry 25 says; the context's list of waits is then what the bundle waits for, each once. -/
def Obligations.BlockedBundlesLeaveNoTrace : Prop :=
  (∀ s : State, s.cur.poison = none → s.cur.waits ≠ [] →
    s.closeBundle.mem = s.mem ∧ (∀ w : Who, (s.closeBundle.ctx w).regs = (s.ctx w).regs) ∧
    (s.closeBundle.ctx s.who).waits = s.cur.waits.eraseDups) ∧
  ∀ s t : State, t.cur.poison = none → t.cur.waits ≠ [] → t.m0First = false →
    (s.closeSlots t).mem = s.mem ∧ (∀ w : Who, ((s.closeSlots t).ctx w).regs = (s.ctx w).regs) ∧
    ∀ x ∈ t.cur.waits, x ∈ ((s.closeSlots t).ctx t.who).waits

/-- A fault of a context that is not masked and has a trap vector saves the cause, its information and the bundle's address, sets SV, MASK and H, and sends the context to its trap vector with nothing in flight; a masked one other than TRETF, or one without a vector, stops the context with DFAULT, its registers kept, freezes the die's black box, and is reported to the management core. The results of the slots that did not fault are in the image, and the handler reads those due at the next bundle; the faulting slot stands in the replay mask. TRET after a fault of fetch or decode gives back every scalar, predicate, loop counter, tile register, region and control register, the program counter, the trap registers and the status. -/
def Obligations.TrapsAndReturns : Prop :=
  (∀ (s : State) (w : Who) (cause : Byte) (info : Dword) (pc : Addr) (img live : Regs) (res : Resume),
    let c := s.ctx w
    let b := (s.core w.core).binding
    let t := s.takeTrap w cause info pc img live res
    w.ctx ≠ 4 → c.slice = none → cause ≠ cSEGERR →
    ((c.mask = false ∨ cause = cTRETF) → b.trapVec ≠ 0 →
      (t.ctx w).h = true ∧ (t.ctx w).mask = true ∧ (t.ctx w).sv = true ∧ (t.ctx w).trapcause = cause ∧
      (t.ctx w).trapinfo = info ∧ (t.ctx w).trappc = pc ∧ (t.ctx w).regs.pc = BitVec.ofNat 52 (b.image + 2 * b.trapVec) ∧
      (t.ctx w).regs.queue = [] ∧ (∀ n : BitVec 6, readS (t.ctx w).regs n = readS live n) ∧ t.mem = s.mem ∧
      ∀ v : Who, v ≠ w → t.ctx v = s.ctx v) ∧
    ((c.mask = true ∧ cause ≠ cTRETF) ∨ b.trapVec = 0 →
      (t.ctx w).life = .stopped ∧ (t.ctx w).trapcause = cDFAULT ∧ (t.ctx w).regs = c.regs ∧ t.mem = s.mem ∧
      (Map.get {} t.dev.bbox (coreDie w.core)).frozen = true ∧ Told.doubleFault w ∈ t.dev.told)) ∧
  (∀ (s : State) (slot : Nat) (cause : Byte) (info : Dword) (d : BitVec 6) (x : Dword) (L : Nat),
    let t := s.slotTrap
    s.cur.faults = [(slot, cause, info)] → slot < 11 → cause ≠ cSEGERR → cause ≠ cSWTRAP → s.cur.ctx ≠ 4 →
    s.me.slice = none → s.me.mask = false → s.myCore.binding.trapVec ≠ 0 → s.cur.fin = 0 → s.cur.replay = false →
    s.cur.late = [] → s.cur.feeds = [] → s.cur.vouts = [] → s.regs.queue = [] → d ≠ 0 → 1 ≤ L → L < 32 →
    s.cur.outs = [⟨BitVec.ofNat 8 d.toNat, L, x, 0⟩] →
    t.me.trapcause = cause ∧ t.me.trapinfo = info ∧ t.me.trappc = s.regs.pc ∧
    imgWord t.me.snap 8 % 2 ^ 11 = 2 ^ slot ∧ imageQueue t.me.snap = [⟨BitVec.ofNat 8 d.toNat, L, x, 0⟩] ∧
    readS t.me.regs d = (if L = 1 then x else readS s.regs d) ∧
    ∀ n : BitVec 6, n ≠ d → readS t.me.regs n = readS s.regs n) ∧
  ∀ (s : State) (w : Who) (cause : Byte) (info : Dword) (pc : Addr) (r : Regs) (res : Resume),
    let u := (s.enterTrap w cause info pc r r res).returnFromTrap w
    let q := (u.ctx w).regs
    res.mask = 0 → res.addr = pc.toNat → cause ≠ cSWTRAP → r.shape &&& 0xC0 = 0 →
    (∀ n : Nat, n < 16 → Map.get 0 r.region n &&& 0x7F = 0) →
    q.pc = pc ∧ (∀ n : BitVec 6, readS q n = readS r n) ∧ (∀ n : BitVec 3, readP q n = readP r n) ∧
    (∀ n : Nat, n < 4 → Map.get 0 q.lc n = Map.get 0 r.lc n) ∧
    (∀ n : Nat, n < 32 → Map.get {} q.tile n = Map.get {} r.tile n) ∧
    (∀ n : Nat, n < 16 → Map.get 0 q.region n = Map.get 0 r.region n) ∧
    q.ccyc = r.ccyc ∧ q.rmode = r.rmode ∧ q.lfsr = r.lfsr ∧ q.fflags = r.fflags ∧ q.shape = r.shape ∧
    q.syncattr = r.syncattr ∧ q.invsel = r.invsel ∧ q.pg = r.pg ∧ q.snapbase = r.snapbase ∧ q.v = r.v ∧ q.o = r.o ∧
    (u.ctx w).h = (s.ctx w).h ∧ (u.ctx w).mask = (s.ctx w).mask ∧ (u.ctx w).hold = (s.ctx w).hold ∧ (u.ctx w).sv = false ∧
    (u.ctx w).trapcause = cause ∧ (u.ctx w).trapinfo = info ∧ (u.ctx w).trappc = pc ∧ u.mem = s.mem

/-- After reset the cycle count is 0, every access table grants nothing, no core is bound, no context runs, memory lists nothing, and the state is settled. Without power, and with no power applied, no step is made. The model's choices: log 7 (memory that nothing has written), log 6 (registers without a reset value of the spec), log 17 (the reset state stands for a device whose image has been verified) and log 77 (a step without power). -/
def Obligations.ResetAndPower : Prop :=
  State.reset.settled = true ∧ State.reset.dev.cycle = 0 ∧ State.reset.dev.power = true ∧ State.reset.mem = [] ∧
  State.reset.dev.queues = [] ∧ State.reset.dev.launches = [] ∧
  (∀ n node asid a r : Nat, (Map.get {} State.reset.dev.tables n).right node asid a r = false) ∧
  (∀ n : Nat, (State.reset.core n).bind = none) ∧ (∀ w : Who, (State.reset.ctx w).life = .idle) ∧
  ∀ s : State, s.dev.power = false → (∀ p : PowerUp, Instr.powerOn p ∉ s.pending) → step s = .fault .unpowered

/-- From any state whose memory lists its bytes in rising order and lists none that reads zero anyway, every instruction, event and command that goes on leaves such a memory, and every step leaves such a memory with no issue in progress. The form is the model's own. -/
def Obligations.MemoryStaysCanonical : Prop :=
  (∀ (i : Instr) (s t : State), Memory.wf s.mem = true → exec i s = .next t → Memory.wf t.mem = true) ∧
  ∀ s t : State, Memory.wf s.mem = true → step s = .next t → t.settled = true

/-- A word written at its home is read back and no other byte changes; bytes written into the pool are read back and no other byte of it changes; a tile that is zeroed reads zero and nothing else changes; each keeps the canonical form, and two memories in that form that read alike at every address are the same list. -/
def Obligations.MemoryReadsAndWrites : Prop :=
  (∀ (s : State) (k : Nat) (w : Word), k + 4 ≤ 2 ^ 52 →
    (s.putWord k w).wordAt k = w ∧ (∀ a : Nat, a < k ∨ k + 4 ≤ a → (s.putWord k w).byteAt a = s.byteAt a) ∧
    (Memory.wf s.mem = true → Memory.wf (s.putWord k w).mem = true)) ∧
  (∀ (c : Core) (o : Nat) (bs : List Byte),
    (c.poolWrite o bs).poolRead o bs.length = bs ∧
    (∀ a : Nat, a < o ∨ o + bs.length ≤ a → (c.poolWrite o bs).poolByte a = c.poolByte a) ∧
    (Map.wf 0 c.pool = true → Map.wf 0 (c.poolWrite o bs).pool = true)) ∧
  (∀ (s : State) (tile a : Nat),
    (inTile tile a = true → (s.zeroTile tile).byteAt a = 0) ∧
    (inTile tile a = false → (s.zeroTile tile).byteAt a = s.byteAt a) ∧
    (Memory.wf s.mem = true → Memory.wf (s.zeroTile tile).mem = true)) ∧
  ∀ m n : List Host.Cell, Memory.wf m = true → Memory.wf n = true →
    (∀ a : Nat, Map.get unwritten m a = Map.get unwritten n a) → m = n

/-- An ADD, SUB, AND, OR, XOR, ANDN, SHL, SHR, SRA, MIN, MAX, MINU, MAXU, SEL, ADDX, CLZ, POPC, MUL, MULH, MULHU, MAD, BFX, BFI, ADDI, ANDI, ORI, XORI, MOVI, MOVC of a register that its context has, CMP, CMPI or PLOG alone in its bundle goes on to a state in which memory, the device, what is in flight, every other context, the core's pool, plane, caches and channels, the trap registers, the tile, region, shape, rounding, flag and draw registers are as before, and of the scalars and predicates only its destination may differ. A vector op that delivers its result leaves the same, of the vectors only its destination aside. -/
def Obligations.RegisterOpsFrame : Prop :=
  let alone := fun s : State =>
    s.cur.more = false ∧ s.cur.waits = [] ∧ s.cur.faults = [] ∧ s.cur.poison = none ∧ s.cur.outs = [] ∧
    s.cur.vouts = [] ∧ s.cur.late = [] ∧ s.cur.feeds = [] ∧ s.cur.jump = none ∧ s.cur.fin = 0 ∧ s.cur.replay = false ∧
    s.cur.lfsr = s.regs.lfsr ∧ s.me.slice = none ∧ s.regs.queue = [] ∧ s.regs.vqueue = []
  let quiet := fun s t : State =>
    let k := s.myCore
    let k' := t.core s.cur.core
    let r := s.regs
    let r' := (t.ctx s.who).regs
    let c := s.me
    let c' := t.ctx s.who
    t.mem = s.mem ∧ t.dev = s.dev ∧ t.pending = s.pending ∧ (∀ w : Who, w ≠ s.who → t.ctx w = s.ctx w) ∧
    k'.pool = k.pool ∧ k'.plane = k.plane ∧ k'.links = k.links ∧ k'.l1 = k.l1 ∧ k'.tlb = k.tlb ∧ k'.pkts = k.pkts ∧
    k'.score = k.score ∧ k'.cb = k.cb ∧ k'.cnext = k.cnext ∧ k'.cdone = k.cdone ∧ k'.cerr = k.cerr ∧
    k'.xfers = k.xfers ∧ k'.zones = k.zones ∧ k'.ab = k.ab ∧ k'.bind = k.bind ∧
    c'.h = c.h ∧ c'.mask = c.mask ∧ c'.sv = c.sv ∧ c'.hold = c.hold ∧ c'.trapcause = c.trapcause ∧
    c'.trapinfo = c.trapinfo ∧ c'.trappc = c.trappc ∧ c'.snap = c.snap ∧ c'.gqt = c.gqt ∧ c'.gqAddr = c.gqAddr ∧
    c'.gqData = c.gqData ∧ c'.acc = c.acc ∧ c'.mq = c.mq ∧ c'.fences = c.fences ∧ c'.seg = c.seg ∧
    r'.tile = r.tile ∧ r'.region = r.region ∧ r'.shape = r.shape ∧ r'.rmode = r.rmode ∧ r'.syncattr = r.syncattr ∧
    r'.invsel = r.invsel ∧ r'.pg = r.pg ∧ r'.feed = r.feed ∧ r'.snapbase = r.snapbase ∧ r'.q = r.q
  (∀ (g : Guard) (d a b : BitVec 6) (p : BitVec 3) (n : BitVec 9) (o : BitVec 15),
    ∀ i ∈ [Instr.add g d a b, .sub g d a b, .and g d a b, .or g d a b, .xor g d a b, .andn g d a b, .shl g d a b,
      .shr g d a b, .sra g d a b, .min g d a b, .max g d a b, .minu g d a b, .maxu g d a b, .sel g d a b p,
      .addx g d a b p, .clz g d a, .popc g d a, .mul g d a b, .mulh g d a b, .mulhu g d a b, .mad g d a b,
      .bfx g d a b, .bfi g d a b, .addi g d a n, .andi g d a n, .ori g d a n, .xori g d a n, .movi g d o, .movc g d n],
    ∀ s : State, alone s → s.opRuns i = true → (i = .movc g d n → s.isS = true → cregNotS n.toNat = false) →
    Becomes i s fun t => quiet s t ∧
      (t.ctx s.who).regs.p = s.regs.p ∧ (t.ctx s.who).regs.v = s.regs.v ∧ (t.ctx s.who).regs.o = s.regs.o ∧
      (t.ctx s.who).regs.fflags = s.regs.fflags ∧ (t.ctx s.who).regs.lfsr = s.regs.lfsr ∧
      ∀ x : BitVec 6, x ≠ d → readS (t.ctx s.who).regs x = readS s.regs x) ∧
  (∀ (g : Guard) (d p q : BitVec 3) (a b : BitVec 6) (f : BitVec 3) (n : BitVec 9),
    ∀ i : Instr, (i = .cmp g d f a b ∨ i = .cmpi g d f a n ∨ (i = .plog g d f p q ∧ f.toNat < 6)) →
    ∀ s : State, alone s → s.opRuns i = true → Becomes i s fun t => quiet s t ∧
      (t.ctx s.who).regs.s = s.regs.s ∧ (t.ctx s.who).regs.v = s.regs.v ∧ (t.ctx s.who).regs.o = s.regs.o ∧
      (t.ctx s.who).regs.fflags = s.regs.fflags ∧ (t.ctx s.who).regs.lfsr = s.regs.lfsr ∧
      ∀ x : BitVec 3, x ≠ d → readP (t.ctx s.who).regs x = readP s.regs x) ∧
  ∀ (s : State) (i : Instr) (d : BitVec 7) (x : VReg) (L : Nat) (fl : Flags) (lv : Option Nat),
    alone s → d.toNat < 72 → 1 ≤ L →
    let t := s.afterOp i (.done (s.deliverV d x L fl lv))
    quiet s t ∧ (t.ctx s.who).regs.s = s.regs.s ∧ (t.ctx s.who).regs.p = s.regs.p ∧
    ∀ c : BitVec 7, c.toNat < 72 → c ≠ d → readV (t.ctx s.who).regs c = readV s.regs c
end

