-- ==== Sys2Proof/Laws/Map.lean ====
section
/-! SUPPORT. What reading, writing, removing and filtering do to a table, that each keeps the canonical form, and
that two tables in that form that read alike are the same list. -/

namespace Sys2Proof.Machine

variable {α : Type}

@[simp] theorem Map.get_nil (d : α) (k : Nat) : Map.get d ([] : Map α) k = d := rfl

@[simp] theorem Map.get_cons (d : α) (j : Nat) (w : α) (t : Map α) (k : Nat) :
    Map.get d ((j, w) :: t) k = if j = k then w else Map.get d t k := rfl

@[simp] theorem Map.get_del (d : α) (m : Map α) (j k : Nat) :
    Map.get d (Map.del m j) k = if k = j then d else Map.get d m k := by
  induction m with
  | nil => simp [Map.del]
  | cons p t ih =>
    obtain ⟨i, w⟩ := p
    by_cases hj : i = j
    · subst hj
      rw [Map.del, if_pos rfl, ih]
      by_cases hk : k = i
      · simp [hk]
      · simp [hk, Ne.symm hk]
    · by_cases hk : i = k
      · subst hk
        simp [Map.del, hj]
      · simp [Map.del, hj, hk, ih]

@[simp] theorem Map.get_ins (d : α) (m : Map α) (j : Nat) (v : α) (k : Nat) :
    Map.get d (Map.ins m j v) k = if k = j then v else Map.get d m k := by
  induction m with
  | nil => simp [Map.ins, eq_comm]
  | cons p t ih =>
    obtain ⟨i, w⟩ := p
    unfold Map.ins
    split
    · by_cases hk : i = k
      · subst hk
        simp [show i ≠ j by omega]
      · simp [hk, ih]
    · split
      · rename_i h
        subst h
        by_cases hk : k = i
        · simp [hk]
        · simp [hk, Ne.symm hk]
      · by_cases hk : k = j
        · simp [hk]
        · simp [hk, Ne.symm hk]

variable [DecidableEq α]

/-- A read after a write: the value written, or what stood there. -/
theorem Map.get_put (d : α) (m : Map α) (j : Nat) (v : α) (k : Nat) :
    Map.get d (Map.put d m j v) k = if k = j then v else Map.get d m k := by
  unfold Map.put
  split <;> simp_all

@[simp] theorem Map.get_put_same (d : α) (m : Map α) (k : Nat) (v : α) :
    Map.get d (Map.put d m k v) k = v := by simp [Map.get_put]

theorem Map.get_put_ne (d : α) (m : Map α) {j k : Nat} (v : α) (h : k ≠ j) :
    Map.get d (Map.put d m j v) k = Map.get d m k := by simp [Map.get_put, h]

/-! ## The canonical form -/

theorem Map.wfFrom_mono {d : α} {m : Map α} {lo lo' : Nat} (h : lo' ≤ lo) (hm : Map.wfFrom d lo m = true) :
    Map.wfFrom d lo' m = true := by
  cases m with
  | nil => rfl
  | cons p t => simp only [Map.wfFrom, Bool.and_eq_true, decide_eq_true_eq] at hm ⊢; exact ⟨⟨by omega, hm.1.2⟩, hm.2⟩

theorem Map.wfFrom_del {d : α} {m : Map α} (k : Nat) : ∀ {lo : Nat}, Map.wfFrom d lo m = true →
    Map.wfFrom d lo (Map.del m k) = true := by
  induction m with
  | nil => simp [Map.del, Map.wfFrom]
  | cons p t ih =>
    intro lo h
    simp only [Map.wfFrom, Bool.and_eq_true, decide_eq_true_eq] at h
    unfold Map.del
    split
    · exact ih (Map.wfFrom_mono (by omega) h.2)
    · simp only [Map.wfFrom, Bool.and_eq_true, decide_eq_true_eq]
      exact ⟨h.1, ih h.2⟩

theorem Map.wfFrom_ins {d : α} {m : Map α} (k : Nat) (v : α) (hv : v ≠ d) : ∀ {lo : Nat}, lo ≤ k →
    Map.wfFrom d lo m = true → Map.wfFrom d lo (Map.ins m k v) = true := by
  induction m with
  | nil => intro lo hk _; simp [Map.ins, Map.wfFrom, hk, hv]
  | cons p t ih =>
    intro lo hk h
    simp only [Map.wfFrom, Bool.and_eq_true, decide_eq_true_eq] at h
    unfold Map.ins
    split
    · simp only [Map.wfFrom, Bool.and_eq_true, decide_eq_true_eq]
      exact ⟨h.1, ih (by omega) h.2⟩
    · split
      · subst_vars
        simp only [Map.wfFrom, Bool.and_eq_true, decide_eq_true_eq]
        exact ⟨⟨hk, hv⟩, h.2⟩
      · simp only [Map.wfFrom, Bool.and_eq_true, decide_eq_true_eq]
        exact ⟨⟨hk, hv⟩, ⟨by omega, h.1.2⟩, h.2⟩

/-- A write keeps the canonical form. -/
theorem Map.wf_put {d : α} {m : Map α} (k : Nat) (v : α) (h : Map.wf d m = true) :
    Map.wf d (Map.put d m k v) = true := by
  unfold Map.put
  split
  · exact Map.wfFrom_del k h
  · exact Map.wfFrom_ins k v ‹_› (Nat.zero_le k) h

theorem Map.wfFrom_filter {d : α} {m : Map α} (f : Nat × α → Bool) : ∀ {lo : Nat}, Map.wfFrom d lo m = true →
    Map.wfFrom d lo (m.filter f) = true := by
  induction m with
  | nil => simp [Map.wfFrom]
  | cons p t ih =>
    intro lo h
    simp only [Map.wfFrom, Bool.and_eq_true, decide_eq_true_eq] at h
    by_cases hf : f p = true
    · simp only [List.filter_cons_of_pos hf, Map.wfFrom, Bool.and_eq_true, decide_eq_true_eq]
      exact ⟨h.1, ih h.2⟩
    · simp only [List.filter_cons_of_neg hf]
      exact ih (Map.wfFrom_mono (by omega) h.2)

/-- Dropping entries keeps the canonical form. -/
theorem Map.wf_filter {d : α} {m : Map α} (f : Nat × α → Bool) (h : Map.wf d m = true) :
    Map.wf d (m.filter f) = true := Map.wfFrom_filter f h

omit [DecidableEq α] in
/-- Dropping the entries of some keys makes those read as unlisted and leaves the rest. -/
theorem Map.get_filter (d : α) (m : Map α) (f : Nat → Bool) (k : Nat) :
    Map.get d (m.filter fun p => f p.1) k = if f k then Map.get d m k else d := by
  induction m with
  | nil => simp
  | cons p t ih =>
    obtain ⟨i, w⟩ := p
    by_cases hf : f i = true
    · by_cases hk : i = k
      · subst hk; simp [hf]
      · simp [hf, hk, ih]
    · by_cases hk : i = k
      · subst hk; simp [hf, ih]
      · simp [hf, hk, ih]

/-- Below its lower bound a table reads as unlisted. -/
theorem Map.get_below {d : α} {m : Map α} : ∀ {lo k : Nat}, Map.wfFrom d lo m = true → k < lo →
    Map.get d m k = d := by
  induction m with
  | nil => simp
  | cons p t ih =>
    intro lo k h hk
    simp only [Map.wfFrom, Bool.and_eq_true, decide_eq_true_eq] at h
    rw [Map.get_cons, if_neg (by omega)]
    exact ih h.2 (by omega)

theorem Map.ext_from {d : α} {m n : Map α} : ∀ {lo : Nat}, Map.wfFrom d lo m = true → Map.wfFrom d lo n = true →
    (∀ k : Nat, Map.get d m k = Map.get d n k) → m = n := by
  induction m generalizing n with
  | nil =>
    intro lo _ hn he
    cases n with
    | nil => rfl
    | cons q u =>
      simp only [Map.wfFrom, Bool.and_eq_true, decide_eq_true_eq] at hn
      have hq := he q.1
      rw [show q = (q.1, q.2) from rfl, Map.get_cons, if_pos rfl] at hq
      exact absurd hq.symm hn.1.2
  | cons p t ih =>
    intro lo hm hn he
    simp only [Map.wfFrom, Bool.and_eq_true, decide_eq_true_eq] at hm
    cases n with
    | nil =>
      have hp := he p.1
      rw [show p = (p.1, p.2) from rfl, Map.get_cons, if_pos rfl] at hp
      exact absurd hp hm.1.2
    | cons q u =>
      obtain ⟨i, a⟩ := p
      obtain ⟨j, b⟩ := q
      simp only [Map.wfFrom, Bool.and_eq_true, decide_eq_true_eq] at hn hm
      have hij : i = j := by
        rcases Nat.lt_trichotomy i j with h | h | h
        · have hi := he i
          rw [Map.get_cons, if_pos rfl, Map.get_cons, if_neg (by omega), Map.get_below hn.2 (by omega)] at hi
          exact absurd hi hm.1.2
        · exact h
        · have hj := he j
          rw [Map.get_cons, if_neg (by omega), Map.get_cons, if_pos rfl, Map.get_below hm.2 (by omega)] at hj
          exact absurd hj.symm hn.1.2
      subst hij
      have hab : a = b := by simpa using he i
      subst hab
      congr 1
      refine ih hm.2 hn.2 fun k => ?_
      have hk := he k
      rw [Map.get_cons, Map.get_cons] at hk
      by_cases h : i = k
      · rw [Map.get_below hm.2 (by omega), Map.get_below hn.2 (by omega)]
      · simpa [h] using hk

/-! ## Bytes in a row -/

theorem wf_putBytes {m : Map Byte} (o : Nat) (bs : List Byte) (h : Map.wf 0 m = true) :
    Map.wf 0 (putBytes m o bs) = true := by
  induction bs generalizing m o with
  | nil => exact h
  | cons b t ih => exact ih (o + 1) (Map.wf_put o b h)

/-- A byte after bytes have been written in a row from `o`. -/
theorem get_putBytes (m : Map Byte) (o : Nat) (bs : List Byte) (k : Nat) :
    Map.get 0 (putBytes m o bs) k = if o ≤ k ∧ k < o + bs.length then bs.getD (k - o) 0 else Map.get 0 m k := by
  induction bs generalizing m o with
  | nil => simp [putBytes, show ¬ (o ≤ k ∧ k < o) by omega]
  | cons b t ih =>
    simp only [putBytes, ih, List.length_cons, Map.get_put]
    by_cases hk : k = o
    · subst hk
      rw [if_neg (by omega), if_pos rfl, if_pos (by omega)]
      simp
    · by_cases h : o + 1 ≤ k ∧ k < o + 1 + t.length
      · rw [if_pos h, if_pos (by omega), show k - o = (k - (o + 1)) + 1 by omega, List.getD_cons_succ]
      · rw [if_neg h, if_neg hk, if_neg (by omega)]

end Sys2Proof.Machine
end

