-- ==== Sys2Proof/Laws/State.lean ====
section
/-! SUPPORT. What every field of the state, and every core and context, reads after an update of another. -/

namespace Sys2Proof.Machine

/-! ## The fields of the state after an update -/
@[simp] theorem State.setDev_dev (s : State) (d : Device) : (s.setDev d).dev = d := rfl
@[simp] theorem State.setDev_cores (s : State) (d : Device) : (s.setDev d).cores = s.cores := rfl
@[simp] theorem State.setDev_mem (s : State) (d : Device) : (s.setDev d).mem = s.mem := rfl
@[simp] theorem State.setDev_cur (s : State) (d : Device) : (s.setDev d).cur = s.cur := rfl
@[simp] theorem State.setDev_pending (s : State) (d : Device) : (s.setDev d).pending = s.pending := rfl
@[simp] theorem State.setDev_tick (s : State) (d : Device) : (s.setDev d).tick = s.tick := rfl

@[simp] theorem State.setCur_dev (s : State) (c : Cursor) : (s.setCur c).dev = s.dev := rfl
@[simp] theorem State.setCur_cores (s : State) (c : Cursor) : (s.setCur c).cores = s.cores := rfl
@[simp] theorem State.setCur_mem (s : State) (c : Cursor) : (s.setCur c).mem = s.mem := rfl
@[simp] theorem State.setCur_cur (s : State) (c : Cursor) : (s.setCur c).cur = c := rfl
@[simp] theorem State.setCur_pending (s : State) (c : Cursor) : (s.setCur c).pending = s.pending := rfl
@[simp] theorem State.setCur_tick (s : State) (c : Cursor) : (s.setCur c).tick = s.tick := rfl

@[simp] theorem State.post_dev (s : State) (i : Instr) : (s.post i).dev = s.dev := rfl
@[simp] theorem State.post_cores (s : State) (i : Instr) : (s.post i).cores = s.cores := rfl
@[simp] theorem State.post_mem (s : State) (i : Instr) : (s.post i).mem = s.mem := rfl
@[simp] theorem State.post_cur (s : State) (i : Instr) : (s.post i).cur = s.cur := rfl
@[simp] theorem State.post_pending (s : State) (i : Instr) : (s.post i).pending = s.pending ++ [i] := rfl
@[simp] theorem State.post_tick (s : State) (i : Instr) : (s.post i).tick = s.tick := rfl

@[simp] theorem State.postAll_dev (s : State) (l : List Instr) : (s.postAll l).dev = s.dev := rfl
@[simp] theorem State.postAll_cores (s : State) (l : List Instr) : (s.postAll l).cores = s.cores := rfl
@[simp] theorem State.postAll_mem (s : State) (l : List Instr) : (s.postAll l).mem = s.mem := rfl
@[simp] theorem State.postAll_cur (s : State) (l : List Instr) : (s.postAll l).cur = s.cur := rfl
@[simp] theorem State.postAll_pending (s : State) (l : List Instr) : (s.postAll l).pending = s.pending ++ l := rfl
@[simp] theorem State.postAll_tick (s : State) (l : List Instr) : (s.postAll l).tick = s.tick := rfl

@[simp] theorem State.setCore_dev (s : State) (n : Nat) (c : Core) : (s.setCore n c).dev = s.dev := rfl
@[simp] theorem State.setCore_cores (s : State) (n : Nat) (c : Core) : (s.setCore n c).cores = Map.put {} s.cores n c := rfl
@[simp] theorem State.setCore_mem (s : State) (n : Nat) (c : Core) : (s.setCore n c).mem = s.mem := rfl
@[simp] theorem State.setCore_cur (s : State) (n : Nat) (c : Core) : (s.setCore n c).cur = s.cur := rfl
@[simp] theorem State.setCore_pending (s : State) (n : Nat) (c : Core) : (s.setCore n c).pending = s.pending := rfl
@[simp] theorem State.setCore_tick (s : State) (n : Nat) (c : Core) : (s.setCore n c).tick = s.tick := rfl

@[simp] theorem State.setCtx_dev (s : State) (w : Who) (k : Ctx) : (s.setCtx w k).dev = s.dev := rfl
@[simp] theorem State.setCtx_mem (s : State) (w : Who) (k : Ctx) : (s.setCtx w k).mem = s.mem := rfl
@[simp] theorem State.setCtx_cur (s : State) (w : Who) (k : Ctx) : (s.setCtx w k).cur = s.cur := rfl
@[simp] theorem State.setCtx_pending (s : State) (w : Who) (k : Ctx) : (s.setCtx w k).pending = s.pending := rfl
@[simp] theorem State.setCtx_tick (s : State) (w : Who) (k : Ctx) : (s.setCtx w k).tick = s.tick := rfl

@[simp] theorem State.setMyCore_dev (s : State) (c : Core) : (s.setMyCore c).dev = s.dev := rfl
@[simp] theorem State.setMyCore_mem (s : State) (c : Core) : (s.setMyCore c).mem = s.mem := rfl
@[simp] theorem State.setMyCore_cur (s : State) (c : Core) : (s.setMyCore c).cur = s.cur := rfl
@[simp] theorem State.setMyCore_pending (s : State) (c : Core) : (s.setMyCore c).pending = s.pending := rfl
@[simp] theorem State.setMyCore_tick (s : State) (c : Core) : (s.setMyCore c).tick = s.tick := rfl

@[simp] theorem State.setMe_dev (s : State) (k : Ctx) : (s.setMe k).dev = s.dev := rfl
@[simp] theorem State.setMe_mem (s : State) (k : Ctx) : (s.setMe k).mem = s.mem := rfl
@[simp] theorem State.setMe_cur (s : State) (k : Ctx) : (s.setMe k).cur = s.cur := rfl
@[simp] theorem State.setMe_pending (s : State) (k : Ctx) : (s.setMe k).pending = s.pending := rfl
@[simp] theorem State.setMe_tick (s : State) (k : Ctx) : (s.setMe k).tick = s.tick := rfl

@[simp] theorem State.setRegs_dev (s : State) (r : Regs) : (s.setRegs r).dev = s.dev := rfl
@[simp] theorem State.setRegs_mem (s : State) (r : Regs) : (s.setRegs r).mem = s.mem := rfl
@[simp] theorem State.setRegs_cur (s : State) (r : Regs) : (s.setRegs r).cur = s.cur := rfl
@[simp] theorem State.setRegs_pending (s : State) (r : Regs) : (s.setRegs r).pending = s.pending := rfl
@[simp] theorem State.setRegs_tick (s : State) (r : Regs) : (s.setRegs r).tick = s.tick := rfl

/-! ## The fields of a core after a context of it has been set -/

@[simp] theorem Core.setCtx_bind (c : Core) (x : Nat) (k : Ctx) : (c.setCtx x k).bind = c.bind := rfl
@[simp] theorem Core.setCtx_asid (c : Core) (x : Nat) (k : Ctx) : (c.setCtx x k).asid = c.asid := rfl
@[simp] theorem Core.setCtx_pool (c : Core) (x : Nat) (k : Ctx) : (c.setCtx x k).pool = c.pool := rfl
@[simp] theorem Core.setCtx_pkts (c : Core) (x : Nat) (k : Ctx) : (c.setCtx x k).pkts = c.pkts := rfl
@[simp] theorem Core.setCtx_plane (c : Core) (x : Nat) (k : Ctx) : (c.setCtx x k).plane = c.plane := rfl
@[simp] theorem Core.setCtx_links (c : Core) (x : Nat) (k : Ctx) : (c.setCtx x k).links = c.links := rfl
@[simp] theorem Core.setCtx_score (c : Core) (x : Nat) (k : Ctx) : (c.setCtx x k).score = c.score := rfl
@[simp] theorem Core.setCtx_tileq (c : Core) (x : Nat) (k : Ctx) : (c.setCtx x k).tileq = c.tileq := rfl
@[simp] theorem Core.setCtx_retires (c : Core) (x : Nat) (k : Ctx) : (c.setCtx x k).retires = c.retires := rfl
@[simp] theorem Core.setCtx_nextKey (c : Core) (x : Nat) (k : Ctx) : (c.setCtx x k).nextKey = c.nextKey := rfl
@[simp] theorem Core.setCtx_cb (c : Core) (x : Nat) (k : Ctx) : (c.setCtx x k).cb = c.cb := rfl
@[simp] theorem Core.setCtx_cnext (c : Core) (x : Nat) (k : Ctx) : (c.setCtx x k).cnext = c.cnext := rfl
@[simp] theorem Core.setCtx_cdone (c : Core) (x : Nat) (k : Ctx) : (c.setCtx x k).cdone = c.cdone := rfl
@[simp] theorem Core.setCtx_cerr (c : Core) (x : Nat) (k : Ctx) : (c.setCtx x k).cerr = c.cerr := rfl
@[simp] theorem Core.setCtx_xfers (c : Core) (x : Nat) (k : Ctx) : (c.setCtx x k).xfers = c.xfers := rfl
@[simp] theorem Core.setCtx_xdone (c : Core) (x : Nat) (k : Ctx) : (c.setCtx x k).xdone = c.xdone := rfl
@[simp] theorem Core.setCtx_zones (c : Core) (x : Nat) (k : Ctx) : (c.setCtx x k).zones = c.zones := rfl
@[simp] theorem Core.setCtx_lzq (c : Core) (x : Nat) (k : Ctx) : (c.setCtx x k).lzq = c.lzq := rfl
@[simp] theorem Core.setCtx_ab (c : Core) (x : Nat) (k : Ctx) : (c.setCtx x k).ab = c.ab := rfl
@[simp] theorem Core.setCtx_l1 (c : Core) (x : Nat) (k : Ctx) : (c.setCtx x k).l1 = c.l1 := rfl
@[simp] theorem Core.setCtx_lineGrant (c : Core) (x : Nat) (k : Ctx) : (c.setCtx x k).lineGrant = c.lineGrant := rfl
@[simp] theorem Core.setCtx_regOut (c : Core) (x : Nat) (k : Ctx) : (c.setCtx x k).regOut = c.regOut := rfl
@[simp] theorem Core.setCtx_tlb (c : Core) (x : Nat) (k : Ctx) : (c.setCtx x k).tlb = c.tlb := rfl
@[simp] theorem Core.setCtx_svc (c : Core) (x : Nat) (k : Ctx) : (c.setCtx x k).svc = c.svc := rfl
@[simp] theorem Core.setCtx_depth (c : Core) (x : Nat) (k : Ctx) : (c.setCtx x k).depth = c.depth := rfl
@[simp] theorem Core.setCtx_wheel (c : Core) (x : Nat) (k : Ctx) : (c.setCtx x k).wheel = c.wheel := rfl
@[simp] theorem Core.setCtx_claims (c : Core) (x : Nat) (k : Ctx) : (c.setCtx x k).claims = c.claims := rfl
@[simp] theorem Core.setCtx_ageing (c : Core) (x : Nat) (k : Ctx) : (c.setCtx x k).ageing = c.ageing := rfl
@[simp] theorem Core.setCtx_errcnt (c : Core) (x : Nat) (k : Ctx) : (c.setCtx x k).errcnt = c.errcnt := rfl
@[simp] theorem Core.setCtx_poison (c : Core) (x : Nat) (k : Ctx) : (c.setCtx x k).poison = c.poison := rfl
@[simp] theorem Core.setCtx_dead (c : Core) (x : Nat) (k : Ctx) : (c.setCtx x k).dead = c.dead := rfl
@[simp] theorem Core.setCtx_port (c : Core) (x : Nat) (k : Ctx) : (c.setCtx x k).port = c.port := rfl
@[simp] theorem Core.setCtx_order (c : Core) (x : Nat) (k : Ctx) : (c.setCtx x k).order = c.order := rfl
@[simp] theorem Core.setCtx_yielded (c : Core) (x : Nat) (k : Ctx) : (c.setCtx x k).yielded = c.yielded := rfl
@[simp] theorem Core.setCtx_runStart (c : Core) (x : Nat) (k : Ctx) : (c.setCtx x k).runStart = c.runStart := rfl
@[simp] theorem Core.setCtx_unit (c : Core) (x : Nat) (k : Ctx) : (c.setCtx x k).unit = c.unit := rfl
@[simp] theorem Core.setCtx_steps (c : Core) (x : Nat) (k : Ctx) : (c.setCtx x k).steps = c.steps := rfl
@[simp] theorem Core.setCtx_fetched (c : Core) (x : Nat) (k : Ctx) : (c.setCtx x k).fetched = c.fetched := rfl
@[simp] theorem Core.setCtx_classStart (c : Core) (x : Nat) (k : Ctx) : (c.setCtx x k).classStart = c.classStart := rfl
@[simp] theorem Core.setCtx_classDone (c : Core) (x : Nat) (k : Ctx) : (c.setCtx x k).classDone = c.classDone := rfl
@[simp] theorem Core.setCtx_lastSlice (c : Core) (x : Nat) (k : Ctx) : (c.setCtx x k).lastSlice = c.lastSlice := rfl

/-! ## Cores and contexts after an update -/

@[simp] theorem Core.ctx_setCtx (c : Core) (x y : Nat) (k : Ctx) :
    (c.setCtx x k).ctx y = if y = x then k else c.ctx y := Map.get_put ..

@[simp] theorem State.core_setCore (s : State) (n m : Nat) (c : Core) :
    (s.setCore n c).core m = if m = n then c else s.core m := Map.get_put ..

@[simp] theorem State.core_setDev (s : State) (d : Device) (n : Nat) : (s.setDev d).core n = s.core n := rfl
@[simp] theorem State.core_setCur (s : State) (c : Cursor) (n : Nat) : (s.setCur c).core n = s.core n := rfl
@[simp] theorem State.core_post (s : State) (i : Instr) (n : Nat) : (s.post i).core n = s.core n := rfl
@[simp] theorem State.core_postAll (s : State) (l : List Instr) (n : Nat) : (s.postAll l).core n = s.core n := rfl
@[simp] theorem State.ctx_setDev (s : State) (d : Device) (w : Who) : (s.setDev d).ctx w = s.ctx w := rfl
@[simp] theorem State.ctx_setCur (s : State) (c : Cursor) (w : Who) : (s.setCur c).ctx w = s.ctx w := rfl
@[simp] theorem State.ctx_post (s : State) (i : Instr) (w : Who) : (s.post i).ctx w = s.ctx w := rfl
@[simp] theorem State.ctx_postAll (s : State) (l : List Instr) (w : Who) : (s.postAll l).ctx w = s.ctx w := rfl

@[simp] theorem State.core_setCtx (s : State) (w : Who) (k : Ctx) (n : Nat) :
    (s.setCtx w k).core n = if n = w.core then (s.core w.core).setCtx w.ctx k else s.core n := by
  simp [State.setCtx]

/-- A context after a context has been set: the one set, or what stood there. -/
@[simp] theorem State.ctx_setCtx (s : State) (w v : Who) (k : Ctx) :
    (s.setCtx w k).ctx v = if v = w then k else s.ctx v := by
  obtain ⟨vc, vx⟩ := v
  obtain ⟨wc, wx⟩ := w
  by_cases hc : vc = wc
  · subst hc
    by_cases hx : vx = wx <;> simp [State.ctx, hx]
  · simp [State.ctx, hc]

theorem State.ctx_setCore (s : State) (n : Nat) (c : Core) (w : Who) :
    (s.setCore n c).ctx w = if w.core = n then c.ctx w.ctx else s.ctx w := by
  by_cases h : w.core = n <;> simp [State.ctx, h]

@[simp] theorem State.who_setDev (s : State) (d : Device) : (s.setDev d).who = s.who := rfl
@[simp] theorem State.who_setCore (s : State) (n : Nat) (c : Core) : (s.setCore n c).who = s.who := rfl
@[simp] theorem State.who_setCtx (s : State) (w : Who) (k : Ctx) : (s.setCtx w k).who = s.who := rfl
@[simp] theorem State.who_setMyCore (s : State) (c : Core) : (s.setMyCore c).who = s.who := rfl
@[simp] theorem State.who_setMe (s : State) (k : Ctx) : (s.setMe k).who = s.who := rfl
@[simp] theorem State.who_setRegs (s : State) (r : Regs) : (s.setRegs r).who = s.who := rfl
@[simp] theorem State.who_post (s : State) (i : Instr) : (s.post i).who = s.who := rfl

@[simp] theorem State.me_setMe (s : State) (k : Ctx) : (s.setMe k).me = k := by
  simp [State.me, State.setMe]

@[simp] theorem State.me_setDev (s : State) (d : Device) : (s.setDev d).me = s.me := rfl
@[simp] theorem State.me_post (s : State) (i : Instr) : (s.post i).me = s.me := rfl

@[simp] theorem State.me_setRegs (s : State) (r : Regs) : (s.setRegs r).me = { s.me with regs := r } :=
  State.me_setMe ..

@[simp] theorem State.regs_setRegs (s : State) (r : Regs) : (s.setRegs r).regs = r := by simp [State.regs]

@[simp] theorem State.regs_setMe (s : State) (k : Ctx) : (s.setMe k).regs = k.regs := by simp [State.regs]

@[simp] theorem State.myCore_setMyCore (s : State) (c : Core) : (s.setMyCore c).myCore = c := by
  simp [State.myCore, State.setMyCore]

theorem State.ctx_setMe (s : State) (k : Ctx) (w : Who) :
    (s.setMe k).ctx w = if w = s.who then k else s.ctx w := State.ctx_setCtx ..

theorem State.ctx_setRegs (s : State) (r : Regs) (w : Who) :
    (s.setRegs r).ctx w = if w = s.who then { s.me with regs := r } else s.ctx w := State.ctx_setMe ..

theorem State.ctx_setMyCore (s : State) (c : Core) (w : Who) :
    (s.setMyCore c).ctx w = if w.core = s.cur.core then c.ctx w.ctx else s.ctx w := State.ctx_setCore ..

/-- A core after registers of the issuing context have been set: only that context of it differs. -/
theorem State.core_setRegs (s : State) (r : Regs) (n : Nat) :
    (s.setRegs r).core n = if n = s.cur.core then s.myCore.setCtx s.cur.ctx { s.me with regs := r } else s.core n :=
  State.core_setCtx ..

/-! ## After a result has been entered -/

@[simp] theorem State.deliver_dev (s : State) (d : BitVec 6) (x : Dword) (lat : Nat) : (s.deliver d x lat).dev = s.dev := by
  unfold State.deliver; split <;> rfl
@[simp] theorem State.deliver_cores (s : State) (d : BitVec 6) (x : Dword) (lat : Nat) : (s.deliver d x lat).cores = s.cores := by
  unfold State.deliver; split <;> rfl
@[simp] theorem State.deliver_mem (s : State) (d : BitVec 6) (x : Dword) (lat : Nat) : (s.deliver d x lat).mem = s.mem := by
  unfold State.deliver; split <;> rfl
@[simp] theorem State.deliver_pending (s : State) (d : BitVec 6) (x : Dword) (lat : Nat) : (s.deliver d x lat).pending = s.pending := by
  unfold State.deliver; split <;> rfl
@[simp] theorem State.deliver_tick (s : State) (d : BitVec 6) (x : Dword) (lat : Nat) : (s.deliver d x lat).tick = s.tick := by
  unfold State.deliver; split <;> rfl
@[simp] theorem State.deliverP_dev (s : State) (d : BitVec 3) (b : Bool) : (s.deliverP d b).dev = s.dev := by
  unfold State.deliverP; split <;> rfl
@[simp] theorem State.deliverP_cores (s : State) (d : BitVec 3) (b : Bool) : (s.deliverP d b).cores = s.cores := by
  unfold State.deliverP; split <;> rfl
@[simp] theorem State.deliverP_mem (s : State) (d : BitVec 3) (b : Bool) : (s.deliverP d b).mem = s.mem := by
  unfold State.deliverP; split <;> rfl
@[simp] theorem State.deliverP_pending (s : State) (d : BitVec 3) (b : Bool) : (s.deliverP d b).pending = s.pending := by
  unfold State.deliverP; split <;> rfl
@[simp] theorem State.deliverP_tick (s : State) (d : BitVec 3) (b : Bool) : (s.deliverP d b).tick = s.tick := by
  unfold State.deliverP; split <;> rfl
@[simp] theorem State.deliverLc_dev (s : State) (l : BitVec 2) (x : Dword) : (s.deliverLc l x).dev = s.dev := rfl
@[simp] theorem State.deliverLc_cores (s : State) (l : BitVec 2) (x : Dword) : (s.deliverLc l x).cores = s.cores := rfl
@[simp] theorem State.deliverLc_mem (s : State) (l : BitVec 2) (x : Dword) : (s.deliverLc l x).mem = s.mem := rfl
@[simp] theorem State.deliverLc_pending (s : State) (l : BitVec 2) (x : Dword) : (s.deliverLc l x).pending = s.pending := rfl
@[simp] theorem State.deliverLc_tick (s : State) (l : BitVec 2) (x : Dword) : (s.deliverLc l x).tick = s.tick := rfl
@[simp] theorem State.deliverT_dev (s : State) (t : BitVec 5) (x : Dword) : (s.deliverT t x).dev = s.dev := rfl
@[simp] theorem State.deliverT_cores (s : State) (t : BitVec 5) (x : Dword) : (s.deliverT t x).cores = s.cores := rfl
@[simp] theorem State.deliverT_mem (s : State) (t : BitVec 5) (x : Dword) : (s.deliverT t x).mem = s.mem := rfl
@[simp] theorem State.deliverT_pending (s : State) (t : BitVec 5) (x : Dword) : (s.deliverT t x).pending = s.pending := rfl
@[simp] theorem State.deliverT_tick (s : State) (t : BitVec 5) (x : Dword) : (s.deliverT t x).tick = s.tick := rfl
@[simp] theorem State.deliverV_dev (s : State) (d : BitVec 7) (x : VReg) (lat : Nat) (fl : Flags) (lv : Option Nat) : (s.deliverV d x lat fl lv).dev = s.dev := rfl
@[simp] theorem State.deliverV_cores (s : State) (d : BitVec 7) (x : VReg) (lat : Nat) (fl : Flags) (lv : Option Nat) : (s.deliverV d x lat fl lv).cores = s.cores := rfl
@[simp] theorem State.deliverV_mem (s : State) (d : BitVec 7) (x : VReg) (lat : Nat) (fl : Flags) (lv : Option Nat) : (s.deliverV d x lat fl lv).mem = s.mem := rfl
@[simp] theorem State.deliverV_pending (s : State) (d : BitVec 7) (x : VReg) (lat : Nat) (fl : Flags) (lv : Option Nat) : (s.deliverV d x lat fl lv).pending = s.pending := rfl
@[simp] theorem State.deliverV_tick (s : State) (d : BitVec 7) (x : VReg) (lat : Nat) (fl : Flags) (lv : Option Nat) : (s.deliverV d x lat fl lv).tick = s.tick := rfl
@[simp] theorem State.writeLate_dev (s : State) (n : Nat) (x : Dword) : (s.writeLate n x).dev = s.dev := rfl
@[simp] theorem State.writeLate_cores (s : State) (n : Nat) (x : Dword) : (s.writeLate n x).cores = s.cores := rfl
@[simp] theorem State.writeLate_mem (s : State) (n : Nat) (x : Dword) : (s.writeLate n x).mem = s.mem := rfl
@[simp] theorem State.writeLate_pending (s : State) (n : Nat) (x : Dword) : (s.writeLate n x).pending = s.pending := rfl
@[simp] theorem State.writeLate_tick (s : State) (n : Nat) (x : Dword) : (s.writeLate n x).tick = s.tick := rfl

end Sys2Proof.Machine
end

