-- ==== Sys2Proof/Laws/Bundle.lean ====
section
/-! SUPPORT. What an op's answer puts into the issue, the four ways a bundle closes, and the ways a fault is
taken: each shared operation's cases, said once. -/

namespace Sys2Proof.Machine

/-! ## What an op's answer puts into the issue -/

/-- An answer other than an effect changes the issue alone, but for a refusal's black-box event and a fault that
leaves something done. -/
theorem State.absorb_trap (s : State) (i : Instr) (c : Byte) (x : Dword) :
    s.absorb i (.trap c x) = s.setCur { (s.takeDraws i).cur with faults := s.cur.faults ++ [(s.cur.slot, c, x)] } := rfl

theorem State.absorb_block (s : State) (i : Instr) (w : List Wait) :
    s.absorb i (.block w) = s.setCur { (s.takeDraws i).cur with
      waits := s.cur.waits ++ w, waiting := s.cur.waiting ++ [s.cur.slot] } := rfl

theorem State.absorb_poison (s : State) (i : Instr) (a b : Nat) :
    s.absorb i (.poison a b) = s.setCur { (s.takeDraws i).cur with poison := some (s.cur.poison.getD (a, b)) } := rfl

theorem State.absorb_done (s t : State) (i : Instr) :
    s.absorb i (.done t) = t.setCur { t.cur with
      draws := s.cur.draws ++ [(s.cur.slot, s.cur.lfsr)], lfsr := lfsrSteps (s.drawsOf i) s.cur.lfsr } := rfl

@[simp] theorem State.takeDraws_dev (s : State) (i : Instr) : (s.takeDraws i).dev = s.dev := rfl
@[simp] theorem State.takeDraws_cores (s : State) (i : Instr) : (s.takeDraws i).cores = s.cores := rfl
@[simp] theorem State.takeDraws_mem (s : State) (i : Instr) : (s.takeDraws i).mem = s.mem := rfl
@[simp] theorem State.takeDraws_pending (s : State) (i : Instr) : (s.takeDraws i).pending = s.pending := rfl

/-- Away from the issue, the machine is as the body left it. -/
theorem State.absorb_outside (s t : State) (i : Instr) :
    (s.absorb i (.done t)).dev = t.dev ∧ (s.absorb i (.done t)).cores = t.cores ∧
    (s.absorb i (.done t)).mem = t.mem ∧ (s.absorb i (.done t)).pending = t.pending ∧
    (s.absorb i (.done t)).tick = t.tick := ⟨rfl, rfl, rfl, rfl, rfl⟩

/-! ## How a bundle closes (R97, R100, R336, R358) -/

/-- Every slot commits. -/
theorem State.closeBundle_commit {s : State} (hp : s.cur.poison = none) (hw : s.cur.waits = [])
    (hf : s.cur.faults = []) : s.closeBundle = s.commitBundle := by
  simp [State.closeBundle, State.judgeFirst, hp, hw, hf]

/-- Some slot faults, and the bundle's branch, if it has one, has been judged. -/
theorem State.closeBundle_trap {s : State} (hp : s.cur.poison = none) (hw : s.cur.waits = [])
    (hf : s.cur.faults ≠ []) (hj : s.judgeFirst = none) : s.closeBundle = s.slotTrap := by
  simp [State.closeBundle, hp, hw, hf, hj]

/-- A bundle without a taken branch is judged at once. -/
theorem State.judgeFirst_none {s : State} (h : s.cur.judge = none) : s.judgeFirst = none := by
  unfold State.judgeFirst
  split <;> simp_all

/-- Some op blocks. -/
theorem State.closeBundle_block {s : State} (hp : s.cur.poison = none) (hw : s.cur.waits ≠ []) :
    s.closeBundle = s.blocks := by
  simp [State.closeBundle, hp, hw]

/-- Poison is consumed. -/
theorem State.closeBundle_poison {s : State} {src pa : Nat} (hp : s.cur.poison = some (src, pa)) :
    s.closeBundle = s.consume src pa := by
  simp [State.closeBundle, hp]

/-- With more ops to come the bundle stays open. -/
theorem State.shut_more {s : State} (h : s.cur.more = true) : s.shut = s := by simp [State.shut, h]

theorem State.shut_last {s : State} (h : s.cur.more = false) : s.shut = s.closeBundle := by simp [State.shut, h]

/-! ## How a fault is taken (R291, R336 to R338, R344) -/

/-- An unmasked fault with a trap vector enters it. -/
theorem State.takeTrap_enters {s : State} {w : Who} {cause : Byte} (info : Dword) (pc : Addr) (img live : Regs)
    (res : Resume) (hs : w.ctx ≠ 4) (hl : (s.ctx w).slice = none) (hc : cause ≠ cSEGERR)
    (hm : (s.ctx w).mask = false ∨ cause = cTRETF) (hv : (s.core w.core).binding.trapVec ≠ 0) :
    s.takeTrap w cause info pc img live res = s.enterTrap w cause info pc img live res := by
  rcases hm with hm | hm
  · simp [State.takeTrap, hs, hl, hc, hm, hv]
  · subst hm
    simp [State.takeTrap, hs, hl, hc, hv]

/-- A masked fault, or one without a trap vector, is a double fault. -/
theorem State.takeTrap_double {s : State} {w : Who} {cause : Byte} (info : Dword) (pc : Addr) (img live : Regs)
    (res : Resume) (hs : w.ctx ≠ 4) (hl : (s.ctx w).slice = none)
    (hm : ((s.ctx w).mask = true ∧ cause ≠ cTRETF) ∨ (s.core w.core).binding.trapVec = 0) :
    s.takeTrap w cause info pc img live res = s.doubleFault w cause info := by
  rcases hm with ⟨hm, hn⟩ | hm <;> simp_all [State.takeTrap]

@[simp] theorem State.haltPlane_mem (s : State) (w : Who) : (s.haltPlane w).mem = s.mem := rfl

/-- Halting a plane leaves every context as it was. -/
@[simp] theorem State.haltPlane_ctx (s : State) (w v : Who) : (s.haltPlane w).ctx v = s.ctx v := by
  unfold State.haltPlane State.ctx
  rw [State.core_setCore]
  split
  · next h => rw [h]; rfl
  · rfl

/-- What stands in the trapped context when the handler begins. -/
theorem State.enterTrap_ctx (s : State) (w : Who) (cause : Byte) (info : Dword) (pc : Addr) (img live : Regs)
    (res : Resume) :
    let t := (s.enterTrap w cause info pc img live res).ctx w
    t.h = true ∧ t.mask = true ∧ t.sv = true ∧ t.trapcause = cause ∧ t.trapinfo = info ∧ t.trappc = pc ∧
    t.regs = { live with pc := (s.core w.core).binding.trapPc, queue := [], grp := {} } ∧
    t.waits = [] ∧ t.asked = [] ∧ t.replies = [] := by
  simp [State.enterTrap, State.logCtx, State.log]

/-- A trap leaves memory and every other context alone. -/
theorem State.enterTrap_frame (s : State) (w v : Who) (cause : Byte) (info : Dword) (pc : Addr)
    (img live : Regs)
    (res : Resume) (h : v ≠ w) :
    (s.enterTrap w cause info pc img live res).mem = s.mem ∧
    (s.enterTrap w cause info pc img live res).ctx v = s.ctx v := by
  simp [State.enterTrap, State.logCtx, State.log, h]

/-! ## Results on their way (R100, R104) -/

/-- A scalar delivered to s0 is discarded; any other joins the issue's results. -/
theorem State.deliver_cur (s : State) (d : BitVec 6) (x : Dword) (lat : Nat) :
    (s.deliver d x lat).cur = { s.cur with
      outs := if d = 0#6 then s.cur.outs else s.cur.outs ++ [⟨BitVec.ofNat 8 d.toNat, lat, x, 0⟩] } := by
  unfold State.deliver
  split <;> simp_all

/-- What an op's results leave in the context's registers when its bundle commits (R100). -/
theorem State.enterResults_regs {s : State} (hl : s.cur.late = []) (hf : s.cur.feeds = []) :
    s.enterResults.regs = { s.regs with
      queue := s.regs.queue ++ s.cur.outs
      vqueue := s.regs.vqueue ++ s.cur.vouts
      lfsr := s.cur.lfsr } := by
  simp [State.enterResults, hl, hf]

/-- Results that no control register governs touch nothing but the context's registers. -/
theorem State.enterResults_frame {s : State} (hl : s.cur.late = []) :
    s.enterResults.dev = s.dev ∧ s.enterResults.mem = s.mem ∧ s.enterResults.pending = s.pending ∧
    s.enterResults.cur = s.cur ∧ ∀ w : Who, w ≠ s.who → s.enterResults.ctx w = s.ctx w := by
  refine ⟨?_, ?_, ?_, ?_, fun w h => ?_⟩ <;> simp [State.enterResults, hl]
  simp [State.ctx_setRegs, h]

end Sys2Proof.Machine
end

