-- ==== Sys2Proof/Laws/Encode.lean ====
section
/-! SUPPORT. Reading a field out of a word put together from fields, for the round trips of R48 to R60. -/

namespace Sys2Proof

/-- A field above the low part lies in the high part. -/
theorem extract_append_hi {n m : Nat} (x : BitVec n) (y : BitVec m) (lo len : Nat) (h : m ≤ lo) :
    (x ++ y).extractLsb' lo len = x.extractLsb' (lo - m) len := by
  apply BitVec.eq_of_getLsbD_eq
  intro i hi
  simp only [BitVec.getLsbD_extractLsb', BitVec.getLsbD_append]
  simp [show ¬ lo + i < m by omega, show lo + i - m = lo - m + i by omega]

/-- A field within the low part lies there. -/
theorem extract_append_lo {n m : Nat} (x : BitVec n) (y : BitVec m) (lo len : Nat) (h : lo + len ≤ m) :
    (x ++ y).extractLsb' lo len = y.extractLsb' lo len := by
  apply BitVec.eq_of_getLsbD_eq
  intro i hi
  simp only [BitVec.getLsbD_extractLsb', BitVec.getLsbD_append]
  simp [show lo + i < m by omega]

/-- A field of all the bits is the whole. -/
theorem extract_whole {n : Nat} (x : BitVec n) : x.extractLsb' 0 n = x := by
  apply BitVec.eq_of_getLsbD_eq
  intro i hi
  simp [hi]

/-- Two neighbouring fields, put together, are the field over both. -/
theorem fld_append (w : Word) (lo a b : Nat) : fld w (lo + a) b ++ fld w lo a = fld w lo (b + a) := by
  apply BitVec.eq_of_getLsbD_eq
  intro i hi
  simp only [fld, BitVec.getLsbD_append, BitVec.getLsbD_extractLsb']
  by_cases h : i < a
  · simp [h, show i < b + a by omega]
  · simp [h, show i - a < b by omega, show i < b + a by omega, show lo + a + (i - a) = lo + i by omega]

/-- The field of all 32 bits is the word. -/
theorem fld_whole (w : Word) : fld w 0 32 = w := extract_whole w

/-- The guard is read back from its four bits (R48). -/
theorem guardOf_of_bits (g : Guard) (w : Word) (h : fld w 21 4 = encGuard g) : guardOf w = g := by
  have hp : fld w 22 3 = (fld w 21 4).extractLsb' 1 3 := by
    apply BitVec.eq_of_getLsbD_eq
    intro i hi
    simp only [fld, BitVec.getLsbD_extractLsb', hi, decide_true, Bool.true_and,
      show 21 + (1 + i) = 22 + i by omega, show 1 + i < 4 by omega]
  have hn : fld w 21 1 = (fld w 21 4).extractLsb' 0 1 := by
    apply BitVec.eq_of_getLsbD_eq
    intro i hi
    simp only [fld, BitVec.getLsbD_extractLsb', hi, decide_true, Bool.true_and, show 0 + i < 4 by omega,
      show 21 + (0 + i) = 21 + i by omega]
  have key : ∀ (p : BitVec 3) (b : Bool), (encGuard ⟨p, b⟩).extractLsb' 1 3 = p ∧
      decide ((encGuard ⟨p, b⟩).extractLsb' 0 1 = 1#1) = b := by decide
  rw [h] at hp hn
  simp only [guardOf, hp, hn, (key g.p g.neg).1, (key g.p g.neg).2]

/-- The four guard bits of a word, put together again from the guard read there (R48). -/
theorem encGuard_guardOf (w : Word) : encGuard (guardOf w) = fld w 21 4 := by
  have h1 : ∀ (p : BitVec 3) (x : BitVec 1), encGuard ⟨p, decide (x = 1#1)⟩ = p ++ x := by decide
  exact (h1 (fld w 22 3) (fld w 21 1)).trans (fld_append w 21 1 3)

/-- An instruction is accepted exactly when its unused fields are zero and it is well formed (R49). -/
theorem accept_eq_some {z : Bool} {i j : Instr} : accept z i = some j ↔ z = true ∧ i.wf = true ∧ i = j := by
  unfold accept
  split
  · rename_i h
    simp only [Bool.and_eq_true] at h
    simp [h.1, h.2]
  · rename_i h
    simp only [Bool.and_eq_true] at h
    constructor
    · intro h'; cases h'
    · intro h'; exact absurd ⟨h'.1, h'.2.1⟩ h

/-- What a decoder accepts is well formed. -/
theorem wf_of_accept {z : Bool} {i j : Instr} (h : accept z i = some j) : j.wf = true := by
  obtain ⟨_, hw, rfl⟩ := accept_eq_some.1 h
  exact hw

end Sys2Proof
end

