-- ==== Sys2Proof/Laws/Memory.lean ====
section
/-! SUPPORT. Memory operations: what is read back, what stays, and that each keeps the canonical form. -/

namespace Sys2Proof.Machine

/-! ## Numbers as bytes (R6) -/

@[simp] theorem leBytes_length (n x : Nat) : (leBytes n x).length = n := by
  induction n generalizing x with
  | zero => rfl
  | succ n ih => simp [leBytes, ih]

/-- The bytes of a number, read as a number. -/
theorem leNat_leBytes (n x : Nat) : leNat (leBytes n x) = x % 256 ^ n := by
  induction n generalizing x with
  | zero => simp [leBytes, leNat, Nat.mod_one]
  | succ n ih =>
    simp only [leBytes, leNat, ih, BitVec.toNat_ofNat]
    rw [show 256 ^ (n + 1) = 256 * 256 ^ n by rw [Nat.pow_succ, Nat.mul_comm], Nat.mod_mul]

/-! ## The homes -/

/-- A word's home write keeps the canonical form. -/
theorem State.wf_putWord {s : State} (k : Nat) (w : Word) (h : Memory.wf s.mem = true) :
    Memory.wf (s.putWord k w).mem = true := by
  unfold State.putWord
  split
  · exact wf_putBytes k _ h
  · split <;> exact h

/-- Zeroing a tile keeps the canonical form. -/
theorem State.wf_zeroTile {s : State} (tile : Nat) (h : Memory.wf s.mem = true) :
    Memory.wf (s.zeroTile tile).mem = true := Map.wf_filter _ h

/-- A byte after a word has been written at its home on this device. -/
theorem State.byteAt_putWord (s : State) (k a : Nat) (w : Word) (hk : k < 2 ^ 52) :
    (s.putWord k w).byteAt a =
      if k ≤ a ∧ a < k + 4 then (leBytes 4 w.toNat).getD (a - k) 0 else s.byteAt a := by
  unfold State.putWord
  rw [if_pos hk]
  exact (get_putBytes s.mem k _ a).trans (by simp [State.byteAt, unwritten])

/-- A word written at its home on this device is read back. -/
theorem State.wordAt_putWord (s : State) (k : Nat) (w : Word) (hk : k < 2 ^ 52) :
    (s.putWord k w).wordAt k = w := by
  have hb : ∀ i : Nat, i < 4 → Map.get unwritten (s.putWord k w).mem (k + i) = (leBytes 4 w.toNat).getD i 0 :=
    fun i hi => (s.byteAt_putWord k (k + i) w hk).trans (by simp [show k + i < k + 4 by omega])
  unfold State.wordAt
  rw [if_pos hk]
  have h4 : ((List.range 4).map fun i => Map.get unwritten (s.putWord k w).mem (k + i)) = leBytes 4 w.toNat := by
    simp only [show List.range 4 = [0, 1, 2, 3] from rfl, List.map_cons, List.map_nil, hb 0 (by omega),
      hb 1 (by omega), hb 2 (by omega), hb 3 (by omega)]
    rfl
  rw [h4, leNat_leBytes]
  apply BitVec.eq_of_toNat_eq
  have := w.isLt
  simp only [BitVec.toNat_ofNat]
  omega

/-! ## The pool (R196 to R198) -/

theorem Core.wf_poolWrite {c : Core} (o : Nat) (bs : List Byte) (h : Map.wf 0 c.pool = true) :
    Map.wf 0 (c.poolWrite o bs).pool = true := wf_putBytes o bs h

/-- A pool byte after bytes have been written. -/
theorem Core.poolByte_poolWrite (c : Core) (o a : Nat) (bs : List Byte) :
    (c.poolWrite o bs).poolByte a = if o ≤ a ∧ a < o + bs.length then bs.getD (a - o) 0 else c.poolByte a :=
  get_putBytes ..

@[simp] theorem Core.poolWrite_l1 (c : Core) (o : Nat) (bs : List Byte) : (c.poolWrite o bs).l1 = c.l1 := rfl
@[simp] theorem Core.poolWrite_ctxs (c : Core) (o : Nat) (bs : List Byte) : (c.poolWrite o bs).ctxs = c.ctxs := rfl
@[simp] theorem Core.poolWrite_plane (c : Core) (o : Nat) (bs : List Byte) : (c.poolWrite o bs).plane = c.plane := rfl

/-! ## Owners and L1 words (R251 to R253) -/

/-- The owner of a word after an owner has been set. -/
theorem State.ownerOf_setOwner (s : State) (k j : Nat) (o : Option Owner) :
    (s.setOwner k o).ownerOf j = if j / 4 * 4 = k / 4 * 4 then o else s.ownerOf j := Map.get_put ..

@[simp] theorem State.setOwner_mem (s : State) (k : Nat) (o : Option Owner) : (s.setOwner k o).mem = s.mem := rfl

@[simp] theorem Core.word_setWord (c : Core) (a b : Nat) (w : L1Word) :
    (c.setWord a w).word b = if b = a then w else c.word b := Map.get_put ..

/-! ## Updates that touch no memory -/

@[simp] theorem State.log_mem (s : State) (die code asid core ctx detail : Nat) :
    (s.log die code asid core ctx detail).mem = s.mem := rfl

@[simp] theorem State.logCtx_mem (s : State) (w : Who) (code detail : Nat) : (s.logCtx w code detail).mem = s.mem := rfl

@[simp] theorem State.freezeBox_mem (s : State) (die : Nat) : (s.freezeBox die).mem = s.mem := rfl

@[simp] theorem State.answer_mem (s : State) (w : Who) (x : Wait) (bs : List Byte) (n : Nat) :
    (s.answer w x bs n).mem = s.mem := by
  by_cases hx : x ∈ (s.ctx w).asked <;> simp [State.answer, hx]

/-- An answer reaches a context that asked, and nobody else. -/
theorem State.answer_asked {s : State} {w : Who} {x : Wait} (bs : List Byte) (n : Nat) (h : x ∈ (s.ctx w).asked) :
    (s.answer w x bs n).answered w x bs n := by
  simp [State.answer, State.answered, h]

theorem State.answer_other (s : State) (w v : Who) (x : Wait) (bs : List Byte) (n : Nat) (h : v ≠ w) :
    (s.answer w x bs n).ctx v = s.ctx v := by
  by_cases hx : x ∈ (s.ctx w).asked <;> simp [State.answer, hx, h]

/-- A fold of updates that each leave memory alone leaves it alone. -/
theorem foldl_mem {α : Type} (f : State → α → State) (l : List α) (s : State)
    (h : ∀ (s : State) (a : α), (f s a).mem = s.mem) : (l.foldl f s).mem = s.mem := by
  induction l generalizing s with
  | nil => rfl
  | cons a t ih => rw [List.foldl_cons, ih, h]

/-- A fold of updates that each keep a property keeps it. -/
theorem foldl_keeps {α : Type} (P : State → Prop) (f : State → α → State) (l : List α) (s : State) (hs : P s)
    (h : ∀ (s : State) (a : α), P s → P (f s a)) : P (l.foldl f s) := by
  induction l generalizing s with
  | nil => exact hs
  | cons a t ih => exact ih _ (h s a hs)

end Sys2Proof.Machine
end

