-- ==== Sys2Proof/Laws/Regs.lean ====
section
/-! SUPPORT. What registers read after a write, what one result changes, and what a context-cycle leaves alone. -/

namespace Sys2Proof.Machine

/-! ## Scalars and predicates -/

@[simp] theorem readS_zero (r : Regs) : readS r 0 = 0 := rfl
@[simp] theorem readP_zero (r : Regs) : readP r 0 = true := by simp [readP]
@[simp] theorem writeS_zero (r : Regs) (x : Dword) : writeS r 0 x = r := rfl
@[simp] theorem writeP_zero (r : Regs) (b : Bool) : writeP r 0 b = r := rfl

/-- A scalar after a scalar has been written: s0 keeps reading zero. -/
theorem readS_writeS (r : Regs) (n : Nat) (x : Dword) (m : BitVec 6) :
    readS (writeS r n x) m = if m ≠ 0#6 ∧ m.toNat = n then x else readS r m := by
  by_cases hm : m = 0#6
  · simp [readS, hm]
  · by_cases hn : n = 0
    · have : m.toNat ≠ 0 := fun h => hm (BitVec.eq_of_toNat_eq h)
      simp [writeS, hn, this]
    · by_cases h : m.toNat = n
      · simp [readS, writeS, hn, hm, h]
      · simp [readS, writeS, hn, h, Map.get_put]

theorem readS_writeS_same (r : Regs) (d : BitVec 6) (x : Dword) (h : d ≠ 0#6) :
    readS (writeS r d.toNat x) d = x := by rw [readS_writeS, if_pos ⟨h, rfl⟩]

theorem readS_writeS_ne (r : Regs) (d m : BitVec 6) (x : Dword) (h : m ≠ d) :
    readS (writeS r d.toNat x) m = readS r m := by
  rw [readS_writeS, if_neg]
  exact fun hm => h (BitVec.eq_of_toNat_eq hm.2)

/-- A predicate after a predicate has been written: p0 keeps reading true. -/
theorem readP_writeP (r : Regs) (d m : BitVec 3) (b : Bool) :
    readP (writeP r d.toNat b) m = if m = 0#3 then true else if m = d then b else readP r m := by
  have h : ∀ d m : BitVec 3, ∀ b p : Bool,
      ((p && !(1#8 <<< d.toNat).getLsbD m.toNat) || ((if b then 1#8 else 0#8) <<< d.toNat).getLsbD m.toNat) =
        if m = d then b else p := by decide
  by_cases hm : m = 0#3
  · simp [readP, hm]
  · by_cases hd : d.toNat = 0
    · have hd0 : d = 0#3 := BitVec.eq_of_toNat_eq hd
      subst hd0
      simp [writeP, hm]
    · have hlt : m.toNat < 8 := m.isLt
      have := h d m b (r.p.getLsbD m.toNat)
      simp only [readP, writeP, hd, hm, if_false, decide_false, Bool.false_or, BitVec.getLsbD_or,
        BitVec.getLsbD_and, BitVec.getLsbD_not, hlt, decide_true, Bool.true_and]
      exact this

/-! ## Vectors -/

/-- A register of the main or the output file after one has been written. -/
theorem readV_writeV (r : Regs) (d : Nat) (x : VReg) (c : BitVec 7) (hd : d < 72) :
    readV (writeV r d x) c = if c.toNat = d then x else readV r c := by
  by_cases h1 : d < 64
  · by_cases hc : c.toNat < 64
    · by_cases h : c.toNat = d <;> simp [readV, writeV, h1, hc, h, Map.get_put]
    · simp [readV, writeV, h1, hc, show c.toNat ≠ d by omega]
  · by_cases hc : c.toNat < 64
    · simp [readV, writeV, h1, hc, hd, show c.toNat ≠ d by omega]
    · by_cases hc2 : c.toNat < 72
      · by_cases h : c.toNat = d
        · simp [readV, writeV, h1, hd, h]
        · simp [readV, writeV, h1, hc, hc2, hd, h, Map.get_put, show c.toNat - 64 ≠ d - 64 by omega]
      · simp [readV, writeV, h1, hc, hc2, hd, show c.toNat ≠ d by omega]

@[simp] theorem readV_zero (r : Regs) (c : BitVec 7) (h : 75 ≤ c.toNat) : readV r c = 0 := by
  simp [readV, show ¬ c.toNat < 64 by omega, show ¬ c.toNat < 72 by omega, show ¬ c.toNat < 75 by omega]

/-! ## One result -/

/-- A scalar result: the scalar, and the flags that the op raised. -/
theorem applyQ_scalar (r : Regs) (q : QEntry) (h : q.dst.toNat < 64) :
    applyQ r q = writeS { r with fflags := r.fflags ||| q.flags } q.dst.toNat q.val := by
  simp [applyQ, h]

/-- A predicate result. -/
theorem applyQ_pred (r : Regs) (q : QEntry) (h : 0x80 ≤ q.dst.toNat ∧ q.dst.toNat < 0x88) :
    applyQ r q = writeP { r with fflags := r.fflags ||| q.flags } (q.dst.toNat - 0x80) (q.val.getLsbD 0) := by
  simp [applyQ, show ¬ q.dst.toNat < 64 by omega, show ¬ q.dst.toNat < 96 by omega, h]

/-! ## A context-cycle -/

/-- With nothing due on the scalar side, a context-cycle moves nothing there. -/
theorem tickScalar_nil (r : Regs) (h : r.queue = []) : tickScalar r = r := by
  cases r; simp_all [tickScalar]

/-- With nothing due on the vector side, a context-cycle moves nothing there. -/
theorem tickVector_nil (r : Regs) (h : r.vqueue = []) : tickVector r = r := by
  cases r; simp_all [tickVector, deliverVector]

/-- With nothing due, a context-cycle counts itself and the occupancies and does nothing else (R100). -/
theorem tickRegs_nil (h : Bool) (r : Regs) (hq : r.queue = []) (hv : r.vqueue = []) :
    tickRegs h r = { r with ccyc := r.ccyc + 1, occA0 := r.occA0 - 1, occA1 := r.occA1 - 1, occF := r.occF - 1 } := by
  unfold tickRegs
  rw [tickScalar_nil r hq]
  cases h
  · simp [tickVector_nil r hv]
  · simp

@[simp] theorem tickRegs_ccyc_of_nil (h : Bool) (r : Regs) (hq : r.queue = []) (hv : r.vqueue = []) :
    (tickRegs h r).ccyc = r.ccyc + 1 := by rw [tickRegs_nil h r hq hv]

/-- One result with cycles to spare only comes nearer. -/
theorem tickScalar_wait (r : Regs) (q : QEntry) (h : r.queue = [q]) (hl : 2 ≤ q.left) :
    tickScalar r = { r with queue := [{ q with left := q.left - 1 }] } := by
  have : q.left - 1 ≠ 0 := by omega
  simp [tickScalar, h, this]

/-- One result whose cycle has come is applied, and the queue is empty. -/
theorem tickScalar_due (r : Regs) (q : QEntry) (h : r.queue = [q]) (hl : q.left ≤ 1) :
    tickScalar r = applyQ { r with queue := [] } { q with left := q.left - 1 } := by
  have : q.left - 1 = 0 := by omega
  simp [tickScalar, h, this]

end Sys2Proof.Machine
end

