-- ==== Sys2Proof/Laws/Slot.lean ====
section
/-! SUPPORT. What running one slot op gives: the op passes, or its body's answer goes into the issue. -/

namespace Sys2Proof.Machine

/-- An op that runs leaves the machine as its body's answer says. -/
theorem State.slotOp_of_runs {s : State} {g : Guard} {i : Instr} {body : State → OpRes}
    (hg : guardOfInstr i = g) (h : s.opRuns i = true) : s.slotOp g i body = .next (s.afterOp i (body s)) := by
  subst hg
  simp only [State.opRuns, Bool.and_eq_true, Bool.not_eq_true', Option.isNone_iff_eq_none] at h
  simp [State.slotOp, h.1.1.1, h.1.1.2, h.1.2, h.2, State.afterOp, State.shut]

/-- An op whose guard is false does nothing (R48). -/
theorem State.slotOp_of_guard {s : State} {g : Guard} {i : Instr} {body : State → OpRes}
    (h : s.guardOk g = false) (hp : s.guardPoison i = false) : s.slotOp g i body = .next s.shut := by
  simp [State.slotOp, h, hp, State.shut]

/-- An op whose body completes under `pre` completes. -/
theorem Completes.of_body {i : Instr} {g : Guard} {body : State → OpRes} {pre : State → Prop} {f : State → State}
    (he : ∀ s, exec i s = s.slotOp g i body) (hg : guardOfInstr i = g) (hb : ∀ s, pre s → body s = .done (f s)) :
    Completes i pre f := fun s h hp => by
  rw [he, State.slotOp_of_runs hg h, hb s hp]

/-- An op whose body faults under `pre` raises. -/
theorem Raises.of_body {i : Instr} {g : Guard} {body : State → OpRes} {pre : State → Prop} {c : Byte}
    {f : State → Dword} (he : ∀ s, exec i s = s.slotOp g i body) (hg : guardOfInstr i = g)
    (hb : ∀ s, pre s → body s = .trap c (f s)) : Raises i pre c f := fun s h hp => by
  rw [he, State.slotOp_of_runs hg h, hb s hp]

/-- An op whose body blocks under `pre` blocks its bundle. -/
theorem Blocks.of_body {i : Instr} {g : Guard} {body : State → OpRes} {pre : State → Prop}
    {f : State → List Wait} (he : ∀ s, exec i s = s.slotOp g i body) (hg : guardOfInstr i = g)
    (hb : ∀ s, pre s → body s = .block (f s)) : Blocks i pre f := fun s h hp => by
  rw [he, State.slotOp_of_runs hg h, hb s hp]

end Sys2Proof.Machine
end

