-- ==== Sys2Proof/Tests/Slice0.lean ====
section
/-! SUPPORT. Tests: the checks of well-formedness, words written out bit by bit from R48 to R59, single steps with
results worked out by hand from the rules, and a witness for the hypotheses of every statement. -/

namespace Sys2Proof.Tests

-- one theorem after the other: many kernel evaluations at a time need too many threads
set_option Elab.async false

open Sys2Proof Sys2Proof.Machine

/-! ## Well-formedness: an ill-formed term for each check -/

def g : Guard := ⟨3, true⟩
def g0 : Guard := ⟨0, false⟩

theorem smoke_scalar :
    ([Instr.loop g 0 1 0, .loopi g 0 0 1, .loopi g 0 1 0, .sext g 1 2 3, .zext g 1 2 3, .shli g 1 2 64, .shri g 1 2 64,
      .srai g 1 2 0x1FF, .plog g 1 6 2 3, .plog g 1 7 2 0, .plog g 1 5 2 3, .movc g 1 0x007, .movc g 1 0x1FF,
      .movtc g 1 0x007, .movtc g 1 0x040, .movtc g 1 0x010, .movtc g 1 0x0E0, .movtc g 1 0x1E3].all
      fun i => !i.wf) = true := by decide

theorem smoke_memory :
    ([Instr.lds g 1 2 0 3 0, .atomsc g 1 2 3 7, .own g 0, .vld g 72 1 0, .vst g 72 1 0, .vlds g 72 1 2, .vsts g 127 1 2,
      .gpop g 72, .spush g 72 1, .lzrel g 1 4, .lzstat g 1 2 4, .lzclean g 4, .tlbinv g 0 1 3, .tlbinv g 1 2 1,
      .tlbinv g 1 2 2].all fun i => !i.wf) = true := by decide

theorem smoke_vector :
    ([Instr.vadd g 72 0 0, .vadd g 0 76 0, .vadd g 0 0 76, .vabs g 72 0, .vmov g 0 127, .vbc g 72 1, .viota g 75,
      .vrowsh g 72 0 0, .vcvt g 0 0 0 7, .vcvt g 0 0 0 0x0B, .vcvt g 0 0 0 0x17, .vcvt g 0 0 0 0x30, .vscl g 72 0 0,
      .vget g 1 76 0, .vput g 72 1 0, .fexp2 g 72 0, .fdiv g 0 0 76, .qadd g 0 0 3, .qmax g 0 76 0, .qmin g 0 0 3,
      .qscan g 0 0 3, .qmov g 72 0, .pstep g 0 0 0 0 11 0, .psteps g 0 0 0 0 15 0, .pshift g 11, .hclr g 0].all
      fun i => !i.wf) = true := by decide

theorem smoke_admitted :
    ([Instr.loop g 0 1 1, .loopi g 0 1 1, .sext g 1 2 2, .shli g 1 2 63, .plog g 1 5 2 0, .movc g 1 0x006,
      .movtc g 1 0x157, .lds g 1 2 0 2 7, .atomsc g 1 2 0 7, .own g 1, .vld g 71 1 0, .lzrel g 1 3, .tlbinv g 1 2 0,
      .tlbinv g 0 1 2, .vadd g 71 75 75, .vcvt g 0 0 0 0x0A, .vget g 1 75 255, .qadd g 0 0 2, .pshift g 10,
      .hclr g 1].all fun i => i.wf) = true := by decide

/-! ## Words written out from the encodings: op7, guard 3 inverted, and the fields of the format -/

theorem test_decode_control_1 :
    decodeSlot 0 0b0000001_011_1_111111111111111111110 = some (.br g 2097150) ∧
    decodeSlot 0 0b0000010_011_1_101010_000000000000000 = some (.bri g 42) ∧
    decodeSlot 0 0b0000011_011_1_111111111111111111110 = some (.call g 2097150) ∧
    decodeSlot 0 0b0000100_011_1_101010_000000000000000 = some (.calli g 42) ∧
    decodeSlot 0 0b0000101_011_1_000000000000000000000 = some (.ret g) ∧
    decodeSlot 0 0b0000110_011_1_10_101010_1000000000011 = some (.loop g 2 42 4099) ∧
    decodeSlot 0 0b0000111_011_1_10_1000000001_100000001 = some (.loopi g 2 513 257) ∧
    decodeSlot 0 0b0001000_011_1_000000000000000000000 = some (.endStrand g) ∧
    decodeSlot 0 0b0001001_011_1_000000000000000000000 = some (.yield g) ∧
    decodeSlot 0 0b0001010_011_1_1001_101010_00000000000 = some (.waitid g 9 42) ∧
    decodeSlot 0 0b0001011_011_1_10011_0000000000000000 = some (.waitt g 19) ∧
    decodeSlot 0 0b0001100_011_1_101_000000000000000000 = some (.bar g 5) ∧
    decodeSlot 0 0b0001101_011_1_1_00000000000000000000 = some (.rdv g 1) ∧
    decodeSlot 0 0b0001110_011_1_101010_10_0000000000000 = some (.fence g 42 2) ∧
    decodeSlot 0 0b0001111_011_1_011_010101_000000000000 = some (.lzwait g 3 21) ∧
    decodeSlot 0 0b0010000_011_1_101010_000000000000000 = some (.spawn g 42) := by decide

theorem test_decode_control_2 :
    decodeSlot 0 0b0010001_011_1_00000_1011111011101111 = some (.trap g 48879) ∧
    decodeSlot 0 0b0010010_011_1_000000000000000000000 = some (.tret g) ∧
    decodeSlot 0 0b0010011_011_1_000000000000000000000 = some (.snaprel g) ∧
    decodeSlot 0 0b0010100_011_1_000000000000000000000 = some (.holdret g) ∧
    decodeSlot 0 0b0010101_011_1_000000000000000000000 = some (.rdone g) := by decide

theorem test_decode_scalar_1 :
    decodeSlot 2 0b0000001_011_1_010101_101010_011100_000 = some (.add g 21 42 28) ∧
    decodeSlot 2 0b0000010_011_1_010101_101010_011100_000 = some (.sub g 21 42 28) ∧
    decodeSlot 2 0b0000011_011_1_010101_101010_011100_000 = some (.and g 21 42 28) ∧
    decodeSlot 2 0b0000100_011_1_010101_101010_011100_000 = some (.or g 21 42 28) ∧
    decodeSlot 2 0b0000101_011_1_010101_101010_011100_000 = some (.xor g 21 42 28) ∧
    decodeSlot 2 0b0000110_011_1_010101_101010_011100_000 = some (.andn g 21 42 28) ∧
    decodeSlot 2 0b0000111_011_1_010101_101010_011100_000 = some (.shl g 21 42 28) ∧
    decodeSlot 2 0b0001000_011_1_010101_101010_011100_000 = some (.shr g 21 42 28) ∧
    decodeSlot 2 0b0001001_011_1_010101_101010_011100_000 = some (.sra g 21 42 28) ∧
    decodeSlot 2 0b0001010_011_1_010101_101010_011100_000 = some (.min g 21 42 28) ∧
    decodeSlot 2 0b0001011_011_1_010101_101010_011100_000 = some (.max g 21 42 28) ∧
    decodeSlot 2 0b0001100_011_1_010101_101010_011100_000 = some (.minu g 21 42 28) ∧
    decodeSlot 2 0b0001101_011_1_010101_101010_011100_000 = some (.maxu g 21 42 28) ∧
    decodeSlot 2 0b0001110_011_1_010101_101010_011100_000 = some (.mul g 21 42 28) ∧
    decodeSlot 2 0b0001111_011_1_010101_101010_011100_000 = some (.mulh g 21 42 28) ∧
    decodeSlot 2 0b0010000_011_1_010101_101010_011100_000 = some (.mulhu g 21 42 28) := by decide

theorem test_decode_scalar_2 :
    decodeSlot 2 0b0010001_011_1_010101_101010_011100_000 = some (.mad g 21 42 28) ∧
    decodeSlot 2 0b0010010_011_1_010101_101010_011100_000 = some (.div g 21 42 28) ∧
    decodeSlot 2 0b0010011_011_1_010101_101010_011100_000 = some (.divu g 21 42 28) ∧
    decodeSlot 2 0b0010100_011_1_010101_101010_011100_000 = some (.rem g 21 42 28) ∧
    decodeSlot 2 0b0010101_011_1_010101_101010_011100_000 = some (.remu g 21 42 28) ∧
    decodeSlot 2 0b0011000_011_1_010101_101010_011100_000 = some (.bfx g 21 42 28) ∧
    decodeSlot 2 0b0011001_011_1_010101_101010_011100_000 = some (.bfi g 21 42 28) ∧
    decodeSlot 2 0b0010110_011_1_010101_101010_000000_000 = some (.clz g 21 42) ∧
    decodeSlot 2 0b0010111_011_1_010101_101010_000000_000 = some (.popc g 21 42) ∧
    decodeSlot 2 0b0011010_011_1_010101_101010_011100_101 = some (.sel g 21 42 28 5) ∧
    decodeSlot 2 0b0011011_011_1_010101_101010_011100_011 = some (.addx g 21 42 28 3) ∧
    decodeSlot 2 0b0011100_011_1_010101_101010_000000_010 = some (.sext g 21 42 2) ∧
    decodeSlot 2 0b0011101_011_1_010101_101010_000000_001 = some (.zext g 21 42 1) ∧
    decodeSlot 2 0b0100000_011_1_010101_101010_111111111 = some (.addi g 21 42 511) ∧
    decodeSlot 2 0b0100001_011_1_010101_101010_111111111 = some (.andi g 21 42 511) ∧
    decodeSlot 2 0b0100010_011_1_010101_101010_111111111 = some (.ori g 21 42 511) := by decide

theorem test_decode_scalar_3 :
    decodeSlot 2 0b0100011_011_1_010101_101010_111111111 = some (.xori g 21 42 511) ∧
    decodeSlot 2 0b0100100_011_1_010101_101010_000111111 = some (.shli g 21 42 63) ∧
    decodeSlot 2 0b0100101_011_1_010101_101010_000000000 = some (.shri g 21 42 0) ∧
    decodeSlot 2 0b0100110_011_1_010101_101010_000100001 = some (.srai g 21 42 33) ∧
    decodeSlot 2 0b0101000_011_1_010101_111101010111100 = some (.movi g 21 31420) ∧
    decodeSlot 2 0b0101001_011_1_010101_001001000110100 = some (.ldk g 21 4660) ∧
    decodeSlot 2 0b0101010_011_1_110_101_101010_011100_000 = some (.cmp g 6 5 42 28) ∧
    decodeSlot 2 0b0101011_011_1_110_101_101010_111111111 = some (.cmpi g 6 5 42 511) ∧
    decodeSlot 2 0b0101100_011_1_110_100_101_011_000000000 = some (.plog g 6 4 5 3) ∧
    decodeSlot 2 0b0101101_011_1_010101_000000_011010000 = some (.movc g 21 208) ∧
    decodeSlot 2 0b0101110_011_1_000000_101010_101001000 = some (.movtc g 42 328) ∧
    decodeSlot 2 0b0101110_011_1_000000_101010_001000000 = some (.movtcShape g 42) ∧
    decodeSlot 2 0b0101110_011_1_000000_101010_001000001 = some (.movtcFflags g 42) ∧
    decodeSlot 2 0b0101110_011_1_000000_101010_001000010 = some (.movtcRmode g 42) ∧
    decodeSlot 2 0b0101110_011_1_000000_101010_001000011 = some (.movtcLfsr g 42) ∧
    decodeSlot 2 0b0101110_011_1_000000_101010_000010010 = some (.movtcLc g 42 2) := by decide

theorem test_decode_scalar_4 :
    decodeSlot 2 0b0101110_011_1_000000_101010_011100000 = some (.movtcGqt g 42) ∧
    decodeSlot 2 0b0101110_011_1_000000_101010_011100011 = some (.movtcCerr g 42) ∧
    decodeSlot 2 0b0101110_011_1_000000_101010_111100011 = some (.movtcSnapbase g 42) := by decide

theorem test_decode_memory_1 :
    decodeSlot 4 0b0000001_011_1_010101_101010_1001_01_101 = some (.ld g 21 42 9 1 5) ∧
    decodeSlot 4 0b0000010_011_1_010101_101010_1001_10_101 = some (.lds g 21 42 9 2 5) ∧
    decodeSlot 4 0b0000011_011_1_010101_101010_1001_11_101 = some (.st g 21 42 9 3 5) ∧
    decodeSlot 4 0b0000100_011_1_010101_101010_01_10_00000 = some (.lda g 21 42 1 2) ∧
    decodeSlot 4 0b0000101_011_1_010101_101010_01_10_00000 = some (.strel g 21 42 1 2) ∧
    decodeSlot 4 0b0000110_011_1_010101_101010_011100_101 = some (.atom g 21 42 28 5) ∧
    decodeSlot 4 0b0000111_011_1_010101_101010_011100_000 = some (.aswap g 21 42 28) ∧
    decodeSlot 4 0b0001000_011_1_010101_101010_011100_000 = some (.acas g 21 42 28) ∧
    decodeSlot 4 0b0001001_011_1_010101_101010_011100_110 = some (.atomsc g 21 42 28 6) ∧
    decodeSlot 4 0b0001010_011_1_10100101_00_00000000000 = some (.invr g 165) ∧
    decodeSlot 4 0b0001011_011_1_10100101_11_00000000000 = some (.wbr g 165 1) ∧
    decodeSlot 4 0b0001100_011_1_10100101_00_00000000000 = some (.own g 165) ∧
    decodeSlot 4 0b0001101_011_1_0101011_101010_10000011 = some (.vld g 43 42 131) ∧
    decodeSlot 4 0b0001110_011_1_0101011_101010_10000011 = some (.vst g 43 42 131) ∧
    decodeSlot 4 0b0001111_011_1_0101011_101010_011100_00 = some (.vlds g 43 42 28) ∧
    decodeSlot 4 0b0010000_011_1_0101011_101010_011100_00 = some (.vsts g 43 42 28) := by decide

theorem test_decode_memory_2 :
    decodeSlot 4 0b0010001_011_1_10011_101010_1001_1001_10 = some (.tld g 19 42 9 9 2) ∧
    decodeSlot 4 0b0010010_011_1_10011_101010_1001_1001_10 = some (.tst g 19 42 9 9 2) ∧
    decodeSlot 4 0b0010011_011_1_01011_11010_00000_1001_00 = some (.tcpy g 11 26 9) ∧
    decodeSlot 4 0b0010100_011_1_10011_0_001001000110100 = some (.tdesc g 19 4660) ∧
    decodeSlot 4 0b0010101_011_1_000000_101010_000000_000 = some (.gpush g 42) ∧
    decodeSlot 4 0b0010110_011_1_0101011_000000_00000000 = some (.gpop g 43) ∧
    decodeSlot 4 0b0010111_011_1_0101011_101010_00000000 = some (.spush g 43 42) ∧
    decodeSlot 4 0b0011000_011_1_010101_000000_000000_101 = some (.cbget g 21 5) ∧
    decodeSlot 4 0b0011001_011_1_000000_000000_000000_101 = some (.cbput g 5) ∧
    decodeSlot 4 0b0011010_011_1_010101_000000_000000_101 = some (.cbtake g 21 5) ∧
    decodeSlot 4 0b0011011_011_1_000000_000000_000000_101 = some (.cbgive g 5) ∧
    decodeSlot 4 0b0011100_011_1_010101_101010_011100_000 = some (.lzres g 21 42 28) ∧
    decodeSlot 4 0b0011101_011_1_10011_101010_1001_1001_10 = some (.tstx g 19 42 9 9 2) ∧
    decodeSlot 4 0b0011110_011_1_000010_101010_000000_101 = some (.lzarm g 2 42 5) ∧
    decodeSlot 4 0b0011111_011_1_000000_101010_000000_011 = some (.lzrel g 42 3) ∧
    decodeSlot 4 0b0100000_011_1_010101_101010_000000_011 = some (.lzstat g 21 42 3) := by decide

theorem test_decode_memory_3 :
    decodeSlot 4 0b0100001_011_1_000000_000000_000000_011 = some (.lzclean g 3) ∧
    decodeSlot 4 0b0100010_011_1_000000_101010_011100_000 = some (.rdecl g 42 28) ∧
    decodeSlot 4 0b0100011_011_1_000000_101010_000000_000 = some (.rpin g 42) ∧
    decodeSlot 4 0b0100100_011_1_000000_101010_000000_000 = some (.runpin g 42) ∧
    decodeSlot 4 0b0100101_011_1_000000_101010_000000_000 = some (.rseal g 42) ∧
    decodeSlot 4 0b0100110_011_1_000000_101010_000000_000 = some (.rdrop g 42) ∧
    decodeSlot 4 0b0100111_011_1_000000_101010_000000_000 = some (.jcpush g 42) ∧
    decodeSlot 4 0b0101000_011_1_010101_000000_000000_000 = some (.jcpop g 21) ∧
    decodeSlot 4 0b0101001_011_1_000000_101010_000000_000 = some (.snapst g 42) ∧
    decodeSlot 4 0b0101010_011_1_000000_101010_000000_000 = some (.snapld g 42) ∧
    decodeSlot 4 0b0101011_011_1_000000_101010_011100_000 = some (.tlbinv g 42 28 0) ∧
    decodeSlot 4 0b0101100_011_1_000000_101010_0000_11_101 = some (.pref g 42 5) := by decide

theorem test_decode_vector_1 :
    decodeSlot 6 0b0000001_011_1_1000011_1001010_0111100 = some (.vadd g 67 74 60) ∧
    decodeSlot 6 0b0000010_011_1_1000011_1001010_0111100 = some (.vsub g 67 74 60) ∧
    decodeSlot 6 0b0000011_011_1_1000011_1001010_0111100 = some (.vmul g 67 74 60) ∧
    decodeSlot 6 0b0000100_011_1_1000011_1001010_0111100 = some (.vfma g 67 74 60) ∧
    decodeSlot 6 0b0000101_011_1_1000011_1001010_0111100 = some (.vfms g 67 74 60) ∧
    decodeSlot 6 0b0000110_011_1_1000011_1001010_0111100 = some (.vmin g 67 74 60) ∧
    decodeSlot 6 0b0000111_011_1_1000011_1001010_0111100 = some (.vmax g 67 74 60) ∧
    decodeSlot 6 0b0001010_011_1_1000011_1001010_0111100 = some (.vand g 67 74 60) ∧
    decodeSlot 6 0b0001011_011_1_1000011_1001010_0111100 = some (.vor g 67 74 60) ∧
    decodeSlot 6 0b0001100_011_1_1000011_1001010_0111100 = some (.vxor g 67 74 60) ∧
    decodeSlot 6 0b0001101_011_1_1000011_1001010_0111100 = some (.vshl g 67 74 60) ∧
    decodeSlot 6 0b0001110_011_1_1000011_1001010_0111100 = some (.vshr g 67 74 60) ∧
    decodeSlot 6 0b0001111_011_1_1000011_1001010_0111100 = some (.vsra g 67 74 60) ∧
    decodeSlot 6 0b0010000_011_1_1000011_1001010_0111100 = some (.vqadd g 67 74 60) ∧
    decodeSlot 6 0b0010001_011_1_1000011_1001010_0111100 = some (.vqsub g 67 74 60) ∧
    decodeSlot 6 0b0010010_011_1_1000011_1001010_0111100 = some (.vmulh g 67 74 60) := by decide

theorem test_decode_vector_2 :
    decodeSlot 6 0b0010011_011_1_1000011_1001010_0111100 = some (.vceq g 67 74 60) ∧
    decodeSlot 6 0b0010100_011_1_1000011_1001010_0111100 = some (.vclt g 67 74 60) ∧
    decodeSlot 6 0b0010101_011_1_1000011_1001010_0111100 = some (.vcle g 67 74 60) ∧
    decodeSlot 6 0b0010110_011_1_1000011_1001010_0111100 = some (.vcltu g 67 74 60) ∧
    decodeSlot 6 0b0010111_011_1_1000011_1001010_0111100 = some (.vsel g 67 74 60) ∧
    decodeSlot 6 0b0100100_011_1_1000011_1001010_0111100 = some (.vscl g 67 74 60) ∧
    decodeSlot 6 0b0001000_011_1_1000011_1001010_0000000 = some (.vabs g 67 74) ∧
    decodeSlot 6 0b0001001_011_1_1000011_1001010_0000000 = some (.vneg g 67 74) ∧
    decodeSlot 6 0b0011000_011_1_1000011_1001010_0000000 = some (.vmov g 67 74) ∧
    decodeSlot 6 0b0011111_011_1_1000011_1001010_0000000 = some (.vtrn g 67 74) ∧
    decodeSlot 6 0b0100001_011_1_1000011_1001010_0000000 = some (.vpack3 g 67 74) ∧
    decodeSlot 6 0b0100010_011_1_1000011_1001010_0000000 = some (.vunp3 g 67 74) ∧
    decodeSlot 6 0b0100011_011_1_1000011_1001010_0000000 = some (.vcmpr g 67 74) ∧
    decodeSlot 6 0b0011001_011_1_1000011_101010_00000000 = some (.vbc g 67 42) ∧
    decodeSlot 6 0b0011010_011_1_1000011_0000000_0000000 = some (.viota g 67) ∧
    decodeSlot 6 0b0011011_011_1_1000011_1001010_1000101 = some (.vrowsh g 67 74 69) := by decide

theorem test_decode_vector_3 :
    decodeSlot 6 0b0011100_011_1_1000011_1001010_1000101 = some (.vcolsh g 67 74 69) ∧
    decodeSlot 6 0b0011101_011_1_1000011_1001010_1000101 = some (.vesh g 67 74 69) ∧
    decodeSlot 6 0b0011110_011_1_1000011_1001010_1000101 = some (.vrot g 67 74 69) ∧
    decodeSlot 6 0b0100000_011_1_1000011_1001010_1_001010 = some (.vcvt g 67 74 1 10) ∧
    decodeSlot 6 0b0100101_011_1_010101_1001010_10000001 = some (.vget g 21 74 129) ∧
    decodeSlot 6 0b0100110_011_1_1000011_101010_10000001 = some (.vput g 67 42 129) := by decide

theorem test_decode_function :
    decodeSlot 8 0b0000001_011_1_1000011_1001010_0000000 = some (.fexp2 g 67 74) ∧
    decodeSlot 8 0b0000010_011_1_1000011_1001010_0000000 = some (.flog2 g 67 74) ∧
    decodeSlot 8 0b0000011_011_1_1000011_1001010_0000000 = some (.frecip g 67 74) ∧
    decodeSlot 8 0b0000100_011_1_1000011_1001010_0000000 = some (.frsqrt g 67 74) ∧
    decodeSlot 8 0b0000101_011_1_1000011_1001010_0000000 = some (.fsqrt g 67 74) ∧
    decodeSlot 8 0b0000110_011_1_1000011_1001010_0000000 = some (.ftanh g 67 74) ∧
    decodeSlot 8 0b0000111_011_1_1000011_1001010_0000000 = some (.fsigm g 67 74) ∧
    decodeSlot 8 0b0001000_011_1_1000011_1001010_0000000 = some (.fsin g 67 74) ∧
    decodeSlot 8 0b0001001_011_1_1000011_1001010_0000000 = some (.fcos g 67 74) ∧
    decodeSlot 8 0b0001010_011_1_1000011_1001010_0111100 = some (.fdiv g 67 74 60) := by decide

theorem test_decode_reduction :
    decodeSlot 9 0b0000001_011_1_10_1001010_10_0000000000 = some (.qadd g 2 74 2) ∧
    decodeSlot 9 0b0000010_011_1_10_1001010_10_0000000000 = some (.qmax g 2 74 2) ∧
    decodeSlot 9 0b0000011_011_1_10_1001010_10_0000000000 = some (.qmin g 2 74 2) ∧
    decodeSlot 9 0b0000100_011_1_10_1001010_10_0000000000 = some (.qscan g 2 74 2) ∧
    decodeSlot 9 0b0000101_011_1_1000011_10_000000000000 = some (.qmov g 67 2) ∧
    decodeSlot 9 0b0000110_011_1_10_0000000000000000000 = some (.qclr g 2) := by decide

theorem test_decode_plane :
    decodeSlot 10 0b0000001_011_1_1_00000000000000000000 = some (.pacq g 1) ∧
    decodeSlot 10 0b0000010_011_1_101010_000000000000000 = some (.pwin g 42) ∧
    decodeSlot 10 0b0000011_011_1_110_101010_011100_000000 = some (.pfset g 6 42 28) ∧
    decodeSlot 10 0b0000100_011_1_10010_11101_010_101_1001_1 = some (.pstep g 18 29 2 5 9 1) ∧
    decodeSlot 10 0b0000101_011_1_10010_11101_010_101_1001_1 = some (.psteps g 18 29 2 5 9 1) ∧
    decodeSlot 10 0b0000110_011_1_1001_00000000000000000 = some (.pshift g 9) ∧
    decodeSlot 10 0b0000111_011_1_10011_1_1_00000000000000 = some (.pload g 19 1 1) ∧
    decodeSlot 10 0b0001000_011_1_10011_1_101010_1_00000000 = some (.pret g 19 1 42 1) ∧
    decodeSlot 10 0b0001001_011_1_000000000000000000000 = some (.prel g) ∧
    decodeSlot 10 0b0001010_011_1_10_0000000000000000000 = some (.hsend g 2) ∧
    decodeSlot 10 0b0001011_011_1_10_0000000000000000000 = some (.hadd g 2) ∧
    decodeSlot 10 0b0001100_011_1_1010_00000000000000000 = some (.hclr g 10) ∧
    decodeSlot 10 0b0001101_011_1_10011_10_00000000000000 = some (.nlsend g 19 2) ∧
    decodeSlot 10 0b0001110_011_1_10011_10_00000000000000 = some (.nlrecv g 19 2) := by decide

/-! ## Small states -/

/-- The state an op or a step leaves; the reset state where it stops. -/
def after (r : Host.Outcome State Fault Refusal) : State :=
  match r with
  | .next t => t
  | _ => State.reset

/-- Core 0 with device `d`; its context `x` issues a bundle of one op, that of slot `n`. -/
def onCore (n : Nat) (k : Core) (d : Device := {}) (x : Nat := 0) : State :=
  { State.reset with dev := d, cores := [(0, k)], cur := { slot := n, ctx := x, key0 := k.nextKey, seq0 := (k.ctx x).seq } }

/-- The same with the context's state alone. -/
def inCtx (n : Nat) (c : Ctx) (x : Nat := 0) : State := onCore n { ctxs := [(x, c)] } {} x

/-- The same with the context's registers alone. -/
def one (n : Nat) (r : Regs) : State := inCtx n { regs := r }

/-- A launch's values: pool bounds of 64, 128 and 192 KiB, a full vector window, 16 steps, one dictionary entry,
four constants, its image at 4 MiB, a trap and a hold vector. -/
def launch1 : Bind := ⟨1, 7, 0x10000, 0x20000, 0x30000, 64, 16, 1, 4, 0x400000, 0x100, 0x180, false, false⟩

/-- A core bound to that launch, context `x` as given. -/
def bound (c : Ctx) (x : Nat := 0) : Core := { bind := some launch1, asid := 7, ctxs := [(x, c)] }

/-- A packet of dictionary bundles, each word a start word (R37, R38). -/
def packet : List Byte := leBytes 4 0x7FFFFFFF ++ List.replicate 60 0

/-- A check gives this value. -/
def gives {α : Type} [DecidableEq α] (e : Except OpRes α) (x : α) : Bool :=
  match e with
  | .ok y => decide (y = x)
  | .error _ => false

theorem eq_of_gives {α : Type} [DecidableEq α] {e : Except OpRes α} {x : α} (h : gives e x = true) : e = .ok x := by
  cases e with
  | ok y => simp [gives] at h; rw [h]
  | error r => simp [gives] at h

/-! ## The hypotheses of the statements are met: scalar and control ops -/

theorem meets_ScalarArithmetic :
    (∀ i ∈ [Instr.add g0 1 2 3, .sel g0 1 2 3 7, .clz g0 1 2, .mad g0 1 2 3, .sext g0 1 2 2],
      (one 1 {}).opRuns i = true) ∧ (2 : BitVec 3).toNat < 3 := by decide +kernel

theorem meets_DivisionAndBitFields :
    (∀ i ∈ [Instr.div g0 1 2 3, .remu g0 1 2 3, .bfx g0 1 2 3],
      (one 1 { occA1 := 18 }).opRuns i = true ∧ (one 2 { occA0 := 1 }).opRuns i = true ∧
      (one 1 { occA0 := 1 }).opRuns i = true ∧ (one 2 { occA1 := 18 }).opRuns i = true) ∧
    (one 1 { occA1 := 18 }).regs.occA0 = 0 ∧ (one 2 { occA0 := 1 }).regs.occA1 = 0 ∧
    (one 1 { occA0 := 1 }).regs.occA0 ≠ 0 ∧ (one 2 { occA1 := 18 }).regs.occA1 ≠ 0 := by decide +kernel

theorem meets_ScalarImmediates :
    (one 1 {}).opRuns (.shli g0 1 2 63) = true ∧ (63 : BitVec 9).toNat < 64 ∧ 64 ≤ (64 : BitVec 9).toNat ∧
    decodeSlot 1 0 = none ∧ (one 1 {}).opRuns (.reservedEncoding 0) = true := by decide +kernel

theorem meets_ConstantsAndControlReads :
    let s := onCore 1 (bound {})
    (∀ i ∈ [Instr.movi g0 1 2, .ldk g0 1 3, .ldk g0 1 4, .movc g0 1 0x1C0], s.opRuns i = true) ∧
    (3 : BitVec 15).toNat < s.myCore.binding.c ∧ s.myCore.binding.c ≤ (4 : BitVec 15).toNat ∧ s.cur.ctx ≠ 4 ∧
    s.isS = false ∧ (inCtx 1 {} 4).isS = true ∧ cregNotS 0x045 = true ∧ cregNotS 0x040 = false ∧
    (inCtx 1 {} 4).opRuns (.movc g0 1 0x045) = true := by decide +kernel

theorem meets_ControlRegisterWrites :
    let s := one 1 { s := [(1, 0x0100100A), (2, 0x01001006)] }
    (∀ i ∈ [Instr.movtc g0 1 0x148, .movtc g0 1 0x147, .movtcShape g0 1, .movtcRmode g0 1, .movtcFflags g0 1,
      .movtcLfsr g0 1, .movtcLc g0 1 3, .movtcCerr g0 1, .movtcSnapbase g0 1, .movtcGqt g0 1], s.opRuns i = true) ∧
    shapeOk (s.srcA 1) = true ∧ shapeOk (s.srcA 0) = false ∧ (s.srcA 0).toNat % 8 < 6 ∧ ¬ (s.srcA 2).toNat % 8 < 6 ∧
    s.me.gqAddr = [] ∧ s.me.gqData = [] ∧
    (inCtx 1 { gqData := [⟨0, 0, [], none⟩] }).me.gqData ≠ [] ∧
    (inCtx 1 { gqData := [⟨0, 0, [], none⟩] }).opRuns (.movtcGqt g0 1) = true ∧
    s.isS = false ∧ cregNotS 0x140 = false ∧ (inCtx 1 {} 4).isS = true ∧ cregNotS 0x148 = true ∧
    (∀ i ∈ [Instr.movtc g0 1 0x140, .movtc g0 1 0x148, .movtcGqt g0 1], (inCtx 1 {} 4).opRuns i = true) := by
  decide +kernel

theorem meets_ComparesAndPredicates :
    (one 1 {}).opRuns (.cmp g0 1 0 2 3) = true ∧ (one 1 {}).opRuns (.plog g0 1 5 2 0) = true ∧
    (0x54040001 : Word).toNat % 8 ≠ 0 ∧ 6 ≤ (6 : BitVec 3).toNat ∧ (5 : BitVec 3) = 5 ∧ (1 : BitVec 3) ≠ 0 ∧
    decodeSlot 1 0 = none ∧ (one 1 {}).opRuns (.reservedEncoding 0) = true := by decide +kernel

/-- A regrow core whose ctx3 runs a slice. -/
def slicing (c : Ctx) : State :=
  onCore 0 { bind := some { launch1 with recipes := true }, ctxs := [(3, { c with slice := some ⟨0x4000, 0x800000, 0, 0, 10⟩ })] }
    {} 3

theorem meets_EndsOfRuns :
    let s := one 0 {}
    let p := onCore 0 { ctxs := [(0, {})], plane := { holder := some 0 } }
    let q := { slicing {} with cores := [(0, { (slicing {}).myCore with plane := { holder := some 3 } })] }
    (decodeSlot 0 0 = none ∧ decodeSlot 0 0x10000000 = some (.endStrand g0)) ∧
    (s.opRuns (.endStrand g0) = true ∧ ¬ notStrand s ∧ s.holdsPlane = false) ∧
    (p.opRuns (.endStrand g0) = true ∧ ¬ notStrand p ∧ p.holdsPlane = true) ∧
    ((inCtx 0 {} 4).opRuns (.endStrand g0) = true ∧ notStrand (inCtx 0 {} 4)) ∧
    (s.setCur { s.cur with fin := finEnd }).cur.fin = finEnd ∧ (s.setCur { s.cur with fin := finYield }).cur.fin = finYield ∧
    (s.ctx ⟨0, 0⟩).strand = none ∧
    ((slicing {}).opRuns (.rdone g0) = true ∧ (slicing {}).isRegrow = true ∧ (slicing {}).me.slice.isSome = true ∧
      (slicing {}).holdsPlane = false ∧ (slicing {}).me.seg.holds = false ∧ ((slicing {}).waitPerformed 2).isNone = true ∧
      (slicing {}).outputMoves = false ∧ ({ slicing {} with pending := [.wb ⟨0x4000, 0, 1, 1, false⟩] } : State).outputMoves = true) ∧
    (q.opRuns (.rdone g0) = true ∧ q.isRegrow = true ∧ q.me.slice.isSome = true ∧ q.holdsPlane = true) ∧
    (s.opRuns (.rdone g0) = true ∧ ¬ (s.isRegrow = true ∧ s.me.slice.isSome = true)) := by
  unfold notStrand; decide +kernel

theorem meets_LastOps :
    let s := one 0 {}
    let z := slicing {}
    (s.cur.more = false ∧ s.cur.replay = false ∧ s.cur.poison = none ∧ s.cur.waits = [] ∧ s.cur.faults = [] ∧
      s.cur.fin = 0 ∧ s.opRuns (.yield g0) = true ∧ s.isS = false ∧ ¬ notStrand s ∧ s.holdsPlane = false) ∧
    ((inCtx 0 {} 4).isS = true ∧ (inCtx 0 {} 4).opRuns (.yield g0) = true ∧ (inCtx 0 {} 4).cur.more = false) ∧
    (z.cur.more = false ∧ z.cur.replay = false ∧ z.cur.poison = none ∧ z.cur.waits = [] ∧ z.cur.faults = []) ∧
    ((z.ctx z.who).slice = some ⟨0x4000, 0x800000, 0, 0, 10⟩ ∧
      ({ z with dev := { recipes := [⟨0x4000, 0x800000, [], .growing, 0, 7, 0, [], some z.who, 1, [], [], []⟩] }
        }.publish z.who |>.recipe 0x4000) ≠ none) := by
  unfold notStrand; decide +kernel

/-- A core with the packet at address 0 cached. -/
def cached (r : Regs) : State := onCore 0 { ctxs := [(0, { regs := r })], pkts := [(0, packet)] }

/-- A target is no fault as its bundle issues. -/
def notFault : Target → Bool
  | .fault .. => false
  | _ => true

theorem of_notFault {t : Target} (h : notFault t = true) (c : Byte) (x : Dword) : t ≠ .fault c x := by
  rintro rfl; simp [notFault] at h

theorem meets_BranchesAndLoops :
    let s := cached { pc := 4, s := [(1, 6), (2, 7), (63, 6)], loopOrd := [3] }
    let v := s.setCur { s.cur with succ := 6 }
    (∀ i ∈ [Instr.br g0 1, .bri g0 1, .call g0 1, .calli g0 1, .ret g0, .loop g0 0 1 1, .loopi g0 3 1 1],
      v.opRuns i = true) ∧
    v.target 6 = .ok ∧ v.target 70 = .later ∧ (∀ a ∈ [6, 70], notFault (v.target a) = true) ∧ (v.srcA 1).toNat = 6 ∧ (readS v.regs 63).toNat = 6 ∧
    (v.srcA 2).toNat % 2 = 1 ∧ (v.relTarget 1) = 6 ∧
    gives ((v.setCur { v.cur with jump := some 6 }).successor) 6 = true ∧ gives v.successor 6 = true ∧
    v.loopFault 0 6 = none ∧ v.srcA 1 ≠ 0 ∧ v.srcA 0 = 0 ∧ 3 ∈ v.regs.loopOrd ∧
    0 ∉ v.regs.loopOrd ∧ (∃ m ∈ (cached { pc := 4, loopOrd := [3], loopEnd := [(3, 4)] }).regs.loopOrd,
      Map.get 0 (cached { pc := 4, loopOrd := [3], loopEnd := [(3, 4)] }).regs.loopEnd m = 4) := by decide +kernel

theorem meets_TargetFaults :
    let s := onCore 0 { pkts := [(0, packet), (1, leBytes 64 0)] }
    s.opRuns (.bri g0 0) = true ∧ packet ≠ [] ∧ leBytes 64 0 ≠ [] ∧
    (66 % 2 = 0 ∧ 66 < 2 ^ 52 ∧ Map.get [] s.myCore.pkts (66 / 64) = leBytes 64 0 ∧ pktKind (leBytes 64 0) ≠ 1) ∧
    ((s.srcA 0).toNat = 0 ∧ Map.get [] s.myCore.pkts 0 = packet ∧ pktKind packet = 1 ∧ pktStart packet 0 = false) ∧
    ((one 0 { s := [(1, 2 ^ 52)] }).srcA 1).toNat = 2 ^ 52 := by decide +kernel

theorem meets_LoopPasses :
    let r : Regs := { pc := 8, lc := [(0, 1), (2, 5)], loopEnd := [(0, 8), (1, 8), (2, 8), (3, 12)], loopOrd := [3, 0, 1, 2] }
    let s := one 0 r
    let u := one 0 { r with loopOrd := [3, 0, 1] }
    (s.setCur { s.cur with jump := some 4 }).cur.jump = some 4 ∧
    (u.cur.jump = none ∧ ∀ n ∈ u.regs.loopOrd, Map.get 0 u.regs.loopEnd n = u.regs.pc → (Map.get 0 u.regs.lc n).toNat ≤ 1) ∧
    (s.cur.jump = none ∧ s.regs.loopOrd = [3, 0, 1] ++ 2 :: [] ∧
      (∀ n ∈ [3, 0, 1], Map.get 0 s.regs.loopEnd n = s.regs.pc → (Map.get 0 s.regs.lc n).toNat ≤ 1) ∧
      Map.get 0 s.regs.loopEnd 2 = s.regs.pc ∧ ¬ (Map.get 0 s.regs.lc 2).toNat ≤ 1) := by decide +kernel

/-- Two strands of one gang level on core 0; strand 0 runs in context 0. -/
def gang (a b : Nat) : State :=
  onCore 0 { bind := some launch1, ctxs := [(0, { strand := some ⟨1, 0, []⟩ })] }
    { launches := [(1, {
        rc := { levels := [2 + 2 ^ 21] }, arrived := [(0, a), (8, b)] })] }

theorem meets_WaitingOps :
    let s := onCore 0 { ctxs := [(0, { chmask := 2 })], cdone := [(1, 5)], cnext := [(1, 7)], ab := [(1, 2 ^ 62), (2, 2 ^ 63), (3, 3 * 2 ^ 62)] }
    let x := fun n : Nat => onCore 0 { ctxs := [(0, { chmask := 2, regs := { s := [(1, BitVec.ofNat 64 n)] } })], cdone := [(1, 5)], cnext := [(1, 7)] }
    let behind := fun n : Nat => 1 ≤ ((5 : Word) - BitVec.ofNat 32 n).toNat ∧ ((5 : Word) - BitVec.ofNat 32 n).toNat ≤ 2 ^ 31
    let given := fun n : Nat => ((BitVec.ofNat 32 n : Word) - 5).toNat < ((7 : Word) - 5).toNat
    let t := onCore 0 { ctxs := [(0, {})], score := [⟨0, 0, 64, true, 0, 3⟩], nextKey := 1 }
    (∀ n ∈ [4, 5, 6, 7], (x n).opRuns (.waitid g0 1 1) = true ∧ (x n).ownsChannel 1 = true ∧ (x n).cnextBefore 1 = 7 ∧
      (x n).heldId 1 (BitVec.ofNat 32 n) = false) ∧
    behind 4 ∧ behind (2 ^ 31 + 5) ∧ ¬ behind 5 ∧ given 5 ∧ ¬ behind 6 ∧ given 6 ∧ ¬ behind 7 ∧ ¬ given 7 ∧
    (x 4).ownsChannel 2 = false ∧
    (s.opRuns (.waitt g0 3) = true ∧ s.isS = false ∧ s.busy 3 = false) ∧
    (t.opRuns (.waitt g0 3) = true ∧ t.isS = false ∧ t.busy 3 = true) ∧
    (inCtx 0 {} 4).opRuns (.waitt g0 3) = true ∧ (inCtx 0 {} 4).isS = true ∧
    (∀ b ∈ [(0 : BitVec 3), 1, 2, 3], s.opRuns (.lzwait g0 b 1) = true ∧ (s.myCore.barrier b.toNat).toNat / 2 ^ 62 = b.toNat) := by
  decide +kernel

theorem meets_BarrierOps :
    (∀ b ∈ [0, 1], let s := gang 1 b
      let lc := s.launch 1
      s.opRuns (.bar g0 0) = true ∧ (s.isS = false ∧ s.isRegrow = false) ∧ s.me.seg.holds = false ∧
      (s.waitPerformed 0).isNone = true ∧ s.myStrand = some (⟨1, 0, []⟩, lc) ∧ gangLevel lc.rc 0 = true ∧
      gangLevel lc.rc 1 = false ∧ (lvScope ((levelsOf lc.rc).getD 0 0)).toNat = 0 ∧ lostInfo ⟨1, 0, []⟩ lc 0 = none ∧
      Map.get 0 lc.arrived 0 = 1 ∧ Map.get 0 lc.passed 0 < 1 ∧
      ((∀ k ∈ groupMembers lc 0 0, lc.arrivedAt 0 1 k = true) ↔ b = 1)) ∧
    (inCtx 0 {} 4).opRuns (.bar g0 0) = true ∧ (inCtx 0 {} 4).isS = true ∧ (gang 1 0).opRuns (.bar g0 1) = true := by
  decide +kernel

theorem meets_OrderingOps :
    let s := onCore 0 (bound { regs := { s := [(1, 0x00020001), (2, 0x00020000), (3, 0x1000), (4, 0x1001)] } })
    let h := inCtx 0 { h := true }
    let w := onCore 0 { ctxs := [(0, { strand := some ⟨1, 0, []⟩ }), (1, { seg := { rewinding := true } })] }
      { launches := [(1, { rc := { levels := [2 + 2 ^ 21] }, at_ := [(1, some ⟨0, 1⟩)] })] }
    let e := inCtx 0 { heldE := [⟨0, 0, 0, 0, .write [] none⟩] }
    let o := inCtx 0 { seg := { opened := true, rw := true } }
    let far := onCore 0 (bound { regs := { s := [(1, 0x00020001), (3, 0x1000)] }, acc := [⟨0, 0, 0, 8, .native 3⟩], seq := 1 })
    (∀ i ∈ [Instr.rdv g0 1, .fence g0 1 3, .fence g0 2 3], ∀ t ∈ [s, h, w, e, o, inCtx 0 {} 4], t.opRuns i = true) ∧
    (∀ t ∈ [s, w, e, o], t.isS = false ∧ t.me.h = false ∧ t.me.gangAbort = none) ∧
    (s.gangRewinds = false ∧ s.me.heldE = []) ∧ (inCtx 0 {} 4).isS = true ∧ (h.isS = false ∧ h.me.h = true) ∧
    w.gangRewinds = true ∧ (e.gangRewinds = false ∧ e.me.heldE ≠ []) ∧
    (s.setCur { s.cur with fin := finRdvRw }).cur.fin = finRdvRw ∧
    (s.me.seg.holds = false ∧ (s.storeFailure 1).isNone = true ∧ ((s.srcA 1).setWidth 16 : Half) ≠ 0 ∧
      (((s.srcA 1) >>> 16).setWidth 16 : Half) ≠ 0 ∧ ((s.srcA 2).setWidth 16 : Half) = 0 ∧
      s.farStores 1 = false ∧ s.farStores 0xFFFF = false) ∧
    (far.opRuns (.fence g0 1 3) = true ∧ far.me.seg.holds = false ∧ (far.storeFailure 1).isNone = true ∧ far.farStores 1 = true) ∧
    (far.opRuns (.strel g0 2 3 3 3) = true ∧ (far.storeFailure 0xFFFF).isNone = true ∧ far.farStores 0xFFFF = true ∧
      gives (far.storeParts 0x1000 (leBytes 8 0)) [⟨0x1000, none, 0, leBytes 8 0, false⟩] = true) ∧
    o.me.seg.holds = true ∧
    (s.opRuns (.strel g0 2 3 3 3) = true ∧ (s.srcA 3).toNat % 8 = 0 ∧
      gives (s.storeParts (s.srcA 3).toNat (leBytes 8 0x20000)) [⟨0x1000, none, 0, leBytes 8 0x20000, false⟩] = true ∧
      (s.storeFailure 0xFFFF).isNone = true) ∧
    (s.srcA 4).toNat % 8 ≠ 0 := by decide +kernel

/-- A job card without operands, another that has five, and `n` cards in core 0's queue. -/
def cards (ready : Bool) (n : Nat) : List Card := (List.range n).map fun i => ⟨i, 0x200, 1, 0, false, ready, 0, []⟩

def cardState (n : Nat) (ready : Bool) : State :=
  onCore 3 { bound { regs := { s := [(1, 0x200), (2, 0x201), (3, 0x300)] } } with pool := [(0x308, 5)] }
    { cards := cards ready n, spawnQ := if n = 0 then [] else [(0, List.replicate n (0, []))] }

theorem meets_SubmittingWork :
    let s := cardState 0 false
    (∀ n ∈ [0, 63, 64], let t := cardState n false
      (∀ i ∈ [Instr.spawn g0 1, .jcpush g0 1, .jcpush g0 3, .jcpop g0 1], t.opRuns i = true) ∧
      (t.isS = false ∧ t.isRegrow = false) ∧ (t.srcA 1).toNat % 256 = 0 ∧ (t.srcA 1).toNat % 128 = 0 ∧
      (t.windowCheck 0x200 256).isNone = true ∧ inWindow 0x200 = true ∧ t.me.seg.holds = false ∧
      (t.waitPerformed 2).isNone = true ∧ gives (t.devRead 0x200 256) (t.myCore.poolRead 0x200 256) = true ∧
      gives (t.devRead 0x200 128) (List.replicate 128 0) = true ∧ cardOk launch1 (List.replicate 128 0) = true ∧
      cardOk launch1 (t.myCore.poolRead 0x300 128) = false ∧ t.cardCore [] = 0 ∧
      t.cardsAt false 0 = n ∧ (Map.get [] t.dev.spawnQ 0).length = n) ∧
    (∀ c ∈ (cardState 1 true).dev.cards, c.ready = true ∧ c.die = false ∧ c.core = 0 ∧ c.launch = 1) ∧
    (s.me.reply (.cond 3 condCard) = none ∧ s.dev.cards = []) ∧
    (inCtx 3 { replies := [⟨.cond 3 condCard, [], 0⟩] }).me.reply (.cond 3 condCard) = some ⟨.cond 3 condCard, [], 0⟩ ∧
    (inCtx 3 {} 4).isS = true ∧ (s.srcA 2).toNat % 256 ≠ 0 ∧ (s.srcA 2).toNat % 128 ≠ 0 := by decide +kernel

theorem meets_TrapAndReturn :
    let h := onCore 0 { ctxs := [(0, { h := true, sv := true, snap := [(3, 4)] })], pkts := [(0, packet)] }
    let b := onCore 0 { ctxs := [(0, { h := true, sv := true, snap := [(5, 16)] })], pkts := [(0, packet)] }
    let away := onCore 0 { ctxs := [(0, { h := true, sv := true, snap := [(3, 0x700000), (8, 1)] })] }
    let at_ := onCore 0 { ctxs := [(0, { h := true, sv := true, snap := [(3, 4), (8, 1)] })], pkts := [(0, packet)] }
    let u := one 0 {}
    (∀ i ∈ [Instr.trap g0 5, .tret g0, .snaprel g0, .holdret g0], ∀ t ∈ [h, b, u, inCtx 0 {} 4], t.opRuns i = true) ∧
    u.isS = false ∧ (inCtx 0 {} 4).isS = true ∧ (h.isS = false ∧ h.me.h = true ∧ h.me.sv = true ∧ imgWord h.me.snap 8 % 2 ^ 32 = 0 ∧
      h.me.imageBad 0 = false) ∧
    (b.isS = false ∧ b.me.h = true ∧ b.me.sv = true ∧ imgWord b.me.snap 8 % 2 ^ 32 = 0 ∧ b.me.imageBad 0 = true) ∧
    (at_.opRuns (.tret g0) = true ∧ at_.me.h = true ∧ at_.me.sv = true ∧ imgWord at_.me.snap 8 % 2 ^ 32 ≠ 0 ∧
      (at_.presentAt (BitVec.ofNat 52 (imgWord at_.me.snap 3))).toOption = some 0 ∧ at_.me.imageBad 0 = true) ∧
    (away.opRuns (.tret g0) = true ∧ away.me.h = true ∧ away.me.sv = true ∧ imgWord away.me.snap 8 % 2 ^ 32 ≠ 0 ∧
      (away.presentAt (BitVec.ofNat 52 (imgWord away.me.snap 3))).toOption = none) ∧
    ((inCtx 0 { h := true }).me.h = true ∧ (inCtx 0 { h := true }).me.sv = false) ∧ u.me.h = false ∧
    (∀ n ∈ [finTret, finEscalate, finHoldret, finSnaprel], (u.setCur { u.cur with fin := n }).cur.fin = n) := by
  decide +kernel

/-! ## Memory -/

/-- A table that grants group 1, of node 0 and ASID 7, every right everywhere. -/
def openTable : Table := { regions := [(0, (0, 2 ^ 52))], groups := [(7, 1)], rights := [(1, 15)] }

/-- The device with every table of the first stack and die open, and node 1 reached over port 0. -/
def openDev : Device :=
  { tables := (0, openTable) :: (List.range 144).map (fun i => (65536 + i, openTable)) ++ [(4 * 65536, openTable)],
    nodeSet := true, routes := [(1, { valid := true, ports := [0] })] }

/-- Translations of core 0: plain memory, another device, a private page, a recipe page. -/
def pages : List TlbEntry :=
  [⟨7, 0x400000, 1, 1, true, true, true, 0x1000000⟩, ⟨7, 0x600000, 1, 1, true, true, true, 2 ^ 44 + 0x1000000⟩,
   ⟨7, 0x800000, 1, 0, true, true, true, 0x2000000⟩, ⟨7, 0xA00000, 1, 3, true, true, true, 0x3000000⟩]

/-- Slot `n` of context 0 of core 0, with memory mapped. -/
def mapped (n : Nat) (c : Ctx) (l1 : Map L1Word := []) : State :=
  onCore n { bound c with tlb := pages, l1 := l1 } openDev

theorem meets_ScalarLoadsAndStores :
    let r : Regs := { s := [(1, 0x1000), (2, 0x1001), (3, 0x201000), (4, 0x400000)] }
    let s := mapped 3 { regs := r, chmask := 3 }
    let q := mapped 3 { regs := r, acc := [⟨0, 0, 0, 8, .regs [0x1000000]⟩], fences := [⟨0, 1, 1, 0⟩], seq := 5 }
    let after_ := (mapped 3 { regs := r, seq := 1, mq := [⟨0, 0, 0, 0, .write [] none⟩] }).setCur { slot := 3 }
    let full := onCore 3 { bound { regs := r, chmask := 3 } with
      cnext := [(1, 64)] }
    (∀ i ∈ [Instr.ld g0 5 1 0 3 0, .lds g0 5 1 0 2 7, .lda g0 5 1 3 0, .st g0 5 1 0 3 0, .st g0 5 3 0 3 0],
      ∀ t ∈ [s, q, full], t.opRuns i = true) ∧
    ((s.srcA 1 + BitVec.ofNat 64 (7 * 4)).toNat % 4 = 0 ∧ s.loadHeld 0 0x1000 0x1008 = false ∧
      gives (s.load 0x1000 8 false) (List.replicate 8 0) = true) ∧
    (s.acquired = none ∧ s.maskHeld true 0 0x1000 0x1008 = false ∧ gives (s.load 0x1000 8 true) (List.replicate 8 0) = true ∧
      (inCtx 3 { replies := [⟨.acq 3 [5], [5], 0⟩] }).acquired = some [5] ∧
      (inCtx 3 { replies := [⟨.acq 3 [5], [5], 0⟩] }).opRuns (.lda g0 5 1 0 3) = true) ∧
    (after_.opRuns (.ld g0 5 1 0 3 0) = true ∧ after_.loadHeld 0 0x1000 0x1008 = false ∧
      after_.maskHeld true 0 0x1000 0x1008 = true) ∧
    (s.srcA 2).toNat % 2 ≠ 0 ∧ q.loadHeld 0 0x1000 0x1008 = true ∧
    (inAperture 0x1000 = false ∧ gives (s.storeParts 0x1000 (leBytes 8 0)) [⟨0x1000, none, 0, leBytes 8 0, false⟩] = true ∧
      s.me.seg.holds = false) ∧
    gives (s.storeParts 0x400000 (leBytes 8 0)) [⟨0x400000, some 0x1000000, 1, leBytes 8 0, false⟩] = true ∧
    (inAperture (s.srcA 3).toNat = true ∧ (0x201000 - 2 ^ 21) / 4096 = 1 ∧ s.ownsChannel 1 = true ∧
      s.channelFull 1 = false ∧ full.channelFull 1 = true ∧ full.ownsChannel 1 = true ∧ s.ownsChannel 2 = false) := by
  decide +kernel

theorem meets_Stores :
    let r : Regs := { s := [(1, 0x1000), (4, 0x400000)] }
    let pool : Write := ⟨0x1000, none, 0, leBytes 8 0, false⟩
    let mem : Write := ⟨0x400000, some 0x1000000, 1, leBytes 8 0, false⟩
    let s := mapped 3 { regs := r }
    let b := mapped 3 { regs := r, mq := [⟨0, 0, 0x1000, 0x1008, .write [] none⟩], seq := 1 }
    let held : List Held := List.replicate 64 ⟨0, 0, 0, 8, .write [] none⟩
    let o := fun n : Nat => mapped 3 { regs := r, seg := { opened := true, rw := true }, heldE := held.take n }
    (∀ t ∈ [s, b, o 0, o 63, o 64], t.opRuns (.st g0 5 1 0 3 0) = true ∧ t.opRuns (.st g0 5 4 0 3 0) = true ∧
      gives (t.storeParts 0x1000 (leBytes 8 0)) [pool] = true ∧ gives (t.storeParts 0x400000 (leBytes 8 0)) [mem] = true) ∧
    (pool.pa = none ∧ s.placed.me.mustWait true s.me.seq s.me.seq 0 0x1000 0x1008 = false ∧
      (storeAll s.who s.me.seq 0 [pool] s.placed).isSome = true) ∧
    (s.me.seg.holds = false ∧ (storeAll s.who s.me.seq 0 [mem] s.placed).isSome = true) ∧
    b.placed.me.mustWait true b.me.seq b.me.seq 0 0x1000 0x1008 = true ∧
    (mem.pa ≠ none ∧ (o 63).me.seg.holds = true ∧ (o 63).me.heldE.length < 64) ∧
    ((o 64).me.seg.holds = true ∧ 64 ≤ (o 64).me.heldE.length) := by decide +kernel

theorem meets_StoresChangeTheirBytesAlone :
    let s := mapped 3 {}
    (inWindow 0xFFF8 = true ∧ (s.windowCheck 0xFFF8 8).isNone = true ∧ s.me.waitingWrites = [] ∧
      ∀ i ∈ List.range 8, (4, (0xFFF8 + i) / 8) ∉ s.myCore.poison) ∧
    (s.storePart ⟨0, 0⟩ 0 0 ⟨0xFFF8, none, 0, [1, 2], false⟩).isSome = true ∧
    (s.storePart ⟨0, 0⟩ 0 0 ⟨0x400002, some 0x1000002, 1, [1, 2, 3], false⟩).isSome = true := by decide +kernel

/-- Atomics of slot 3 at the address in s1, with this SYNCATTR. -/
def atomAt (ea : Dword) (sync : BitVec 5) (rs : List Reply := []) (l1 : Map L1Word := []) : State :=
  mapped 3 { regs := { s := [(1, ea), (2, 3)], syncattr := sync }, replies := rs } l1

theorem meets_Atomics :
    (∀ i ∈ [Instr.atom g0 5 1 2 0, .aswap g0 5 1 2, .acas g0 5 1 2], ∀ ea ∈ [0x1000, 0x400000, 0x600000, 0x1002],
      (atomAt (BitVec.ofNat 64 ea) 0x12).opRuns i = true ∧ (atomAt (BitVec.ofNat 64 ea) 0x12).me.seg.holds = false) ∧
    (∀ ea ∈ [0x1000, 0x400000, 0x600000], let s := atomAt (BitVec.ofNat 64 ea) 0x1E
      ea % 8 = 0 ∧ s.orderHeld false 15 ea (ea + 8) = false ∧ s.maskHeld false 15 ea (ea + 8) = false ∧ (s.windowCheck ea 8).isNone = true ∧
      (s.waitPerformed 2).isNone = true ∧ s.regs.syncattr.getLsbD 3 = true ∧ s.regs.syncattr.getLsbD 2 = true) ∧
    (inWindow 0x1000 = true ∧ gives ((atomAt 0x1000 0x12).load 0x1000 8 false) (List.replicate 8 0) = true) ∧
    (atomAt 0x400000 0x1E [⟨.acq 3 [], [], 0⟩]).acquired = some [] ∧ (atomAt 0x600000 0x1E [⟨.acq 3 [], [], 0⟩]).acquired = some [] ∧
    (let ask := Wait.here true ⟨0x1000, true, .add, 3, 0, ⟨0, 0⟩, 3⟩
     (atomAt 0x1000 0x1E).me.reply ask = none ∧ (atomAt 0x1000 0x1E [⟨ask, [], 0⟩]).me.reply ask = some ⟨ask, [], 0⟩ ∧
     (atomAt 0x1000 0x12).regs.syncattr.getLsbD 2 = false ∧ (atomAt 0x1000 0x1E).regs.syncattr.toNat % 4 ≠ 0) ∧
    (let w : L1Word := { st := .P, va := 0x800000 }
     let s := atomAt 0x800000 0x12 [] [(0x2000000, w), (0x2000004, w)]
     let p : Place := ⟨0x800000, 0x2000000, 0x2000000, 0⟩
     gives (s.translate s.who 0x800000 .atomic) p = true ∧ s.isRemote p.pa = false ∧ isAgent p.key = false ∧
     (s.recipeWrite s.who p.key p.va).isNone = true ∧ s.privateWords p.key 8 = true ∧
     (∀ j ∈ [0, 1], (3, p.key + 4 * j) ∉ s.myCore.poison) ∧
     (let ask := Wait.here false ⟨0x2000000, true, .add, 3, 0, ⟨0, 0⟩, 3⟩
      (atomAt 0x800000 0x1E [] s.myCore.l1).me.reply ask = none ∧
      (atomAt 0x800000 0x1E [⟨ask, [], 0⟩] s.myCore.l1).me.reply ask = some ⟨ask, [], 0⟩)) ∧
    (let s := atomAt 0x400000 0x12
     let p : Place := ⟨0x400000, 0x1000000, 0x1000000, 1⟩
     let ask := Wait.atomic ⟨p.key, true, .add, 3, 0, s.who, 3⟩
     gives (s.translate s.who 0x400000 .atomic) p = true ∧ s.isRemote p.pa = false ∧ isAgent p.key = false ∧
     (s.recipeWrite s.who p.key p.va).isNone = true ∧ s.privateWords p.key 8 = false ∧
     s.refusedBy s.dev.node.toNat s.myCore.asid p.key [0, 1] = none ∧ p.cls ≠ clsPrivate ∧ s.me.reply ask = none ∧
     (atomAt 0x400000 0x12 [⟨ask, [], 0⟩]).me.reply ask = some ⟨ask, [], 0⟩) ∧
    (let s := atomAt 0x600000 0x12
     let p : Place := ⟨0x600000, 2 ^ 44 + 0x1000000, 2 ^ 44 + 0x1000000 + 2 ^ 52, 1⟩
     let ask := Wait.native 3 5 p.pa 8 (atomAux .add true) (leBytes 8 3 ++ leBytes 8 0)
     inWindow 0x600000 = false ∧ gives (s.translate s.who 0x600000 .atomic) p = true ∧ s.isRemote p.pa = true ∧
     s.me.reply ask = none ∧ (atomAt 0x600000 0x12 [⟨ask, [], 0⟩]).me.reply ask = some ⟨ask, [], 0⟩) ∧
    0x1002 % 4 ≠ 0 := by decide +kernel

theorem meets_Atomsc :
    let at_ := fun (ea : Dword) (sync : BitVec 5) (wheel : List Nat) (rs : List Reply) =>
      onCore 3 { bound { regs := { s := [(1, ea), (2, 3)], syncattr := sync }, replies := rs } with tlb := pages, wheel := wheel } openDev
    let i := Instr.atomsc g0 5 1 2 0
    let s := at_ 0x400000 0x12 [0] []
    let p : Place := ⟨0x400000, 0x1000000, 0x1000000, 1⟩
    let ask := Wait.atomsc ⟨p.key, true, atomscOf 0, 3, s.who, 3, 0⟩
    let t := at_ 0x400000 0x12 [0] [⟨ask, [], 0⟩, ⟨.acq 3 [], [], 0⟩]
    (s.opRuns i = true ∧ ¬ s.regs.syncattr.toNat % 4 = 3 ∧ s.myCore.wheel ≠ [] ∧ 0x400000 % 8 = 0 ∧
      inWindow 0x400000 = false ∧ inAperture 0x400000 = false ∧ gives (s.translate s.who 0x400000 .atomic) p = true ∧
      s.isRemote p.pa = false ∧ isAgent p.key = false ∧ (s.recipeWrite s.who p.key 0x400000).isNone = true ∧
      s.refusedBy s.dev.node.toNat s.myCore.asid p.key [0, 1] = none ∧ s.me.seg.holds = false ∧
      s.orderHeld false 15 0x400000 0x400008 = false ∧ s.maskHeld false 15 0x400000 0x400008 = false ∧ (s.waitPerformed 2).isNone = true ∧ s.me.reply ask = none) ∧
    (t.me.reply ask = some ⟨ask, [], 0⟩ ∧ t.acquired = some []) ∧
    ((at_ 0x400000 0x13 [0] []).opRuns i = true ∧ (at_ 0x400000 0x13 [0] []).regs.syncattr.toNat % 4 = 3) ∧
    ((at_ 0x400000 0x12 [] []).opRuns i = true ∧ (at_ 0x400000 0x12 [] []).myCore.wheel = []) ∧
    ((at_ 0x400004 0x12 [0] []).srcA 1).toNat % 8 ≠ 0 := by decide +kernel

theorem meets_CachedWordOps :
    let r : Regs := { region := [(0, 0x400000), (1, 0x400080), (2, 0x400000), (3, 0x420080)], s := [(1, 0x400000)] }
    let s := mapped 3 { regs := r } [(0x1000000, { st := .O, va := 0x400000 }), (0x1000004, { st := .V, va := 0x400004 })]
    let h := mapped 3 { regs := r, acc := [⟨0, 15, 0, 8, .regs [0x1000000]⟩], seq := 1 } [(0x1000000, { st := .pending, va := 0x400000 })]
    (∀ i ∈ [Instr.invr g0 1, .wbr g0 1 0, .own g0 1, .own g0 2, .pref g0 1 0], ∀ t ∈ [s, h, inCtx 3 {} 4], t.opRuns i = true) ∧
    s.isS = false ∧ s.me.seg.holds = false ∧ (s.sweepHeld s.cur.seq0 1 = false ∧ s.sweepHeld s.me.seq 1 = false) ∧
    (h.me.seg.holds = false ∧ h.sweepHeld h.cur.seq0 1 = true) ∧
    (let m := h.setCur { h.cur with seq0 := 0 }
     m.opRuns (.wbr g0 1 0) = true ∧ m.me.seg.holds = false ∧ m.sweepHeld m.cur.seq0 1 = false ∧ m.sweepHeld m.me.seq 1 = true) ∧
    (regionLines s.regs 1).1 = 1 ∧ 1024 < (regionLines s.regs 2).1 ∧ (regionLines s.regs 1).2 = [0x400000] ∧
    gives (exAll s.ownLine [0x400000]) [((List.range 31).map fun i => (0x1000004 + 4 * i, 0x400004 + 4 * i, false), [])] = true ∧
    (inCtx 3 {} 4).isS = true ∧ (1 : Byte) ≠ 0 ∧
    (s.core 0).regOut.length < 128 ∧ ((s.core 0).word 0x1000008).st = .I ∧ ((s.core 0).word 0x1000004).st = .V ∧
    128 ≤ (onCore 3 { regOut := List.replicate 128 (0, 0) }).myCore.regOut.length := by decide +kernel

theorem meets_VectorLoadsAndStores :
    let r : Regs := { s := [(1, 0x1000), (2, 0x1020), (3, 64)], shape := 0x0020100A }
    let s := mapped 3 { regs := r }
    let h := mapped 3 { regs := r, h := true }
    (∀ i ∈ [Instr.vld g0 8 1 0, .vst g0 8 1 0, .vlds g0 8 1 3, .vsts g0 8 1 3], ∀ t ∈ [s, h], t.opRuns i = true) ∧
    (s.isS = false ∧ s.inVectors 63 = true ∧ s.inVectors 71 = true ∧ s.me.h = false ∧ 0x1000 % 64 = 0 ∧
      s.loadHeld 0 0x1000 0x1400 = false ∧ s.maskHeld true 0 0x1000 0x1400 = false ∧ gives (s.load 0x1000 1024 false) (List.replicate 1024 0) = true) ∧
    (s.rowsOf 1 3 = some ([0x1000, 0x1040], 64) ∧
      (∀ x ∈ [0x1000, 0x1040], x % rowAlign s.shape = 0 ∧ s.loadHeld 0 x (x + 64) = false ∧ s.maskHeld true 0 x (x + 64) = false) ∧
      gives (joinPieces ([0x1000, 0x1040].map fun x => s.load x 64 false)) (List.replicate 128 0) = true) ∧
    (∀ x ∈ [0x1000, 0x1040],
      gives (s.storeParts x (List.replicate 64 0)) [⟨x, none, 0, List.replicate 64 0, false⟩] = true) ∧
    (h.isS = false ∧ h.inVectors 8 = true ∧ h.me.h = true) ∧
    (onCore 3 { bind := some { launch1 with w := 8 }, ctxs := [(0, {})] }).inVectors 8 = false ∧
    0x1020 % 64 ≠ 0 := by decide +kernel

/-! ## Tiles -/

/-- A local FP32 tile of one row of 16 at pool offset 0x10000 (R202). -/
def desc0 : Dword := BitVec.ofNat 64 (0x200 * 2 ^ 42 + 0x0A * 2 ^ 36 + 15)

/-- The same tile as INT32, in a mate's pool, and with two rows. -/
def descInt : Dword := BitVec.ofNat 64 (0x200 * 2 ^ 42 + 4 * 2 ^ 36 + 15)
def descFar : Dword := BitVec.ofNat 64 (2 ^ 60 + 2 ^ 59 + 0x200 * 2 ^ 42 + 0x0A * 2 ^ 36 + 15)
def descTwo : Dword := BitVec.ofNat 64 (0x200 * 2 ^ 42 + 0x0A * 2 ^ 36 + 2 ^ 12 + 15)

/-- Core 0 with these eight constants. -/
def constants (l : List Dword) (c : Ctx) : Core :=
  { bound c with bind := some { launch1 with c := l.length },
                 pool := putBytes [] 0x30040 (l.flatMap fun x => leBytes 8 x.toNat) }

theorem meets_TdescOps :
    let l := [desc0, BitVec.ofNat 64 (0x200 * 2 ^ 42 + 0x0B * 2 ^ 36), BitVec.ofNat 64 (0x3FF * 2 ^ 42 + 0x0A * 2 ^ 36 + 32), descFar,
      BitVec.ofNat 64 (0x3FF * 2 ^ 42 + 0x0A * 2 ^ 36 + 31)]
    let s := onCore 3 (constants l {})
    let t := { s with cores := [(0, constants l {}), (1, constants [] { strand := some ⟨1, 0, []⟩ })] }
    let b := onCore 3 { constants l {} with score := [⟨0, 0, 64, true, 0, 3⟩], nextKey := 1 }
    (∀ k ∈ [0, 1, 2, 3, 4, 5], s.opRuns (.tdesc g0 3 (BitVec.ofNat 15 k)) = true ∧ s.isS = false ∧ s.busy 3 = false ∧
      s.myCore.poolPoison (s.myCore.binding.constBase + 8 * k) 8 = false) ∧
    (∀ k ∈ [0, 1, 2, 3, 4], k < launch1.c + 1 ∧ s.myCore.constant k = l.getD k 0) ∧ s.myCore.binding.c ≤ 5 ∧
    (∀ k ∈ [0, 2, 3, 4], fmtAssigned (descCode (l.getD k 0)) = true ∧ descMeta (l.getD k 0) = false) ∧
    (descRemote desc0 = false ∧ descMate desc0 = 0 ∧ descOff desc0 + descSize desc0 ≤ 0x20000) ∧
    (fmtAssigned (descCode (l.getD 1 0)) = false ∧ descOff (l.getD 4 0) + descSize (l.getD 4 0) = 0x20000 ∧
      descOff (l.getD 2 0) + descSize (l.getD 2 0) = 0x20080) ∧
    (descRemote descFar = true ∧ podMate 0 (descMate descFar) = 1 ∧ (t.core 1).boundTo 1 = true ∧ (s.core 1).boundTo 1 = false ∧
      0x10000 ≤ descOff descFar ∧ descOff descFar + descSize descFar ≤ 0x20000) ∧
    (b.opRuns (.tdesc g0 3 0) = true ∧ b.busy 3 = true) := by decide +kernel

/-- Tiles t3 and t4 are the tile above, t5 its mate's, t6 of two rows; s1 to s4 addresses and landing handles. -/
def tileRegs (poison : BitVec 2) : Regs :=
  { s := [(1, 0x400000), (2, 0x400040), (3, BitVec.ofNat 64 (64 * 2 ^ 18 / 2 ^ 18)), (4, 2 ^ 60)],
    tile := [(3, ⟨desc0, poison⟩), (4, ⟨desc0, 0⟩), (5, ⟨descFar, 0⟩), (6, ⟨descTwo, 0⟩)] }

def tiled (poison : BitVec 2) (f : Core → Core) : State :=
  onCore 3 (f { bound { regs := tileRegs poison, chmask := 2 } with tlb := pages }) openDev

theorem meets_TilesAndTransfers :
    let s := tiled 0 id
    let p := tiled 1 id
    let full := tiled 0 fun k => { k with cnext := [(1, 64)] }
    let held := tiled 0 fun k => { k with score := [⟨0, 0x10000, 0x10080, true, 0, 9⟩], nextKey := 1 }
    (∀ t ∈ [s, p, full, held], (∀ i ∈ [Instr.tld g0 3 1 2 1 0, .tst g0 3 1 2 1 0, .tstx g0 3 3 2 1 0, .tcpy g0 3 4 1,
        .tcpy g0 3 6 1], t.opRuns i = true) ∧
      t.isS = false ∧ t.ownsChannel 1 = true ∧ descRemote (t.tile 3).desc = false ∧ modeLacks (t.tile 3).desc 0 = false ∧
      (∀ n ∈ [3, 4, 6], t.busy n = false) ∧ (t.srcA 1).toNat = 0x400000 ∧ (t.srcA 2).toNat % 128 ≠ 0 ∧
      gives (t.imagePages 0x400000 desc0 0 .read) () = true ∧ gives (t.imagePages 0x400000 desc0 0 .write) () = true) ∧
    (∀ t ∈ [s, full, held], (t.tile 3).poison = 0 ∧ (t.tile 4).poison = 0 ∧ (t.tile 6).poison = 0) ∧ (p.tile 3).poison ≠ 0 ∧
    (s.channelFull 1 = false ∧ s.tileWaits 3 true = false ∧ s.tileWaits 3 false = false ∧ s.tileWaits 4 false = false) ∧
    full.channelFull 1 = true ∧
    (held.channelFull 1 = false ∧ held.tileWaits 3 true = true ∧ held.tileWaits 3 false = true) ∧
    (handleOk (s.srcA 3) (descSpan desc0 0) = true ∧ handleOk (s.srcA 4) (descSpan desc0 0) = false) ∧
    (descData (s.tile 3).desc = descData (s.tile 4).desc ∧ descMetaSize desc0 = descMetaSize desc0 ∧
      descScaleSize desc0 = descScaleSize desc0 ∧ descData (s.tile 3).desc ≠ descData (s.tile 6).desc) ∧
    s.ownsChannel 2 = false ∧ (inCtx 3 {} 4).isS = true := by decide +kernel

theorem meets_IdentifiersCountUp :
    let k : Core := { xdone := [(1, 1), (1, 2), (1, 4)], xfers := [⟨1, 0, 0, 7, 0, 0, .scatter 0 [], 5, false, [], none, [], false, {}⟩],
                      score := [⟨5, 0, 128, true, 0, 3⟩, ⟨6, 0, 128, true, 0, 3⟩] }
    let s := onCore 3 k
    let j := (s.completeXfer ⟨0, 1, 0⟩ 5).core 0
    ((s.core 0).xfers.find? fun t => decide (t.ch = 1) && decide (t.id = 0)).isSome = true ∧
    Map.get 0 j.cdone 1 = 3 ∧ j.cerr = 2 ∧ j.xfers = [] ∧ j.score.length = 1 ∧
    (s.takeId 0 1).2 = 0 := by decide +kernel

/-! ## Queues, buffers and landing slots -/

theorem meets_GatherQueueOps :
    let r : Regs := { s := [(1, 2)] }
    let q : Ctx := { regs := r, chmask := 2, gqt := BitVec.ofNat 64 (2 ^ 56 + 2 ^ 52 + 0x400000) }
    let s := mapped 3 q
    let waits := fun n : Nat => mapped 3 { q with gqAddr := List.replicate n (.gather 5 0 9 []) }
    let row := fun f : Option (Byte × Dword) => mapped 3 { q with gqData := [⟨5, 0, [1], f⟩] }
    let full := onCore 3 { bound q with tlb := pages, cnext := [(1, 64)] } openDev
    (∀ i ∈ [Instr.gpush g0 1, .gpop g0 0, .gpop g0 63, .spush g0 63 1],
      ∀ t ∈ [s, waits 1, waits 63, waits 64, row none, row (some (5, 0)), full], t.opRuns i = true ∧ t.isS = false ∧
        t.inVectors 63 = true ∧ t.me.h = false ∧ t.cur.replay = false) ∧
    (s.me.gqAddr.length < 64 ∧ (waits 63).me.gqAddr.length < 64 ∧ ¬ (waits 64).me.gqAddr.length < 64) ∧
    (row none).me.gqData = [⟨5, 0, [1], none⟩] ∧ (row (some (5, 0))).me.gqData = [⟨5, 0, [1], some (5, 0)⟩] ∧
    (s.me.gqData = [] ∧ s.me.gqAddr = []) ∧ ((waits 1).me.gqData = [] ∧ .gather 5 0 9 [] ∈ (waits 1).me.gqAddr) ∧
    (s.me.gqt.toNat / 2 ^ 56 % 16 = 1 ∧ s.ownsChannel 1 = true ∧ s.channelFull 1 = false ∧ full.channelFull 1 = true) ∧
    (s.ownsChannel 2 = false ∧ s.ownsChannel 0 = false) ∧ (one 3 {}).ownsChannel 0 = false ∧ (inCtx 3 {} 4).isS = true ∧
    (one 3 {}).inVectors 63 = false := by decide +kernel

/-- Core 0 with this word in cb2. -/
def ring (w : Dword) (c : Ctx := {}) : State := onCore 3 { bound c with cb := [(2, w)] }

/-- A valid buffer of two slots at base 0x4000, engine-fed or not, with these counts. -/
def ringWord (engine got filled free : Nat) : Dword :=
  BitVec.ofNat 64 (engine * 2 ^ 63 + got * 2 ^ 44 + filled * 2 ^ 37 + free * 2 ^ 30 + 2 ^ 29 + 2 ^ 23 + 0x80)

theorem meets_CircularBuffers :
    let w : Ctx := { mq := [⟨0, 0, 0x4000, 0x4008, .write [⟨0x4000, none, 0, leBytes 8 0, false⟩] none⟩], seq := 1 }
    (∀ x ∈ [0, 1, 2], ∀ y ∈ [0, 1, 2], ∀ z ∈ [0, 1, 2], ∀ e ∈ [0, 1], let s := ring (ringWord e x y z)
      (∀ i ∈ [Instr.cbget g0 1 2, .cbput g0 2, .cbtake g0 1 2, .cbgive g0 2], s.opRuns i = true) ∧ s.isS = false ∧
      (s.cbReg 2).getLsbD 29 = true ∧ ((s.cbReg 2).getLsbD 63 = true ↔ e = 1) ∧ cbGot (s.cbReg 2) = x ∧
      cbFilled (s.cbReg 2) = y ∧ cbFree (s.cbReg 2) = z ∧ cbSlots (s.cbReg 2) = 2 ∧ s.poolWrites s.cur.seq0 = false ∧ s.poolWrites s.me.seq = false) ∧
    ((ring (ringWord 0 1 0 1) w).setCur { slot := 3, seq0 := 1 }).poolWrites 1 = true ∧
    ((ring (ringWord 0 1 0 1) w).poolWrites 0 = false ∧
      (ring (ringWord 0 1 0 1) w).poolWrites (ring (ringWord 0 1 0 1) w).me.seq = true) ∧ (ring (ringWord 0 1 0 1) w).opRuns (.cbput g0 2) = true ∧
    (ring 0).isS = false ∧ ((ring 0).cbReg 2).getLsbD 29 = false := by decide +kernel

/-- A landing zone of two slots of 256 bytes at base 0x1000, slot 0 as given. -/
def zone0 (l : LzSlot) : Zone :=
  { cfg := BitVec.ofNat 36 (2 ^ 35 + 2 ^ 21 + 0x10), slots := [(0, l)] }

def landing (l : LzSlot) (c : Ctx := {}) (ab : Map Dword := []) : State :=
  onCore 3 { bound { c with regs := { s := [(1, 1), (2, 2), (3, 2 ^ 38), (4, BitVec.ofNat 64 (2 ^ 18)), (5, 2 ^ 56),
      (6, BitVec.ofNat 64 (2 ^ 38 - 2 ^ 18))] } } with
    zones := [(1, zone0 l)], ab := ab }

theorem meets_LandingSlots :
    let ask := Wait.lzres 3 1 0 0 2
    let s := landing { state := 3 }
    let got := fun n : Nat => landing {} { replies := [⟨ask, [1], n⟩] }
    let busy := landing {} {} [(1, 2 ^ 62)]
    let other := landing {} {} [(5, BitVec.ofNat 64 (2 ^ 62 + 2 ^ 60))]
    (∀ t ∈ [s, got 0, got 2, busy, other, landing { state := 4 }], ∀ i ∈ [Instr.lzres g0 7 4 2, .lzarm g0 1 1 1, .lzrel g0 0 1,
      .lzstat g0 7 0 1, .lzclean g0 1, .lzclean g0 4], t.opRuns i = true) ∧
    (s.isS = false ∧ s.me.seg.holds = false ∧ (s.srcA 4).toNat < 2 ^ 38 ∧ (s.srcA 4).toNat % 2 ^ 18 = 0 ∧
      Wait.lzres 3 (handleNode (s.srcA 4)) (handleCore (s.srcA 4)) (handleZone (s.srcA 4))
        (min (s.srcB 2).toNat (2 ^ 17 - 1)) = ask ∧ s.me.reply ask = none ∧ (s.srcA 6).toNat < 2 ^ 38) ∧
    ((got 0).me.reply ask = some ⟨ask, [1], 0⟩ ∧ (got 2).me.reply ask = some ⟨ask, [1], 2⟩) ∧
    (¬ (s.srcA 3).toNat < 2 ^ 38 ∧ (s.srcA 1).toNat % 2 ^ 18 ≠ 0) ∧
    ((s.srcA 1).toNat < 2 ^ 56 ∧ 2 ^ 56 ≤ (s.srcA 5).toNat ∧ (s.myCore.zone 1).valid = true ∧
      (s.myCore.zone 0).valid = false ∧ (s.myCore.zone 1).count = 2) ∧
    (abState (s.myCore.barrier 1) = 0 ∧ ∀ j ∈ List.range 8, abState (s.myCore.barrier j) = 0) ∧
    abState (busy.myCore.barrier 1) = 1 ∧
    (abState (other.myCore.barrier 1) ≠ 1 ∧ abState (other.myCore.barrier 5) = 1 ∧ abZone (other.myCore.barrier 5) = 1) ∧
    ((s.srcA 0).toNat < 2 ∧ (s.srcA 1).toNat < 2 ∧ 2 ≤ (s.srcA 2).toNat) ∧
    (((s.myCore.zone 1).slot 0).state = 3 ∧ ((s.myCore.zone 1).slot 1).state ≠ 3) ∧
    ((s.myCore.zone 1).torn = false ∧ ((landing { state := 4 }).myCore.zone 1).torn = true) ∧
    (1 : BitVec 3).toNat < 4 ∧ (3 : BitVec 3).toNat < 4 ∧ 4 ≤ (4 : BitVec 3).toNat := by decide +kernel

/-! ## Recipe tiles, snapshots, translations -/

/-- The recipe page's first tile, with this directory; s1 its address, s2 a sound and s4 an unsound record in the pool. -/
def tileAt (l : List Recipe) (c : Ctx := {}) : State :=
  onCore 3 { bound { c with regs := { s := [(1, 0xA00000), (2, 0x200), (3, 0xA00001), (4, 0x280)] } } with
      tlb := pages, pool := putBytes [] 0x208 (leBytes 8 (2 ^ 32 + 2) ++ List.replicate 32 0 ++ leBytes 8 0xA00000) }
    { openDev with recipes := l }

def recipe0 (st : TileState) (pins : Nat) : Recipe := ⟨0x3000000, 0xA00000, List.replicate 128 0, st, pins, 7, 0, [], none, 0, [], [], []⟩

theorem meets_RecipeDeclarations :
    let p : Place := ⟨0xA00000, 0x3000000, 0x3000000, 3⟩
    let good := leBytes 8 0 ++ leBytes 8 (2 ^ 32 + 2) ++ List.replicate 32 0 ++ leBytes 8 0xA00000 ++ List.replicate 72 0
    (∀ l ∈ [[], [recipe0 .declared 0], [recipe0 .declared 65535], [recipe0 .sealed 0], [recipe0 .sealed 1], [recipe0 .absent 0]],
      let s := tileAt l
      (∀ i ∈ [Instr.rdecl g0 1 0, .rdecl g0 1 2, .rdecl g0 1 4, .rpin g0 1, .runpin g0 1, .rseal g0 1, .rdrop g0 1,
        .rdrop g0 3], s.opRuns i = true) ∧
      ((s.srcA 1).toNat % 16384 = 0 ∧ inWindow 0xA00000 = false ∧ inAperture 0xA00000 = false ∧
        (s.myCore.tlbFind 0xA00000).map (·.cls) = some clsRecipe ∧ gives (s.translate s.who 0xA00000 .write) p = true ∧
        s.isRemote p.pa = false ∧ s.refusedBy s.dev.node.toNat s.myCore.asid p.key [1] = none) ∧
      (s.me.seg.holds = false ∧ (s.waitPerformed 2).isNone = true) ∧ (s.srcB 0).toNat = 0 ∧ (s.srcB 2).toNat ≠ 0 ∧
      (s.srcB 2).toNat % 128 = 0 ∧ gives (s.devRead 0x200 128) good = true ∧ (s.srcB 4).toNat % 128 = 0 ∧
      gives (s.devRead 0x280 128) (List.replicate 128 0) = true ∧ s.recipe p.key = l.head? ∧
      s.directoryUsed (homeDie p.key) < 16384 ∧
      (match s.revokeTile p.key with
       | .ok _ => true
       | _ => false) = true) ∧
    (recOk good p.va = true ∧ recOk (List.replicate 128 0) p.va = false) ∧
    (let ask := Wait.pin 3 0x3000000 0xA00000
     let t := tileAt [recipe0 .absent 0]
     let u := tileAt [recipe0 .absent 0] { asked := [ask] }
     (t.me.reply ask = none ∧ ask ∉ t.me.asked) ∧
     (u.opRuns (.rpin g0 1) = true ∧ ask ∈ u.me.asked ∧ u.me.reply ask = none ∧ u.recipe p.key = t.recipe p.key ∧
       gives (u.translate u.who 0xA00000 .write) p = true ∧ u.me.seg.holds = false ∧ (u.waitPerformed 2).isNone = true) ∧
     (∀ n ∈ [0, 18], (tileAt [recipe0 .sealed 1] { replies := [⟨ask, [], n⟩] }).me.reply ask = some ⟨ask, [], n⟩)) ∧
    ((tileAt []).srcA 3).toNat % 16384 ≠ 0 := by decide +kernel

theorem meets_RecipeDeclarations_full :
    let s := tileAt (List.replicate 16384 { recipe0 .declared 0 with tile := 0x3004000 })
    s.recipe 0x3000000 = none ∧ 16384 ≤ s.directoryUsed (homeDie 0x3000000) := by
  have h : homeDie 0x3004000 = homeDie 0x3000000 := by decide +kernel
  generalize 16384 = n
  simp [State.recipe, State.directoryUsed, tileAt, onCore, recipe0, h]

/-- Handler mode; s1 names a page that shows the registers of queue 0, which hold the first bytes of an image, s3 a page of
another device that has answered each of 32 writes. -/
def imageAt (m : Map Byte) (c : Ctx := {}) : State :=
  onCore 3 { bound { c with h := true, regs := { s := [(1, 0xC00000), (2, 0x400001), (3, 0x600000)] },
                            replies := (List.range 32).map fun i =>
                              ⟨.native 3 3 (2 ^ 44 + 0x1000000 + 128 * i) 128 0 (List.replicate 128 0), [], 0⟩ } with
      tlb := ⟨7, 0xC00000, 1, 1, true, true, true, 2 ^ 39⟩ :: pages }
    { openDev with tables := [(3 * 65536, openTable)], queues := [(0, { bound := true, window := m })] }

/-- An image that a read gives whole: its first word, its length. -/
def imageWord (r : Except OpRes (List Byte)) (n : Nat) : Option Nat :=
  match r with
  | .ok bs => if (bs.drop n).length = 0 ∧ (bs.drop (n - 1)).length = 1 then some (leNat (bs.take 8)) else none
  | .error _ => none

theorem scalarBytes_nil : scalarBytes [] = List.replicate 4096 0 := by
  have z : leBytes 8 0 = List.replicate 8 0 := by decide
  have h (l : List Nat) : l.flatMap (fun i => leBytes 8 (imgWord [] i)) = List.replicate (8 * l.length) 0 := by
    induction l with
    | nil => rfl
    | cons i l ih =>
      rw [List.flatMap_cons, ih, show leBytes 8 (imgWord [] i) = List.replicate 8 0 from z, List.replicate_append_replicate,
        List.length_cons, Nat.mul_succ, Nat.add_comm]
  exact (h (List.range 512)).trans (by rw [List.length_range])

theorem meets_SnapshotsAndTranslations :
    let s := imageAt [(0, 7)] { sv := true }
    let alien := imageAt [(0, 8)]
    let other := imageAt [(0, 7), (2, 8)]
    let whole := imageAt [(0, 7), (2, 1)]
    (∀ t ∈ [s, alien, other, whole], (∀ i ∈ [Instr.snapst g0 3, .snapld g0 1, .snapst g0 2, .snapld g0 2], t.opRuns i = true) ∧
      t.isS = false ∧ t.me.h = true ∧ (t.srcA 1).toNat % 4096 = 0 ∧ inWindow 0xC00000 = false ∧ inAperture 0xC00000 = false ∧
      (t.srcA 3).toNat % 4096 = 0 ∧ inWindow 0x600000 = false ∧ inAperture 0x600000 = false ∧
      (t.srcA 2).toNat % 4096 ≠ 0 ∧ t.me.seg.holds = false ∧ (t.waitPerformed 2).isNone = true ∧
      (match t.linePlaces 0xC00000 4096 .read with
       | .ok _ => true
       | .error _ => false) = true) ∧
    (match alien.storeParts 0x600000 (List.replicate 4096 0) with
     | .ok _ => true
     | .error _ => false) = true ∧
    (s.me.sv = true ∧ alien.me.sv = false ∧ s.me.snap = [] ∧ alien.me.snap = [] ∧
      (match s.devWrite 0x600000 (List.replicate 4096 0) .done with
       | .done _ => true
       | _ => false) = true) ∧
    (imageWord (s.devRead 0xC00000 4096) 4096 = some 7 ∧ imageWord (alien.devRead 0xC00000 4096) 4096 = some 8 ∧
      imageWord (other.devRead 0xC00000 4096) 4096 = some (7 + 2 ^ 19) ∧
      imageWord (whole.devRead 0xC00000 4096) 4096 = some (7 + 2 ^ 16) ∧
      (match whole.devRead 0xC01000 0x1E400 with
       | .ok _ => true
       | .error _ => false) = true) ∧
    ((one 3 {}).me.h = false ∧ (inCtx 3 {} 4).isS = true) := by decide +kernel

theorem meets_SnapshotsAndTranslations_tlb :
    let r : Regs := { s := [(1, 0x400000), (3, 7), (4, 8)] }
    let ask := fun k : BitVec 3 => Wait.tlbinv 3 k (if k = 0 then 0x400000 else 0)
    let s := mapped 3 { regs := r, replies := [⟨ask 0, [], 0⟩, ⟨ask 1, [], 0⟩, ⟨ask 2, [], 0⟩] }
    let b := mapped 3 { regs := r }
    let e : TlbEntry := ⟨7, 0x400000, 1, 1, true, true, true, 0x1000000⟩
    let x := onCore 3 { bound {} with ctxs := [(0, { asked := [.tlbinv 3 0 0x400000, .tlbinv 3 1 0] }), (1, { acc := [⟨4, 0, 0x400008, 0x400010, .atHome 1⟩] })], tlb := pages }
      { openDev with tlbWaits := [⟨⟨0, 0⟩, 3, [], [], []⟩] }
    (∀ t ∈ [s, b], (∀ i ∈ [Instr.tlbinv g0 1 3 0, .tlbinv g0 0 3 1, .tlbinv g0 0 3 2, .tlbinv g0 1 4 0, .tlbinv g0 1 3 3,
        .tlbinv g0 1 3 1], t.opRuns i = true) ∧
      (t.srcB 3).toNat % 2 ^ 16 = t.myCore.asid ∧ (t.srcB 4).toNat % 2 ^ 16 ≠ t.myCore.asid ∧ t.me.seg.holds = false ∧
      (∀ sc ∈ [2, 3], (t.waitPerformed sc).isNone = true) ∧ (t.storeFailure 0xFFFF).isNone = true) ∧
    (∀ k ∈ [0, 1, 2], s.me.reply (ask k) = some ⟨ask k, [], 0⟩ ∧ b.me.reply (ask k) = none) ∧
    (e ∈ (x.core 0).tlb ∧ e.asid = (x.core 0).asid ∧ e.covers 7 0x400000 = true ∧ inWindow 0x400000 = false ∧
      inAperture 0x400000 = false ∧ ⟨4, 0, 0x400008, 0x400010, .atHome 1⟩ ∈ ((x.core 0).ctx 1).acc ∧
      overlaps 0x400008 0x400010 (0x400000 / 2 ^ pageBits 1 * 2 ^ pageBits 1) (0x400000 / 2 ^ pageBits 1 * 2 ^ pageBits 1 + 2 ^ pageBits 1) = true) ∧
    (x.dev.tlbWaits.find? (fun t => decide (t.who = ⟨0, 0⟩) && x.dropDone t) = some ⟨⟨0, 0⟩, 3, [], [], []⟩ ∧
      ∀ k ∈ [(0 : BitVec 3), 1], Wait.tlbinv 3 k (if k = 0 then 0x400000 else 0) ∈ (x.ctx ⟨0, 0⟩).asked) ∧ (1 : BitVec 3) ≠ 0 ∧ (1 : BitVec 6) ≠ 0 ∧
    (2 : BitVec 3).toNat < 3 ∧ (s.srcA 1).toNat < 2 ^ 52 ∧
    2 ^ 52 ≤ ((mapped 3 { regs := { s := [(1, 2 ^ 52), (3, 7)] } }).srcA 1).toNat ∧
    (mapped 3 { regs := { s := [(1, 2 ^ 52), (3, 7)] } }).opRuns (.tlbinv g0 1 3 0) = true ∧ ¬ (3 : BitVec 3).toNat < 3 := by decide +kernel

/-! ## The plane and the neighbour links -/

/-- Core 0 with the tiles above in t3 to t6, one of INT32 in t7 and TERN, BF16, INT8 and sparse ones, and this plane; the
cores of the launch run beside it. -/
def planeAt (p : Plane) (f : Core → Core := id) (mates : List Nat := []) : State :=
  let d := fun (code extra : Nat) => BitVec.ofNat 64 (extra + 0x200 * 2 ^ 42 + code * 2 ^ 36 + 3 * 2 ^ 12)
  let t : Map TileReg := (tileRegs 0).tile ++ [(7, ⟨descInt, 0⟩), (8, ⟨d 7 0, 0⟩), (9, ⟨d 8 0, 0⟩), (10, ⟨d 0 0, 0⟩),
    (11, ⟨d 0 (2 ^ 56), 0⟩), (12, ⟨d 0 (2 ^ 60 + 2 ^ 59), 0⟩), (13, ⟨d 0 (16 * 2 ^ 24), 0⟩), (14, ⟨desc0, 1⟩)]
  let s := onCore 3 (f { bound { life := .running, regs := { s := [(1, 5), (2, 2 ^ 23), (3, 2 ^ 60)], tile := t } } with
    plane := p, tlb := pages }) openDev
  { s with cores := s.cores ++ mates.map fun n => (n, { bound { strand := some ⟨1, 0, []⟩ } with pool := [] }) }

/-- The plane held by context 0, with this one lane at (y, x). -/
def planeHeld (y x : Int) (w : Word) (fp : Bool := false) : Plane := { holder := some 0, fp := fp, cells := [(cellKey y x 0, w)] }

theorem meets_PlaneInAndOut :
    let s := planeAt {}
    let h := planeAt (planeHeld 0 0 1 true)
    let o := planeAt { holder := some 1 }
    let deep := planeAt {} fun k => { k with depth := 1 }
    let busy := planeAt (planeHeld 0 0 1 true) fun k => { k with score := [⟨0, 0x10000, 0x10080, true, 0, 9⟩], nextKey := 1 }
    (∀ t ∈ [s, h, o, deep, busy], (∀ i ∈ [Instr.pacq g0 1, .prel g0, .pwin g0 1, .pwin g0 2, .pfset g0 2 1 1, .pfset g0 2 3 1,
        .pload g0 3 0 1, .pload g0 7 1 0, .pload g0 3 0 0, .pret g0 3 0 0 0, .pret g0 8 0 0 0], t.opRuns i = true) ∧
      t.isS = false ∧ (t.srcA 1).toNat < 2 ^ 23 ∧ 2 ^ 23 ≤ (t.srcA 2).toNat ∧ (t.srcA 2).toNat < 2 ^ 60 ∧
      2 ^ 60 ≤ (t.srcA 3).toNat ∧ (t.tile 3).poison = 0 ∧ (t.tileConsumes 3 fun _ => [(0, descData (t.tile 3).desc)]).isNone = true ∧
      planeTileOk (t.tile 3).desc false = true ∧ descFmt (t.tile 3).desc = .flt fp32 ∧
      planeTileOk (t.tile 7).desc true = true ∧ descFmt (t.tile 7).desc = .int 32 true ∧
      planeTileOk (t.tile 13).desc false = false ∧ planeTileOk (t.tile 13).desc true = true ∧
      descFmt (t.tile 8).desc = .tern ∧ descFmt (t.tile 3).desc ≠ .tern) ∧
    (s.holdsPlane = false ∧ s.planeTaken = false ∧ s.myCore.depth = 0 ∧ s.tileWaits 3 false = false) ∧
    (o.holdsPlane = false ∧ o.planeTaken = true ∧ o.myCore.depth = 0) ∧
    (deep.holdsPlane = false ∧ deep.myCore.depth ≠ 0 ∧ deep.isRegrow = false) ∧
    (h.holdsPlane = true ∧ h.tileWaits 3 true = false) ∧ busy.tileWaits 3 true = true ∧
    (inCtx 3 {} 4).isS = true := by decide +kernel

theorem meets_PlaneMoves_shift :
    let s := planeAt (planeHeld 0 0 1)
    let e := planeAt (planeHeld (-8) 0 1)
    let z := planeAt (planeHeld (-8) 0 0x80000000 true)
    let far := planeAt { planeHeld 0 0 1 with dy := -128 }
    let stay := { planeAt { planeHeld 0 0 1 with halted := true } (fun k => { k with ctxs := [(0, { (k.ctx 0) with h := true })] }) with pending := [] }
    ((∀ i ∈ [Instr.pstep g0 3 4 1 1 1 0, .psteps g0 3 4 1 1 1 0], stay.opRuns i = true) ∧ stay.isS = false ∧ stay.holdsPlane = true ∧ stay.me.h = true ∧ stay.myCore.plane.halted = true) ∧
    (∀ t ∈ [s, e, z, far], t.me.h = false) ∧
    (∀ t ∈ [s, e, z, far], (∀ i ∈ [Instr.pshift g0 1, .pshift g0 10, .pshift g0 11], t.opRuns i = true) ∧
      t.isS = false ∧ t.holdsPlane = true ∧ t.cur.slot < 11 ∧
      shiftMove t.regs.pg t.myCore.plane 1 = some (-1, 0, 0)) ∧
    (inExtent (-1) 0 = true ∧ inExtent (-9) 0 = false ∧ keyRow (cellKey (-8) 0 0) = -8 ∧ keyCol (cellKey (-8) 0 0) = 0) ∧
    (∀ c ∈ s.myCore.plane.cells, inExtent (keyRow c.1 + -1) (keyCol c.1 + 0) = true) ∧
    (∀ c ∈ z.myCore.plane.cells, z.myCore.plane.nonZero c.2 = false) ∧
    ((∃ c ∈ e.myCore.plane.cells, e.myCore.plane.nonZero c.2 = true ∧ inExtent (keyRow c.1 + -1) (keyCol c.1 + 0) = false)) ∧
    (s.myCore.plane.dy = 0 ∧ s.myCore.plane.dx = 0 ∧ far.myCore.plane.dy = -128) ∧
    (10 : BitVec 4).toNat ≤ 10 ∧ 10 < (11 : BitVec 4).toNat ∧ (planeAt {}).holdsPlane = false := by decide +kernel

theorem meets_PlaneMoves_step :
    let s := planeAt { planeHeld 0 0 1 with stepc := 15 }
    let f := planeAt (planeHeld 0 0 1 true)
    let full := planeAt { planeHeld 0 0 1 with stepc := 16 }
    let m := planeAt (planeHeld 0 0 1) id [1]
    let eight := planeAt { planeHeld 0 0 1 with stepc := 9 } id [1]
    (∀ t ∈ [s, f, full, m, eight], (∀ i ∈ [Instr.pstep g0 10 10 0 1 0 1, .pstep g0 9 9 0 0 0 1, .psteps g0 10 11 0 1 0 1,
        .psteps g0 10 10 0 0 0 0, .psteps g0 8 8 0 0 0 0, .pstep g0 12 10 0 1 0 1, .pstep g0 9 10 0 1 0 1, .pstep g0 10 10 0 1 11 1],
        t.opRuns i = true) ∧
      t.isS = false ∧ t.holdsPlane = true ∧ t.me.h = false ∧ (∀ n ∈ [8, 9, 10, 11, 12], t.tileWaits n false = false ∧ (t.tile n).poison = 0 ∧
        descScales (t.tile n).desc = false) ∧
      pairOf (descFmt (t.tile 10).desc) (descFmt (t.tile 10).desc) = some (false, 4) ∧
      pairOf (descFmt (t.tile 10).desc) (descFmt (t.tile 11).desc) = some (false, 4) ∧
      pairOf (descFmt (t.tile 8).desc) (descFmt (t.tile 8).desc) = some (false, 8) ∧
      pairOf (descFmt (t.tile 9).desc) (descFmt (t.tile 9).desc) = some (true, 2) ∧
      pairOf (descFmt (t.tile 12).desc) (descFmt (t.tile 10).desc) = some (false, 4) ∧
      pairOf (descFmt (t.tile 9).desc) (descFmt (t.tile 10).desc) = none ∧
      (descMeta (t.tile 11).desc = true ∧ descMeta (t.tile 10).desc = false) ∧
      (∀ n ∈ [0, 1], (Map.get {} t.regs.feed n).c % 4 = 0) ∧ shiftMove t.regs.pg t.myCore.plane 0 = some (0, 0, 0) ∧
      (descRemote (t.tile 10).desc = false ∧ descRemote (t.tile 12).desc = true ∧ t.tileCore (t.tile 12).desc = 1) ∧
      t.myCore.binding.pmax = 16 ∧
      (match t.myCore.plane.move 0 0 0 with
       | .ok _ => true
       | .error _ => false) = true) ∧
    (s.myCore.plane.stepc + 1 ≤ 16 ∧ s.myCore.plane.fp = false ∧ f.myCore.plane.fp = true) ∧
    16 < full.myCore.plane.stepc + 1 ∧
    ((m.core 1).boundTo 1 = true ∧ m.myCore.binding.launch = 1 ∧ m.myCore.plane.stepc + 8 ≤ 16) ∧
    16 < eight.myCore.plane.stepc + 8 ∧ (s.core 1).boundTo 1 = false ∧
    (10 < (11 : BitVec 4).toNat ∧ (0 : BitVec 4).toNat ≤ 10 ∧ (planeAt {}).holdsPlane = false) := by decide +kernel

theorem meets_PlaneMoves_clean :
    let t := planeAt (planeHeld 0 0 1) id [1]
    ∀ n ∈ [8, 9, 10, 11, 12],
      (∀ m ∈ [4, 8], (t.tileConsumes n fun _ =>
        sheetBytes t.regs.pg (t.viewTile (t.tile n).desc) (Map.get {} t.regs.feed 0) m).isNone = true) ∧
      ∀ sp ∈ [false, true], (t.tileConsumes n fun _ => (List.range 16).flatMap
        (weightBytes (t.viewTile (t.tile n).desc) (Map.get {} t.regs.feed 1) sp 4)).isNone = true := by decide +kernel

/-- A link of core 0 to the east and one to the south. -/
def linkAt (p : Plane) (east south : Link) : State :=
  planeAt p (fun k => { k with links := [(1, east), (2, south)] }) [1, 24]

theorem meets_NeighbourLinks_strips :
    let held := { planeHeld 0 0 1 with hstat := 0 }
    let strip : Strip := ⟨false, [], false⟩
    let s := linkAt held {} {}
    let x := linkAt held {} { inStrip := some strip, outStrip := some strip }
    let sent := linkAt { held with hstat := 0x055 } { inStrip := some strip } {}
    let twice := linkAt { held with hstat := 0x044 } {} {}
    let down := linkAt held {} { down := true }
    let away := linkAt { held with dy := 1 } {} {}
    (∀ t ∈ [s, x, sent, twice, down, away], (∀ i ∈ [Instr.hsend g0 2, .hsend g0 1, .hadd g0 2, .hadd g0 1, .hsend g0 0, .hadd g0 0,
        .hclr g0 5, .hclr g0 15], t.opRuns i = true) ∧
      t.isS = false ∧ t.holdsPlane = true ∧ t.boundNeighbour 2 = true ∧ t.boundNeighbour 1 = true ∧ t.boundNeighbour 0 = false ∧
      t.me.seg.holds = false ∧ Map.wf 0 t.myCore.plane.cells = true) ∧
    (∀ t ∈ [s, x, sent, twice], (t.myLink 2).down = false ∧ (t.myLink 1).down = false ∧ t.myCore.plane.atHome = true) ∧
    ((down.myLink 2).down = true ∧ away.myCore.plane.atHome = false ∧ (away.myLink 2).down = false) ∧
    (s.myCore.plane.sent 2 = false ∧ (s.myLink 2).outStrip = none ∧ (x.myLink 2).outStrip ≠ none ∧
      sent.myCore.plane.sent 2 = true ∧ s.myCore.plane.sent 1 = false ∧ ¬ s.myCore.plane.sent 0 = true) ∧
    (sent.myCore.plane.sent 0 = true ∧ sent.myCore.plane.in_ 0 = true ∧ sent.myCore.plane.in_ 2 = true ∧
      sent.myCore.plane.sent 1 = false ∧ (sent.myLink 1).outStrip = none) ∧
    (s.myCore.plane.in_ 2 = false ∧ earlierDirs 2 = [] ∧ (x.myLink 2).inStrip = some strip ∧ strip.fp = x.myCore.plane.fp ∧
      (s.myLink 2).inStrip = none) ∧
    (earlierDirs 1 = [2, 0] ∧ sent.myCore.plane.in_ 1 = false ∧ (sent.myLink 1).inStrip = some strip) ∧
    (twice.myCore.plane.in_ 2 = true ∧ twice.myCore.plane.sent 2 = true) ∧ s.myCore.plane.in_ 1 = false ∧
    (clearedDirs 15 = [0, 1, 2, 3] ∧ (∀ e ∈ [0, 1, 2, 3], s.myCore.plane.sent (BitVec.ofNat 2 e) = false ∧
      s.myCore.plane.in_ (BitVec.ofNat 2 e) = false) ∧ clearedDirs 5 = [1, 3] ∧ clearedDirs 10 = [0, 2]) ∧
    (planeAt {}).holdsPlane = false := by decide +kernel

theorem meets_NeighbourLinks_streams :
    let x : Stream := ⟨128, [], 0, 0, 0, false⟩
    let s := linkAt {} {} {}
    let t := linkAt {} { inStreams := [x] } { outStreams := [x] }
    let bad := linkAt {} { inStreams := [{ x with size := 64 }] } {}
    let busy := planeAt {} (fun k => { k with score := [⟨0, 0x10000, 0x10080, true, 0, 9⟩], nextKey := 1 }) [1, 24]
    (∀ u ∈ [s, t, bad, busy], (∀ i ∈ [Instr.nlsend g0 3 2, .nlsend g0 3 1, .nlrecv g0 3 1, .nlrecv g0 5 1, .nlsend g0 5 1],
        u.opRuns i = true) ∧ u.isS = false ∧ u.boundNeighbour 1 = true ∧ u.boundNeighbour 2 = true ∧ u.boundNeighbour 0 = false ∧
      (u.myLink 1).down = false ∧ (u.myLink 2).down = false ∧ descRemote (u.tile 3).desc = false ∧
      descRemote (u.tile 5).desc = true ∧ (u.tile 3).poison = 0 ∧ u.poisonedTile (u.tile 3).desc = none ∧
      u.me.seg.holds = false ∧ descSize (u.tile 3).desc = 128) ∧
    (s.tileWaits 3 false = false ∧ s.tileWaits 3 true = false ∧ busy.tileWaits 3 false = true) ∧
    ((s.myLink 1).inStreams = [] ∧ (s.myLink 1).recv = none ∧ (t.myLink 1).inStreams = [x] ∧ (t.myLink 1).recv = none ∧
      (t.myLink 2).outStreams = [x] ∧ (bad.myLink 1).inStreams = [{ x with size := 64 }] ∧ (bad.myLink 1).recv = none) ∧
    (inCtx 3 {} 4).isS = true := by decide +kernel

/-! ## Vector ops -/

/-- Context 0 of a bound core with this SHAPE and these registers, in slot `n`. -/
def vec (n : Nat) (shape : Word) (r : Regs := {}) (h : Bool := false) : State :=
  onCore n (bound { h := h, regs := { r with shape := shape, s := [(1, 5)], v := [(1, 0x01FF), (63, 0x0205)] } })

/-- The premises that the vector ops share, as a value. -/
def isReady (vs : List (BitVec 7)) (ok : Fmt → Bool) (s : State) : Bool :=
  !s.isS && !s.me.h && vs.all s.inVectors && ok (shapeFmt s.shape)

theorem vecReady_of_isReady {vs : List (BitVec 7)} {ok : Fmt → Bool} {s : State} (h : isReady vs ok s = true) :
    vecReady vs ok s := by
  simp [isReady, and_assoc] at h
  exact h

/-- 16 rows of 16 columns of a format. -/
def square (code : Nat) : Word := BitVec.ofNat 32 (0x01001000 + code)

theorem meets_VectorIntegers :
    ∀ p ∈ [(0, Fmt.int 8 true), (1, .int 8 false), (2, .int 16 true), (3, .int 16 false), (4, .int 32 true), (5, .int 32 false),
      (6, .int 4 true)], let s := vec 5 (square p.1)
    (∀ i ∈ [Instr.vadd g0 2 1 63, .vsub g0 2 1 63, .vmul g0 2 1 63, .vfma g0 2 1 63, .vfms g0 2 1 63, .vmin g0 2 1 63,
      .vmax g0 2 1 63, .vmulh g0 2 1 63, .vqadd g0 2 1 63, .vqsub g0 2 1 63, .vabs g0 2 1, .vneg g0 2 1, .vshl g0 2 1 63,
      .vshr g0 2 1 63, .vsra g0 2 1 63, .viota g0 2], s.opRuns i = true) ∧
    isReady [2, 1, 63] isIF s = true ∧ isReady [2, 1] isIF s = true ∧ isReady [2] isIF s = true ∧ shapeFmt s.shape = p.2 := by
  decide +kernel

theorem meets_VectorFloats :
    ∀ n ∈ [8, 9, 10, 0x10, 0x16, 0x18, 0x20, 0x28, 0x2E], let s := vec 5 (square n)
    (∀ i ∈ [Instr.vadd g0 2 1 63, .vsub g0 2 1 63, .vmul g0 2 1 63, .vfma g0 2 1 63, .vfms g0 2 1 63, .vmin g0 2 1 63,
      .vmax g0 2 1 63, .vabs g0 2 1, .vneg g0 2 1, .viota g0 2, .vscl g0 2 1 63], s.opRuns i = true) ∧
    isReady [2, 1, 63] isIF s = true ∧ isReady [2, 1] isIF s = true ∧ isReady [2] isIF s = true ∧
    (match shapeFmt s.shape with
     | .flt f => decide (f.signed = decide (n < 0x20))
     | _ => false) = true := by
  decide +kernel

theorem meets_VectorBitsAndMoves :
    ∀ n ∈ [0, 4, 5, 6, 7, 8, 10, 0x10], let s := vec 5 (square n)
    (∀ i ∈ [Instr.vand g0 2 1 63, .vor g0 2 1 63, .vxor g0 2 1 63, .vsel g0 2 1 63, .vmov g0 2 1, .vceq g0 2 1 63,
      .vclt g0 2 1 63, .vcle g0 2 1 63, .vcltu g0 2 1 63, .vbc g0 2 1, .vrowsh g0 2 1 127, .vcolsh g0 2 1 1, .vesh g0 2 1 1,
      .vrot g0 2 1 1, .vtrn g0 2 1], s.opRuns i = true) ∧
    isReady [2, 1, 63] anyFmt s = true ∧ (n ≠ 7 → isReady [2, 1, 63] isIF s = true ∧ isReady [2, 1] isIF s = true ∧ isReady [2] isIF s = true) ∧
    (n < 7 → isReady [2, 1, 63] isI s = true) := by
  decide +kernel

theorem meets_VectorConversions :
    (∀ n ∈ [0, 4, 8, 10, 0x10], let s := vec 5 (square n)
      (∀ i ∈ [Instr.vcvt g0 2 1 0 0x0A, .vcvt g0 2 1 0 0x0B, .vpack3 g0 2 1, .vunp3 g0 2 1, .vcmpr g0 2 1, .vget g0 5 1 255,
        .vput g0 2 1 255, .vget g0 5 1 0], s.opRuns i = true) ∧
      isReady [2, 1] isIF s = true ∧ isReady [2] isIF s = true ∧ isReady [1] isIF s = true ∧ shapeN s.shape = 256 ∧ shapeCols s.shape % 4 = 0) ∧
    (fmtAssigned 0x0A = true ∧ isIF (fmtOf 0x0A) = true ∧ fmtConv 0x0B = false) ∧
    (∀ n ∈ [0, 7], let s := vec 5 (square n)
      isReady [2, 1] anyFmt s = true ∧ (shapeFmt s.shape = .int 8 true ∨ shapeFmt s.shape = .tern) ∧ shapeN s.shape ≤ 1024) ∧
    shapeCols (vec 5 0x01000F04).shape % 4 ≠ 0 ∧
    (let s := vec 5 (square 4)
     isReady [1] isIF s = true ∧ (255 : BitVec 8).toNat < shapeN s.shape ∧ shapeFmt s.shape = .int 32 true) ∧
    (let s := vec 5 (square 10)
     isReady [1] isF s = true ∧ (255 : BitVec 8).toNat < shapeN s.shape) ∧
    (let s := vec 5 0x00801004
     isReady [2] isIF s = true ∧ (127 : BitVec 8).toNat < shapeN s.shape ∧ shapeN s.shape ≤ (128 : BitVec 8).toNat) := by
  decide +kernel

theorem meets_FunctionsAndLatches :
    (∀ n ∈ [8, 9, 10, 0x10, 0x28], let s := vec 7 (square n)
      let b := vec 7 (square n) { occF := 1 }
      (∀ i ∈ [Instr.fexp2 g0 2 1, .flog2 g0 2 1, .frecip g0 2 1, .frsqrt g0 2 1, .fsqrt g0 2 1, .ftanh g0 2 1, .fsigm g0 2 1,
        .fsin g0 2 1, .fcos g0 2 1, .fdiv g0 2 1 63], s.opRuns i = true ∧ b.opRuns i = true) ∧
      isReady [2, 1] isF s = true ∧ isReady [2, 1, 63] isF s = true ∧ isReady [2, 1] isF b = true ∧ isReady [2, 1, 63] isF b = true ∧
      s.regs.occF = 0 ∧ b.regs.occF ≠ 0) ∧
    isF (shapeFmt (vec 7 (square 4)).shape) = false ∧
    (∀ n ∈ [0, 4, 10], let s := vec 8 (square n)
      (∀ i ∈ [Instr.qadd g0 1 1 0, .qmax g0 1 1 1, .qmin g0 1 1 2, .qscan g0 1 1 0, .qmov g0 2 1, .qclr g0 1, .qadd g0 1 1 3,
        .qscan g0 1 1 3], s.opRuns i = true) ∧
      isReady [1] isIF s = true ∧ isReady [2] isIF s = true ∧ isReady [] isIF s = true ∧ shapeN s.shape ≤ 256 ∧ Map.get 0 s.regs.qcount 1 = 0) ∧
    (∀ n ∈ [0, 1, 2], (qGroups (square 4) (BitVec.ofNat 2 n)).length = if n = 2 then 1 else 16) ∧
    (let full := vec 8 (square 4) { qcount := [(1, 16)], qkind := 0 }
     let kind := vec 8 (square 4) { qcount := [(1, 16)], qkind := 2 }
     let size := vec 8 (square 4) { qcount := [(1, 1)], qkind := 0 }
     (∀ s ∈ [full, kind, size], s.opRuns (.qadd g0 1 1 0) = true ∧ isReady [1] isIF s = true ∧ Map.get 0 s.regs.qcount 1 ≠ 0) ∧
     (full.regs.qkind.getLsbD 1 = isF (shapeFmt full.shape) ∧ kind.regs.qkind.getLsbD 1 ≠ isF (shapeFmt kind.shape) ∧
       Map.get 0 full.regs.qcount 1 = 16 ∧ Map.get 0 size.regs.qcount 1 ≠ 16)) ∧
    (let wide := vec 8 0x20000200
     (qGroups wide.shape 0).length = 512 ∧ 256 < shapeN wide.shape ∧ wide.opRuns (.qadd g0 1 1 0) = true ∧
     wide.opRuns (.qscan g0 1 1 0) = true) := by
  decide +kernel

theorem meets_VectorOpsRefused :
    (∀ i ∈ [Instr.vadd g0 2 1 63, .vshl g0 2 1 63, .vand g0 2 1 63, .vabs g0 2 1, .fexp2 g0 2 1, .fdiv g0 2 1 63, .viota g0 2,
        .vmov g0 2 1, .vrowsh g0 2 1 3, .vneg g0 2 1, .vcvt g0 2 1 0 10, .vpack3 g0 2 1, .vunp3 g0 2 1, .vcmpr g0 2 1,
        .vscl g0 2 1 63, .vget g0 1 1 5, .vput g0 2 1 5, .vbc g0 2 1, .qadd g0 1 1 0, .qscan g0 1 1 2, .qmov g0 2 1, .qclr g0 1],
      (inCtx 5 {} 4).opRuns i = true ∧ (one 5 {}).opRuns i = true ∧ ∀ n ∈ [0, 4, 10], (vec 5 (square n) {} true).opRuns i = true) ∧
    (∀ n ∈ [0, 4, 10], let s := vec 5 (square n) {} true
      s.isS = false ∧ s.me.h = true ∧ signedFmt (shapeFmt s.shape) = true ∧ shapeN s.shape = 256 ∧ shapeCols s.shape % 4 = 0 ∧
      (shapeFmt s.shape = .int 8 true ↔ n = 0) ∧ ∀ x ∈ [(0 : BitVec 2), 1, 2], (qGroups s.shape x).length ≤ 256) ∧
    (fmtAssigned 10 = true ∧ isIF (fmtOf 10) = true ∧ (5 : BitVec 8).toNat < 256) ∧
    (inCtx 5 {} 4).isS = true ∧ (one 5 {}).inVectors 63 = false ∧ (one 5 {}).inVectors 1 = false ∧
    (∀ n ∈ [4, 10], let s := vec 5 (square n) {} true
      s.isS = false ∧ (∀ v ∈ [1, 2, 63], s.inVectors (BitVec.ofNat 7 v) = true) ∧ s.me.h = true ∧
      isIF (shapeFmt s.shape) = true ∧ isI (shapeFmt s.shape) = decide (n = 4) ∧ isF (shapeFmt s.shape) = decide (n = 10)) := by
  decide +kernel

/-! ## Messages at the homes -/

/-- Word 0x1000000 with this owner; cores 1 and 2 hold these L1 words of it. -/
def homeAt (o : Option Owner) (w1 w2 : L1Word := {}) (d : Device := {}) : State :=
  { State.reset with
    dev := { d with owner := match o with
                             | some x => [(0x1000000, some x)]
                             | none => [] },
    cores := [(1, { l1 := [(0x1000000, w1)] }), (2, { l1 := [(0x1000000, w2)] })] }

theorem meets_RegistrationMessages :
    let k := 0x1000000
    let free := homeAt none
    let owned := homeAt (some ⟨2, 5⟩) {} { st := .O, data := 9, grant := 5 }
    let lost := homeAt (some ⟨ownLost, 0⟩)
    let pend := homeAt (some ⟨1, 6⟩) { st := .pending, data := 7, mask := 3 }
    let fwd := homeAt (some ⟨1, 6⟩) { st := .pending, data := 7, mask := 3, fdata := some (8, false) }
    let got := homeAt (some ⟨1, 6⟩) { st := .pending, data := 7, mask := 3, got := some ⟨k, 1, 6, none, true⟩ }
    (got.wbSent k 1 6 = false ∧ (got.core 1).dead = false ∧ (1 : Nat) ≠ ownBridge ∧ tagOf 6 = 6) ∧
    (∀ s ∈ [free, owned, lost], s.pending = [] ∧ s.scHeld k = false ∧ s.homeNeed 1 k true = none ∧ s.hostBias k = false ∧
      k ∉ s.dev.badMem) ∧
    (free.ownerOf k = none ∧ owned.ownerOf k = some ⟨2, 5⟩ ∧ (2 : Nat) ≠ ownLost ∧ lost.ownerOf k = some ⟨ownLost, 0⟩) ∧
    ((2 : Nat) ≠ ownBridge ∧ (owned.core 2).dead = false ∧ owned.wbSent k 2 5 = false ∧ ((owned.core 2).word k).st = .O ∧
      tagOf ((owned.core 2).word k).grant = 5) ∧
    (((pend.core 1).word k).st = .pending ∧ ((pend.core 1).word k).fdata = none ∧
      ((fwd.core 1).word k).st = .pending ∧ ((fwd.core 1).word k).fdata = some (8, false)) ∧
    (((got.core 1).word k).st = .pending ∧ ((got.core 1).word k).got = some ⟨k, 1, 6, none, true⟩) ∧
    k < 2 ^ 52 ∧ owned.homeHeld k = false := by decide +kernel

theorem meets_WritesAndAtomicsAtHome :
    let k := 0x1000000
    let free := homeAt none
    let owned := homeAt (some ⟨2, 5⟩)
    let gone := homeAt (some ⟨1, 6⟩) {} {} { gone := [⟨k, 2, 5, .core 1⟩] }
    (k < 2 ^ 52 ∧ ∀ s ∈ [free, owned, gone], s.pending = []) ∧ tagOf 5 = 5 ∧
    (owned.dev.gone = [] ∧ owned.ownerOf k = some ⟨2, tagOf 5⟩ ∧ free.ownerOf k ≠ some ⟨2, tagOf 5⟩ ∧ free.dev.gone = []) ∧
    gone.dev.gone = [⟨k, 2, tagOf 5, .core 1⟩] ∧
    (∀ s ∈ [free, owned], s.scHeld k = false ∧ s.homeNeed 0 k true = none ∧ k ∉ s.dev.badMem) ∧
    (free.ownerOf k = none ∧ (2 : Nat) ≠ ownLost) ∧
    (let m : AtomicMsg := ⟨k, true, .add, 3, 0, ⟨0, 0⟩, 3⟩
     let s := { free with cores := [(0, { ctxs := [(0, { asked := [.atomic m] })] })] }
     k + 8 ≤ 2 ^ 52 ∧ s.atomSealed ⟨0, 0⟩ k = false ∧ opWords k true = [k, k + 4] ∧
     (∀ j ∈ [k, k + 4], s.scHeld j = false ∧ s.homeNeed 0 j true = none ∧ s.ownerOf j = none ∧ j ∉ s.dev.badMem) ∧
     Wait.atomic m ∈ (s.ctx ⟨0, 0⟩).asked) ∧
    (let op : ScOp := ⟨k, true, .add, 3, ⟨0, 0⟩, 3, 0⟩
     let key := { op with key := 10 * 16 + 3 }
     let s := { onCore 3 { wheel := [7, 4095], ctxs := [(0, { waits := [.atomsc op], asked := [.atomsc op] })] }
                  { cycle := 266, scq := [key] } with pending := [] }
     let soon := { s with dev := { s.dev with cycle := 265 } }
     let earlier := { s with dev := { s.dev with scq := [key, { op with key := 9 * 16 + 3 }] } }
     (s.core 0).wheel ≠ [] ∧ s.pending = [] ∧ Wait.atomsc op ∈ (s.ctx ⟨0, 0⟩).waits ∧ s.dev.stall = none ∧
     key.key / 16 ≤ s.dev.cycle.toNat ∧ (∀ j ∈ [k, k + 4], s.homeNeed 0 j true = none ∧ s.homeHeld j = false ∧
       s.ownerOf j = none ∧ j ∉ s.dev.badMem) ∧
     soon.dev.cycle.toNat < key.key / 16 + 256 ∧ earlier.scEarlier key = true ∧
     (key.key / 16 + 256 ≤ s.dev.cycle.toNat ∧ s.scEarlier key = false ∧ s.atomSealed ⟨0, 0⟩ k = false) ∧
     Wait.atomsc { key with key := 0 } ∈ (s.ctx ⟨0, 0⟩).asked) := by decide +kernel

/-- A system atomic that waits at the word, so that its line stays. -/
def stays : ScOp := ⟨0x1000000, false, .add, 0, ⟨0, 0⟩, 3, 0⟩

/-- The word not registered, registered and LOST. -/
def readFree : State := homeAt none
def readOwned : State := homeAt (some ⟨2, 5⟩) {} { st := .O, data := 9, grant := 5 } { scq := [stays] }
def readLost : State := homeAt (some ⟨ownLost, 0⟩)

theorem sliceEvict_nothing {s : State} (h : ∀ n, s.evictable n = []) : s.sliceEvict = s := by
  unfold State.sliceEvict; split <;> simp [h]
theorem meets_ReadsAndCopies_slice :
    ∀ s ∈ [readFree, readOwned, readLost], s.sliceEvict.homeNeed 1 0x1000000 false = none := by
  have e : ∀ s ∈ [readFree, readOwned, readLost], ∀ n, s.evictable n = [] := by
    intro s hs n
    by_cases h : 0x1000000 / 128 = n
    · subst h; revert s; decide +kernel
    · simp only [List.mem_cons, List.not_mem_nil, or_false] at hs
      rcases hs with rfl | rfl | rfl
      · simp [State.evictable, readFree, homeAt]
      · simp [State.evictable, readOwned, homeAt, h]
      · simp [State.evictable, readLost, homeAt, h]
  intro s hs
  rw [sliceEvict_nothing (e s hs)]
  revert s; decide +kernel

theorem meets_ReadsAndCopies :
    let k := 0x1000000
    let free := readFree
    let owned := readOwned
    let m : ReadMsg := ⟨k, ⟨1, 0⟩, .fill, 0x400000, none, []⟩
    (∀ s ∈ [free, owned, readLost], s.dev.recipes = [] ∧ s.tileGone m = false ∧ s.privAt k = none ∧ m.page = none ∧
      s.pending = []) ∧
    (free.ownerOf k = none ∧ k ∉ free.dev.badMem ∧ owned.ownerOf k = some ⟨2, 5⟩ ∧ readLost.ownerOf k = some ⟨ownLost, 0⟩) ∧
    ((2 : Nat) ≠ ownBridge ∧ (owned.core 2).dead = false ∧ ((owned.core 2).word k).st = .O ∧
      ((free.core 2).word k).st ≠ .O ∧ ((free.core 2).word k).st ≠ .pending ∧
      (let p := homeAt (some ⟨2, 6⟩) {} { st := .pending }
       ((p.core 2).word k).st = .pending ∧ p.homeNames 2 k = true ∧
       ((p.setDev { p.dev with owner := [] }).core 2).word k = (p.core 2).word k ∧
       (p.setDev { p.dev with owner := [] }).homeNames 2 k = false ∧
       (p.setDev { p.dev with owner := [] }).revokeHeld 2 k = false ∧ (p.core 2).dead = false ∧ (2 : Nat) ≠ ownBridge ∧
       (homeAt none {} { st := .pending, mask := 15 }).dev = free.dev ∧
       (((homeAt none {} { st := .pending, mask := 15 }).core 2).word k).mask = 15) ∧
      (let b := { owned with cores := [(2, { (owned.core 2) with poison := [(3, k)] })] }
       ((b.core 2).word k).st = .O ∧ (b.core 2).isBad k = true ∧ (b.core 2).dead = false ∧ (owned.core 2).isBad k = false)) ∧
    (free.hostBias k = false ∧ ((free.core 1).word k).st = .I ∧ m.hidden = [] ∧
      (let p := homeAt none {} {} { priv := [(0x1000001, 1)] }
       p.privAt k = some (0x1000001, 1) ∧ p.hostBias k = false ∧ ((p.core 1).word k).st = .I)) ∧
    (let l : ReadMsg := { m with why := .lda 3 }
     Wait.lda 3 l.word l.va ∈ ({ free with cores := [(1, { ctxs := [(0, { asked := [.lda 3 k 0x400000] })] })] }.ctx ⟨1, 0⟩).asked) ∧
    (∀ p ∈ free.dev.owner, p.1 / 128 = k / 128 → p.2 = none) ∧
    (∃ p ∈ owned.dev.owner, p.1 / 128 = k / 128 ∧ p.2 ≠ none) := by decide +kernel

/-- A private page at 32 MiB that core 1's translation maps; its leaf entry stands at 0x20000. -/
def privateSpace : State :=
  { State.reset with
    dev := { openDev with priv := [(0x2000001, 0)] },
    mem := putBytes [] 0x20000 (leBytes 8 (2 ^ 63 + 2 ^ 62 + 0x2000000)),
    cores := [(1, { tlb := [⟨7, 0x400000, 1, 0, true, true, true, 0x2000000⟩] })] }

theorem meets_PrivatePageEnds :
    (match (pageLeaves privateSpace 0x2000001 privateSpace.dev.asids).bind fun ls => sharePages ls privateSpace with
     | .ok u => decide (u.pageEntries 0x2000001 ≠ [])
     | _ => false) = true ∧
    (match sharePages [(7, 0x20000)] privateSpace with
     | .ok u => bitsOf (BitVec.ofNat 64 (u.opValue 0x20000 true)) 61 59
     | _ => 0) = 1 := by decide +kernel

/-! ## Engines -/

/-- Core 0 of ASID 7, its page table a root whose first entry leads to `e`. -/
def walks (e : Dword) (c : Ctx := {}) : State :=
  { onCore 3 { bound c with tlb := [] } { openDev with asids := [(7, { bound := true, root := 0x10000 })] } with
    mem := putBytes (putBytes [] 0x10000 (leBytes 8 (2 ^ 63 + 0x20000))) 0x20000 (leBytes 8 e.toNat), cur := {} }

/-- A leaf of class 1 with every right at physical address 0, and an svc entry. -/
def leafEntry : Dword := BitVec.ofNat 64 (2 ^ 63 + 2 ^ 62 + 2 ^ 59 + 2 ^ 57 + 2 ^ 56 + 2 ^ 55)
def svcEntry : Dword := BitVec.ofNat 64 (2 ^ 58)

theorem meets_FetchesAndWalks_walks :
    let w : Walk := ⟨7, 0x400000, .read, ⟨0, 0⟩⟩
    let g : Agent := ⟨0, 0, 7, ⟨0, 18, BitVec.ofNat 32 (0x400000 / 65536)⟩⟩
    let c : Ctx := { asked := [.walk 0x400000 .read] }
    let s := walks leafEntry c
    let barred := { walks leafEntry c with dev := { (walks leafEntry c).dev with tables := [] } }
    (∀ t ∈ [s, walks svcEntry c, walks 0 c, barred], w ∉ t.dev.walks ∧ t.walkWaiters w = [⟨0, 0⟩] ∧
      (t.core 0).binding.holdVec ≠ 0 ∧ (t.ctx ⟨0, 0⟩).asked = [.walk 0x400000 .read] ∧ isWalk w.va (.walk 0x400000 .read) = true ∧
      (t.ctx ⟨0, 0⟩).aheadFetch (.walk 0x400000 .read) = false) ∧
    (match s.walk g w.va with
     | .leaf e => decide (e = ⟨7, 0, 2, 1, true, true, true, 0⟩)
     | _ => false) = true ∧
    (match (walks svcEntry c).walk g w.va with
     | .svc => true
     | _ => false) = true ∧
    (match (walks 0 c).walk g w.va with
     | .bad 1 => true
     | _ => false) = true ∧
    (match barred.walk g w.va with
     | .refused _ => true
     | _ => false) = true ∧
    w ∈ (s.setDev { s.dev with walks := [w] }).dev.walks ∧ (walks leafEntry {}).walkWaiters w = [] ∧
    (walks leafEntry {}).walkEngines w = [] ∧
    (let e := walks leafEntry {}
     let e := e.setDev { e.dev with engWalks := [⟨⟨0, 1, 0⟩, ⟨0, 0⟩, 7, 0x400000, none⟩] }
     e.walkWaiters w = [] ∧ (e.walkEngines w).map (·.id.core) = [0]) ∧
    (let b := s.setDev { s.dev with
       badMem := [0x20000], asids := [(7, { bound := true, root := 0x10000 }), (8, { bound := true, root := 0x10000 })] }
     (match b.walk g w.va with
      | .bad 4 => true
      | _ => false) = true ∧ b.sharedWalk g w.va = [7, 8] ∧ w ∉ b.dev.walks ∧ b.walkWaiters w = [⟨0, 0⟩]) ∧
    (let b := s.setDev { s.dev with badMem := [0x20000] }
     (match b.walk g w.va with
      | .bad 4 => true
      | _ => false) = true ∧ b.sharedWalk g w.va = []) ∧
    (let f := walks svcEntry { asked := [.walk 0x400000 .fetch] }
     (f.ctx ⟨0, 0⟩).aheadFetch (.walk 0x400000 .fetch) = true ∧ f.walkWaiters w = [⟨0, 0⟩]) := by decide +kernel

theorem meets_FetchesAndWalks_fills :
    let f : Fill := ⟨0, 0x400000, 0x10000⟩
    let s := walks leafEntry { asked := [.fill 0x400004] }
    let lost := { s with dev := { s.dev with owner := [(0x10000, some ⟨ownLost, 0⟩)] } }
    (match s.packetBytes (s.fetchAgent 0 f.va) f.pa with
     | .ok bs => bs.length
     | _ => 0) = 64 ∧
    (match s.packetBytes (s.fetchAgent 0 f.va) (2 ^ 44) with
     | .need (.native 1 _ 64 []) => true
     | _ => false) = true ∧
    (match lost.packetBytes (lost.fetchAgent 0 f.va) f.pa with
     | .err e => e
     | _ => 0) = 4 ∧
    Wait.fill 0x400004 ∈ (lost.ctx ⟨0, 0⟩).asked ∧ (0x400004 : Nat) / 64 = f.va / 64 := by decide +kernel

theorem meets_RowsStripsAndStreams_queues :
    let q := fun (base rows : Nat) (got : List Byte) (acc : List Acc) => mapped 3
      { gqt := BitVec.ofNat 64 base, gqAddr := [.gather 1 (BitVec.ofNat 64 base) 4 got],
        gqData := List.replicate rows ⟨0, 0, [], none⟩, acc := acc }
    let long := 3 * 2 ^ 60 + 0x400000
    let span := fun (s : State) (n : Nat) => s.engSpan (s.agent ⟨0, 0⟩ 16 4) (gqAddrOf s.me.gqt 1 + n)
      (min (gqRow s.me.gqt - n) (128 - (gqAddrOf s.me.gqt 1 + n) % 128))
    let waits := fun s : State =>
      s.me.mustWait false 4 4 (gqClass s.me.gqt) (gqAddrOf s.me.gqt 1) (gqAddrOf s.me.gqt 1 + gqRow s.me.gqt)
    let h : Held := ⟨0, 0, 0x1000, 0x1008, .write [⟨0x1000, none, 0, leBytes 8 9, false⟩] none⟩
    let m := mapped 3 { mq := [h, h], seq := 2 }
    (∀ s ∈ [q 0x400000 0 [] [], q 0x400000 15 [] [], q 0x200000 0 [] [], q long 0 [] [], q long 0 (List.replicate 128 0) []],
      s.me.gqData.length < 16 ∧ waits s = false) ∧
    (q 0x400000 0 [] []).me.gqAddr = [.gather 1 0x400000 4 []] ∧
    (match span (q 0x400000 0 [] []) 0 with
     | .ok bs => bs.length
     | _ => 0) = gqRow 0x400000 ∧
    (match span (q long 0 [] []) 0 with
     | .ok bs => bs.length
     | _ => 0) = 128 ∧ gqRow (BitVec.ofNat 64 long) = 256 ∧
    (match span (q long 0 (List.replicate 128 0) []) 128 with
     | .ok bs => bs.length
     | _ => 0) = 128 ∧
    (match span (q 0x200000 0 [] []) 0 with
     | .err e => e
     | _ => 0) = 3 ∧
    (16 ≤ (q 0x400000 16 [] []).me.gqData.length ∧ waits (q 0x400000 0 [] [⟨0, 0, 0x400040, 0x400048, .atHome 1⟩]) = true) ∧
    (m.me.wantsFlush = false ∧ m.me.mq.find? m.me.mayPerform = some h ∧ (m.performHeld ⟨0, 0⟩ h).isSome = true) ∧
    (let r : Retire := ⟨5, 0, 3, 0x10000, [1], 1, [(0, 1)]⟩
     let k : Core := { retires := [r], score := [⟨5, 0x10000, 0x10080, true, 0, 3⟩] }
     k.retires.find? (fun x => decide (x.key = 5)) = some r ∧ k.scoreWaits 5 = false ∧
     ({ k with score := ⟨4, 0x10000, 0x10080, false, 0, 4⟩ :: k.score } : Core).scoreWaits 5 = true) := by decide +kernel

/-- A chunk of a stream is not empty where its link has room and something is left. -/
theorem chunk_pos (c b l : Nat) (hb : b ≠ 0) (hl : l ≠ 0) : min (min (c % 1024 + 1) b) l ≠ 0 := by omega

theorem meets_RowsStripsAndStreams_links :
    let x : Strip := ⟨false, [], false⟩
    let y : Stream := ⟨3000, [], 5, 0x10000, 3000, false⟩
    let s := { State.reset with cores := [(0, { links := [(1, { outStrip := some x, outStreams := [y] })] })] }
    let full := { State.reset with cores := [(0, { links := [(1, { outStrip := some x })] }), (1, { links := [(3, { inStrip := some x })] })] }
    s.neighbour 0 1 = some 1 ∧ full.neighbour 0 1 = some 1 ∧ dirBack 1 = 3 ∧ ((s.core 0).link 1).outStrip = some x ∧
    ((s.core 1).link 3).inStrip = none ∧ ((full.core 0).link 1).outStrip = some x ∧ ((full.core 1).link 3).inStrip ≠ none ∧
    (((s.core 0).link 1).outStreams = [y] ∧ (s.core 0).scoreWaits 5 = false ∧ (1 : Nat) ≠ 0 ∧
      16384 - (((s.drainStream 1 3).core 1).link 3).buffered ≠ 0 ∧ y.left ≠ 0) ∧
    (let t := { State.reset with cores := [(0, { links := [(1, { outStreams := [y] })], score := [⟨4, 0x10000, 0x10080, true, 0, 4⟩,
        ⟨5, 0x10000, 0x10080, false, 0, 3⟩] })] }
     (t.core 0).scoreWaits 5 = true ∧ ((t.core 0).link 1).outStreams = [y]) := by
  decide +kernel

/-- Transfer 0 of channel 1 of core 0, of this kind, with these ranges still to move and this piece begun. -/
def moving (k : XferKind) (todo : List (Nat × Nat) := []) (cur : Option (Nat × Nat) := none) (f : Core → Core := id) : State :=
  onCore 3 (f { bound {} with
    tlb := pages, cnext := [(1, 1)], score := [⟨5, 0x10000, 0x10080, true, 0, 3⟩],
    xfers := [⟨1, 0, 0, 7, 0, 0, k, 5, false, todo, cur, [], false, {}⟩] }) openDev

/-- The transfer that `moving` describes. -/
def State.moves0 (s : State) : Xfer := (s.findXfer ⟨0, 1, 0⟩).getD default

/-- A local INT8 tile of two elements at pool offset 0x10000. -/
def descPair : Dword := BitVec.ofNat 64 (0x200 * 2 ^ 42 + 1)

/-- A template of one element of eight bytes with one loop of count 1, a plain copy into the pool or into memory, and the
parameters of a copy from 4 MiB into the pool at 0x10800. -/
def template (kind : Nat) : List Byte := leBytes 8 (2 ^ 26 + kind * 16 + 3) ++ leBytes 4 1 ++ List.replicate 116 0
def copyPar : List Byte := leBytes 8 0x400000 ++ leBytes 8 0x10800 ++ List.replicate 16 0

theorem meets_TransfersComplete_loads :
    let x : XferId := ⟨0, 1, 0⟩
    let g : Agent := ⟨0, 0, 7, x⟩
    let tld := fun va todo cur => moving (.tld 3 descPair 0 va) todo cur
    let two := [(0, 2)]
    (∀ p ∈ [(0x400000, 1), (0x40007F, 2), (0x600000, 2), (0x200000, 2)], let s := tld p.1 two (some (0, p.2))
      (s.findXfer x).isSome = true ∧ (s.core 0).scoreWaits 5 = false ∧ s.nextPiece g p.1 (State.moves0 s) = some (0, p.2) ∧
      (((State.moves0 s).took 0 (List.replicate p.2 0) false).todo = [] ↔ p.2 = 2)) ∧
    (tld 0x400000 [] none).nextPiece g 0x400000 (State.moves0 (tld 0x400000 [] none)) = none ∧
    (∀ p ∈ [(0x400000, 1), (0x40007E, 2)],
      (match (tld p.1 two (some (0, p.2))).unitRead g p.1 p.2 with
       | .ok b => decide (b = (List.replicate p.2 0, false))
       | _ => false) = true) ∧
    (match (tld 0x600000 two (some (0, 2))).unitRead g 0x600000 2 with
     | .need (.native 1 _ 2 []) => true
     | _ => false) = true ∧
    (match (tld 0x200000 two (some (0, 2))).unitRead g 0x200000 2 with
     | .err e => e
     | _ => 0) = 3 := by decide +kernel

theorem meets_TransfersComplete_stores :
    let x : XferId := ⟨0, 1, 0⟩
    let g : Agent := ⟨0, 0, 7, x⟩
    let two := [(0, 2)]
    let tst := fun va n => moving (.tst 3 descPair 0 va) two (some (0, n))
    let bad := moving (.tst 3 descPair 0 0x400000) two (some (0, 1)) fun k => { k with poison := [(4, 0x10000 / 8)] }
    let lost := (tst 0x400000 1).setDev { openDev with owner := [(0x1000000, some ⟨ownLost, 0⟩)] }
    (∀ p ∈ [(0x400000, 1), (0x40007E, 2), (0x600000, 2), (0x200000, 2)], let s := tst p.1 p.2
      (s.findXfer x).isSome = true ∧ (s.core 0).scoreWaits 5 = false ∧ s.nextPiece g p.1 (State.moves0 s) = some (0, p.2) ∧
      (s.core 0).poolPoison (descOff descPair) p.2 = false) ∧
    (∀ p ∈ [(0x400000, 1), (0x40007E, 2)],
      (match (tst p.1 p.2).engStore g p.1 (((tst p.1 p.2).core 0).tileBytes descPair (0, p.2)) with
       | .ok q => decide (q.findXfer x = (tst p.1 p.2).findXfer x)
       | _ => false) = true) ∧
    (bad.nextPiece g 0x400000 (State.moves0 bad) = some (0, 1) ∧ (bad.core 0).poolPoison (descOff descPair) 1 = true) ∧
    (match (tst 0x600000 2).engStore g 0x600000 (((tst 0x600000 2).core 0).tileBytes descPair (0, 2)) with
     | .need (.native 3 _ 2 _) => true
     | _ => false) = true ∧
    (match (tst 0x200000 2).engStore g 0x200000 (((tst 0x200000 2).core 0).tileBytes descPair (0, 2)) with
     | .err e => e
     | _ => 0) = 3 ∧
    (lost.nextPiece g 0x400000 (State.moves0 lost) = some (0, 1) ∧ wholeWords 0x400000 (0, 1) two = (0, 2) ∧
      ∀ n ∈ [1, 2], (match lost.engStore g 0x400000 ((lost.core 0).tileBytes descPair (0, n)) with
       | .err e => e
       | _ => 0) = 4) := by decide +kernel

theorem meets_TransfersComplete_others :
    let x : XferId := ⟨0, 1, 0⟩
    let g : Agent := ⟨0, 0, 7, x⟩
    let tcpy := fun n => moving (.tcpy 3 descPair descPair) [(0, 2)] (some (0, n))
    let tstx := fun n => moving (.tstx descPair 0 64) [(0, 2)] (some (0, n))
    let waits := moving (.tcpy 3 descPair descPair) [(0, 2)] none fun k =>
      { k with score := k.score ++ [⟨4, 0x10000, 0x10080, false, 0, 4⟩] }
    let row := fun (l : List GqEntry) =>
      moving (.scatter 0x400000 [1, 2]) [(0, 2)] (some (0, 2)) fun k => { k with ctxs := [(0, { gqAddr := l })] }
    ((waits.findXfer x).isSome = true ∧ (waits.core 0).scoreWaits 5 = true) ∧
    (∀ s ∈ [tcpy 1, tcpy 2, tstx 1, tstx 2, row [], row [.scatter x]], (s.findXfer x).isSome = true ∧ (s.core 0).scoreWaits 5 = false) ∧
    (∀ n ∈ [1, 2], (tcpy n).nextPiece g 0 (State.moves0 (tcpy n)) = some (0, n) ∧
      (tstx n).nextPiece g 0 (State.moves0 (tstx n)) = some (0, n) ∧
      (((State.moves0 (tstx n)).took 0 (List.replicate n 0) false).todo = [] ↔ n = 2)) ∧
    ((row []).ctx ⟨0, 0⟩).gqAddr.head? ≠ some (.scatter x) ∧ ((row [.scatter x]).ctx ⟨0, 0⟩).gqAddr.head? = some (.scatter x) ∧
    (row [.scatter x]).nextPiece g 0x400000 (State.moves0 (row [.scatter x])) = some (0, 2) ∧
    (match (row [.scatter x]).engStore g 0x400000 [1, 2] with
     | .ok q => decide (q.findXfer x = (row [.scatter x]).findXfer x)
     | _ => false) = true := by decide +kernel

/-- The template with a completion write. -/
def writes (t : List Byte) : List Byte := leBytes 8 (leNat t % 2 ^ 64 + 2 ^ 23) ++ t.drop 8

/-- Core 0's copy from the parameters and the template at their places in the pool, as it was accepted or not yet, with
what it has done. -/
def copying (v : Dword) (kind : Nat) (started : Bool) (cw : Bool := false) (run : CopyRun := {}) (par : List Byte := copyPar) :
    State :=
  let tpl := if cw then writes (template kind) else template kind
  onCore 3 { bound {} with
    tlb := pages, pool := putBytes (putBytes [] 0x10000 copyPar) 0x30040 tpl,
    bind := some { launch1 with c := 16 }, cnext := [(1, 1)], cb := [(2, ringWord 1 0 0 0)],
    xfers := [⟨1, 0, 0, 7, 0, 0, .copy v started par tpl 0, 5, false, [], none, [], false, run⟩] } openDev

theorem meets_TransfersComplete_copies :
    let x : XferId := ⟨0, 1, 0⟩
    let s := fun (v : Dword) (kind : Nat) => copying v kind false
    let par := fun t : State => t.myCore.poolSpan (t.myCore.binding.pb1 + 0) 32
    let tpl := fun t : State => t.myCore.poolSpan t.myCore.binding.constBase 128
    let bad := (s 0 0).setMyCore { (s 0 0).myCore with poison := [(4, 0x10000 / 8)] }
    (∀ t ∈ [s 0 0, s 0 1, s (BitVec.ofNat 64 (2 ^ 32)) 0, bad], (t.findXfer x).isSome = true) ∧
    (∀ n ∈ [0, 1], par (s 0 n) = copyPar ∧ tpl (s 0 n) = template n ∧ (s 0 n).myCore.copyFault 0 copyPar (template n) = some 0 ∧
      tplKind (template n) = n ∧ tplCw (template n) = false ∧ tplElems (template n) = 1 ∧
      (s 0 n).myCore.poolPoison 0x10000 32 = false ∧ (s 0 n).myCore.poolPoison (s 0 n).myCore.binding.constBase 128 = false) ∧
    bad.myCore.poolPoison 0x10000 32 = true ∧
    (s (BitVec.ofNat 64 (2 ^ 32)) 0).myCore.copyFault (BitVec.ofNat 64 (2 ^ 32)) copyPar (template 0) = some 7 ∧
    (let p := leBytes 8 0x400000 ++ leBytes 8 2 ++ List.replicate 16 0
     (s 0 2).myCore.copyFault 0 p (template 2) = none) := by decide +kernel

/-- A copy of one element has one order. -/
theorem elemOrder_one (x : XferId) (t : List Byte) (h : tplElems t = 1) : elemOrder x t = [0] := by
  unfold elemOrder
  simp only [h]
  split
  · rfl
  · simp [copyOrder, Nat.mod_one, List.range_succ]

theorem meets_CopiesComplete :
    let x : XferId := ⟨0, 1, 0⟩
    let g : Agent := ⟨0, 0, 7, x⟩
    let left : CopyRun := { left := [0] }
    let from_ := fun a : Nat => leBytes 8 a ++ leBytes 8 0x10800 ++ List.replicate 16 0
    let s := fun (kind : Nat) (a : Nat) => copying 0 kind true false left (from_ a)
    let mine := fun t : State => t.myCore.xfers.all fun y => decide (some y = t.findXfer x)
    let step := fun (kind : Nat) (a : Nat) => (s kind a).copyStep g x (template kind) (from_ a) 0 0 left
    (∀ n ∈ [0, 1, 2, 3], tplElems (template n) = 1 ∧ tplKind (template n) = n ∧ tplCw (template n) = false) ∧
    tplCw (writes (template 1)) = true ∧ (∀ k ∈ [0, 1, 2, 3], ((s k 0x400000).findXfer x).isSome = true) ∧
    (let d := copying 0 1 false true
     (d.findXfer x).isSome = true ∧ mine d = true ∧ mine (copying 0 1 false) = true ∧
     (match d.engStore g (parWord copyPar 2).toNat (leBytes 8 (parWord copyPar 3).toNat) with
      | .ok q => q.myCore.xfers.all fun y => decide (some y = d.findXfer x)
      | _ => false) = true) ∧
    ((s 2 0x400000).myCore.slotEarlier 2 0 = true ∧ (s 2 0x400000).myCore.slotEarlier 2 0x4000 = false) ∧
    (∀ k ∈ [0, 1],
      (match (s k 0x400000).copyElem g (template k) (from_ 0x400000) 0 0 [] with
       | .ok _ => true
       | _ => false) = true ∧
      (match (s k 0x200000).copyElem g (template k) (from_ 0x200000) 0 0 [] with
       | .err e => e
       | _ => 0) = 3 ∧
      (match step k 0x400000 with
       | .ok q => decide (q.1.findXfer x = (s k 0x400000).findXfer x) && decide (q.2.err = 0)
       | _ => false) = true ∧
      (match step k 0x200000 with
       | .ok q => decide (q.2.err = 3)
       | _ => false) = true ∧
      (match step k 0x600000 with
       | .need _ => true
       | _ => false) = true) ∧
    (∀ e ∈ [0, 3], ∀ k ∈ [0, 1, 2, 3], ∀ w ∈ [false, true], mine (copying 0 k true w { err := e }) = true) ∧
    (let d := copying 0 1 true true
     let v := d.setMyCore (d.myCore.setKind x (.copy 0 false copyPar (writes (template 1)) 0))
     match v.engStore g (parWord copyPar 2).toNat (leBytes 8 (parWord copyPar 3).toNat) with
     | .ok q => q.myCore.xfers.all fun y => decide (some y = v.findXfer x)
     | _ => false) = true := by decide +kernel

/-! ## Landing, regrow, work, pre-emption -/

/-- Core 0 with this landing zone as its zone 1, open to ASID 7 of node 0 or to no one. -/
def lands (z : Zone) (open_ : Bool) (q : List LzQueued := []) : State :=
  { State.reset with
    cores := [(0, { zones := [(1, z)], lzq := q })],
    dev := { cycle := 125000,
             tables := if open_ then [(2 * 65536, { groups := [(7, 1)], rights := [(1, 0x80)] })] else [] } }

theorem meets_LandingMessages :
    let m := fun count : Nat => (⟨0, ⟨5, 0⟩, 3, 7, 0, 1, count, 65536⟩ : LzReq)
    let full := { zone0 { state := 1 } with slots := [(0, { state := 1 }), (1, { state := 3 })] }
    let queued : LzReq := ⟨0, ⟨5, 0⟩, 3, 7, 0, 1, 8, 9⟩
    ((m 8).tag = 65536 ∧ (m 8).node = (lands {} true).dev.node.toNat) ∧
    (∀ o ∈ [true, false], (((lands {} o).core 0).zone 1).valid = false ∧ (lands {} o).landRight 0 1 0 7 = o) ∧
    (∀ z ∈ [zone0 {}, full], ∀ o ∈ [true, false], ((lands z o).core 0).zone 1 = z ∧ z.valid = true ∧
      (lands z o).landRight 0 1 0 7 = o ∧ z.size = 256) ∧
    ((zone0 {}).freeSlot = some 0 ∧ (zone0 { state := 1 }).freeSlot = some 1 ∧ full.freeSlot = none) ∧
    (16 ≤ ((lands full true (List.replicate 16 ⟨queued, 0, none, false⟩)).core 0).lzq.length ∧
      ((lands full true (List.replicate 15 ⟨queued, 0, none, false⟩)).core 0).lzq.length < 16) ∧
    (let p := fun n : Nat => (⟨0, 7, 0, 1, 0, 4, 0, 0, List.replicate n 1, ⟨5, 0, 0⟩, false⟩ : LzPkt)
     let l : LzSlot := { state := 2, rn := 4, count := 16, landed := 8 }
     ((lands (zone0 l) true).core 0).zone 1 = zone0 l ∧ 0 < (zone0 l).count ∧ (zone0 l).slot 0 = l ∧
     (∀ n ∈ [1, 8], (p n).rn = l.rn ∧ l.landed + (p n).bytes.length ≤ l.count ∧ l.live = true ∧
       (p n).off + n ≤ (zone0 l).size ∧ (lands (zone0 l) true).landRight 0 1 (p n).node (p n).asid = true ∧
       (p n).ethernet = false) ∧
     ¬ l.landed + (p 9).bytes.length ≤ l.count ∧ l.live = true ∧ (zone0 l).valid = true) := by decide +kernel

theorem meets_LandingMessages_ends :
    let m := fun count : Nat => (⟨0, ⟨5, 0⟩, 3, 7, 0, 1, count, 65536⟩ : LzReq)
    let full := { zone0 { state := 1 } with slots := [(0, { state := 1 }), (1, { state := 3 })] }
    let queued : LzReq := ⟨0, ⟨5, 0⟩, 3, 7, 0, 1, 8, 9⟩
    ((125000 : Nat) ≤ ((lands {} true).dev.cycle - 0).toNat ∧ ((lands {} true).dev.cycle - 1).toNat < 125000) ∧
    (let z := zone0 { state := 4 }
     (z.slot 0).state = 4 ∧ ((lands z true).core 0).lzq = [] ∧ Map.wf {} z.slots = true ∧ ∀ p ∈ z.slots, p.1 = 0) ∧
    (let x : XferId := ⟨0, 1, 0⟩
     let pk : LzPkt := ⟨0, 7, 0, 1, 0, 4, 0, 0, [], x, true⟩
     let l : LzSend := ⟨x, BitVec.ofNat 64 (2 ^ 18), 3, [pk, pk], 3, 0, true⟩
     let s := { lands {} true with dev := { cycle := 12500, lzSends := [l] } }
     s.dev.lzSends = [l] ∧ l.x = x ∧ l.base + l.pkts.length = 5 ∧ l.ethernet = true ∧ handleNode l.handle ≠ s.dev.node.toNat ∧
     s.frozenCore l.x.core = false ∧ 12500 ≤ (s.dev.cycle - l.since).toNat) ∧
    (let o : LzOut := ⟨{ m 8 with tag := 9 }, 0, 0, true, none, false, false⟩
     let s := { State.reset with cores := [(5, { ctxs := [(0, { asked := [o.req.wait] })] })],
                                 dev := { cycle := 250000, lzOut := [o] } }
     handleNode (BitVec.ofNat 64 (2 ^ 18)) ≠ s.dev.node.toNat ∧ o.gone = false ∧ { o with gone := true }.gone = true ∧
     bitsOf (BitVec.ofNat 64 (2 ^ 18)) 63 60 = 0 ∧ s.dev.lzOut = [o] ∧ o.req.wait ∈ (s.ctx o.req.who).asked ∧ bitsOf (0 : Dword) 63 60 ≠ 15 ∧
     250000 ≤ (s.dev.cycle - o.sent).toNat ∧ o.ethernet = true ∧ 12500 ≤ (s.dev.cycle - o.resent).toNat) ∧
    (let r : LzQueued := ⟨queued, 0, none, false⟩
     ((lands full true [r]).core 0).lzq = [r] ∧ r.req.node = 0 ∧ 125000 ≤ ((lands full true [r]).dev.cycle - r.since).toNat) := by decide +kernel

theorem meets_RegrowsStart :
    let q := fun d : Nat => (⟨0x3000000, 0xA00000, 7, d, ⟨0, 0⟩, none⟩ : RegrowReq)
    let tile := fun st : TileState => tileAt [recipe0 st 0] { asked := [.regrow 0x3000000 0xA00000] }
    (∀ st ∈ [TileState.declared, .sealed, .absent, .queued, .growing], (tile st).recipe 0x3000000 = some (recipe0 st 0) ∧
      .regrow 0x3000000 0xA00000 ∈ ((tile st).ctx ⟨0, 0⟩).asked) ∧
    (depthFault (recipe0 .absent 0) 5 0xA00000).isSome = true ∧ (∀ d ∈ [1, 2, 4], depthFault (recipe0 .absent 0) d 0xA00000 = none) ∧
    (tile .absent).regrowTurn (q 1) = true ∧ (∀ st ∈ [TileState.absent, .queued, .growing], (tile st).circle (recipe0 st 0) (q 1) = none) ∧
    (let c : Ctx := { slice := some ⟨0x3004000, 0xA04000, 2, 0, 10⟩, asked := [.regrow 0x3000000 0xA00000] }
     let r := { recipe0 .queued 0 with depth := 1 }
     let s := tileAt [r] c
     s.recipe 0x3000000 = some r ∧ depthFault r 1 0xA04000 = none ∧ (s.circle r (q 1)).isSome = true) ∧
    (let s := (tile .absent).setDev { (tile .absent).dev with regrows := List.replicate 64 (q 1) }
     let late := { q 1 with va := 0 }
     let t := { (tile .absent).setDev { (tile .absent).dev with regrowWait := [late, q 1] } with pending := [.regrowRequest late] }
     s.recipe 0x3000000 = some (recipe0 .absent 0) ∧ s.regrowTurn (q 1) = false ∧
     t.recipe 0x3000000 = some (recipe0 .absent 0) ∧ t.regrowTurn (q 1) = false ∧ t.regrowTurn late = true) ∧
    (let r := { recipe0 .queued 0 with depth := 1, launch := 1 }
     let s := { tileAt [r] with cores := [(5, { bind := some { launch1 with recipes := true }, depth := 1 })] }
     s.recipe 0x3000000 = some r ∧ r.st = .queued ∧ s.sourceTiles r = [] ∧
     s.regrowCore r.launch r.depth (homeDie 0x3000000) = (true, some 5)) ∧
    (let f : FitQuery := ⟨⟨1, 0⟩, ⟨0, 0⟩, 3⟩
     Wait.fit f ∈ ((onCore 3 { ctxs := [(0, { asked := [.fit f] })] }).ctx ⟨0, 0⟩).asked) := by decide +kernel

/-- The bytes of a launch record: image, N and C, pool, one strand of one core, completion address; and its seal. -/
def record (mark flags : Nat) (comp : Nat := 0) : Map Byte :=
  putBytes [] 0 (leBytes 8 0x400000 ++ leBytes 4 1 ++ leBytes 2 4 ++ leBytes 2 flags ++ leBytes 8 5 ++ leBytes 4 1 ++ leBytes 4 16 ++
    leBytes 8 (2 ^ 19 + 2 ^ 16 + 1) ++ List.replicate 56 0 ++ leBytes 4 0x10000 ++ leBytes 4 0x20000 ++ leBytes 4 0x1D0000 ++
    leBytes 4 64 ++ List.replicate 16 0 ++ leBytes 8 comp ++ List.replicate 8 0 ++ List.replicate 111 0 ++ [BitVec.ofNat 8 mark])

/-- Queue 3 of ASID 7 with this window, its image in memory that reads zero, or where the leaf `e` says. -/
def queueAt (w : Map Byte) (e : Dword := leafEntry) : State :=
  let s := walks e
  { s with cores := [], dev := { s.dev with queues := [(3, { bound := true, asid := 7, prio := 2, window := w })] } }

theorem meets_WindowsAndRecords :
    let q := fun s : State => Map.get {} s.dev.queues 3
    let judged := fun (s : State) => s.judge (dispAgent s.dev.nextLaunch 7) 3 (parseRecord (slotBytes (q s).window 0))
    let good := queueAt (record 128 0)
    let bad := queueAt (record 128 64)
    (∀ s ∈ [good, bad, queueAt (record 129 0)], (q s).bound = true ∧ (q s).closing = none ∧ (q s).k = 0 ∧ (q s).e = 0 ∧
      (Map.get 0 (q s).window (sealAt 0)).getLsbD 7 = true) ∧
    (Map.get 0 (q good).window (sealAt 0)).toNat = 128 ∧ (Map.get 0 (q (queueAt (record 129 0))).window (sealAt 0)).toNat ≠ 128 ∧
    (match judged good with
     | .ok x => decide (x = (0, []))
     | _ => false) = true ∧
    (match judged bad with
     | .ok x => decide (x.1 = 8)
     | _ => false) = true ∧
    (let far := queueAt (record 128 0) (leafEntry + BitVec.ofNat 64 (2 ^ 44))
     match judged far with
     | .need _ => true
     | _ => false) = true ∧
    (∀ a ∈ [8, 0x500000, 0x100000], let s := queueAt (record 128 64 a)
      (Map.get 0 (q s).window (sealAt 0)).toNat = 128 ∧ (parseRecord (slotBytes (q s).window 0)).compAddr = a ∧
      (match judged s with
       | .ok x => decide (x.1 = 8)
       | _ => false) = true ∧ (Map.get {} s.dev.asids (q s).asid).bound = true) ∧
    (inWindow 0x500000 = false ∧ inAperture 0x500000 = false ∧ inWindow 0x100000 = true) ∧
    (match (bad.setDev { bad.dev with nextLaunch := bad.dev.nextLaunch + 1 }).engWriteVa (dispAgent bad.dev.nextLaunch 7) 0x500000
       (leBytes 16 0) with
     | .ok _ => true
     | _ => false) = true ∧
    (parseRecord (slotBytes (q bad).window 0)).compAddr = 0 ∧ (parseRecord (slotBytes (q good).window 0)).strands = 1 ∧
    (Map.get {} good.dev.queues 4).bound = false ∧
    (let m : ApStore := ⟨0, [1, 2, 3, 4, 5, 6], 0, 7, false⟩
     let s := good.setDev { good.dev with tables := [(3 * 65536, openTable)] }
     s.apertureRefused m (2 ^ 39 + 4096 * 3) 2 = none ∧ (Map.get {} s.dev.queues 3) = q good ∧
     ((good.setDev { good.dev with tables := [] }).apertureRefused m (2 ^ 39 + 4096 * 3) 2).isSome = true) ∧
    (good.dev.mboxOpen = true ∧ (∀ o ∈ [0, 255, 4090],
      let m : ApStore := ⟨o, [1, 2, 3, 4, 5, 6], 0, 7, false⟩
      (good.setDev { good.dev with tables := [(3 * 65536 + 1, openTable)] }).apertureRefused m (2 ^ 43 + o) 1 = none ∧
      sealedAt (windowWrite good.dev.mbox.bytes (openBytes good.dev.mbox.bytes m)) (256 * good.dev.mbox.k.toNat) = false)) ∧
    (∀ b ∈ [128, 129], let m : ApStore := ⟨255, [BitVec.ofNat 8 b], 0, 7, false⟩
      let x := good.dev.mbox
      let w := windowWrite x.bytes (openBytes x.bytes m)
      (good.setDev { good.dev with tables := [(3 * 65536 + 1, openTable)] }).apertureRefused m (2 ^ 43 + 255) 1 = none ∧
      sealedAt w (256 * x.k.toNat) = true ∧ good.dev.slotBusy x.k.toNat = false ∧
      (Map.get 0 w (sealAt x.k.toNat)).toNat = b ∧ 128 + x.e.toNat = 128 ∧ sealedAt w (256 * (x.k + 1).toNat) = false) := by
  decide +kernel

theorem meets_BindsCardsAndCompletions_binds :
    let r : BindRec := ⟨⟨5, 0⟩, 0, 0, none, 0, [], 2048⟩
    let l : Launch := { rc := { parseRecord (slotBytes (record 128 0) 0) with levels := [2 ^ 19 + 2 ^ 16 + 2] }, asid := 7, queue := 3,
                        strands := 2, at_ := [(1, some ⟨5, 1⟩)], bound := [1] }
    let s := fun backlog => { queueAt [] with
      cores := [(5, { bind := some { launch1 with launch := 0 }, asid := 7, ctxs := [(1, { life := .running, strand := some ⟨0, 1, []⟩, chmask := 0xFF00 })] })],
      dev := { (queueAt []).dev with launches := [(0, l)], queues := [(3, { bound := true, asid := 7, backlog := backlog })] } }
    (∀ t ∈ [s [0], s [1]], t.launch r.launch = l ∧ l.strands ≠ 0 ∧ t.recsGood l 0 [r] = true ∧ t.freshCore 5 = false ∧
      (Map.get ({} : Asid) t.dev.asids 7).frozen = false) ∧
    (s [0]).bindReady l 0 [r] = true ∧ (s [1]).bindReady l 0 [r] = false ∧
    (let later := { r with who := ⟨5, 1⟩, strand := 1 }
     let m := { l with at_ := [], bound := [] }
     let u := { s [0] with cores := [], dev := { (s [0]).dev with launches := [(0, m)] } }
     u.recsGood m 0 [later] = true ∧ inTurn m [later] later = false) := by decide +kernel

theorem meets_BindsCardsAndCompletions_fresh :
    let r : BindRec := ⟨⟨5, 0⟩, 0, 0, none, 0, [], 2048⟩
    let l : Launch := { rc := { parseRecord (slotBytes (record 128 0) 0) with levels := [2 ^ 19 + 2 ^ 16 + 1] }, asid := 7, queue := 3, strands := 1 }
    let s := { queueAt [] with dev := { (queueAt []).dev with
      launches := [(0, l)], queues := [(3, { bound := true, asid := 7, backlog := [0] })] } }
    (s.launch r.launch = l ∧ l.strands ≠ 0 ∧ s.recsGood l 0 [r] = true ∧ s.freshCore 5 = true ∧
      (Map.get ({} : Asid) s.dev.asids 7).frozen = false ∧ s.bindReady l 0 [r] = true) ∧
    (match s.dispRead (dispAgent 0 7) true l.rc.image l.rc.size with
     | .ok _ => true
     | _ => false) = true := by decide +kernel

theorem meets_BindsCardsAndCompletions_ends :
    let l : Launch := { strands := 1, bound := [0], ended := [0], at_ := [(0, some ⟨5, 0⟩)] }
    let s := fun (l : Launch) (c : Ctx) => { State.reset with cores := [(5, { ctxs := [(0, c)] })], dev := { launches := [(2, l)] } }
    let wet := { l with dirty := [(5, 0x1000000)] }
    let t := s wet {}
    let u := { t with cores := [(5, { l1 := [(0x1000000, { st := .pending })] })] }
    (l.strands ≠ 0 ∧ l.strands ≤ l.ended.length ∧ l.rc.compAddr = 0 ∧ l.bound.filterMap (strandAt l) = [⟨5, 0⟩]) ∧
    ((s l {}).launch 2 = l ∧ (s l {}).strandDone ⟨5, 0⟩ = true ∧ (s l {}).launchSettled l = true) ∧
    (s l { acc := [⟨0, 0, 0, 8, .atHome 1⟩] }).strandDone ⟨5, 0⟩ = false ∧ u.launchSettled wet = false ∧
    ({ l with left := [⟨5, 0, 0⟩] } : Launch).left.all (s l {}).leftDone = true ∧ (s l {}).awayLines l = [] ∧
    (let away := { l with dirty := [(5, 2 ^ 52)] }
     (s away {}).strandDone ⟨5, 0⟩ = true ∧ (s away {}).launchSettled away = true ∧ (s away {}).awayLines away ≠ []) ∧
    (let told := { l with asid := 7, rc := { compAddr := 0x500000 } }
     let v := { queueAt [] with cores := [(5, {})], dev := { (queueAt []).dev with launches := [(2, told)] } }
     v.strandDone ⟨5, 0⟩ = true ∧ v.launchSettled told = true ∧ v.awayLines told = [] ∧ told.rc.compAddr % 16 = 0 ∧
     inWindow told.rc.compAddr = false ∧ inAperture told.rc.compAddr = false ∧ (Map.get ({} : Asid) v.dev.asids told.asid).bound = true ∧
     (match (v.flushLaunch told).engWriteVa (dispAgent 2 told.asid) told.rc.compAddr (leBytes 16 0) with
      | .ok _ => true
      | _ => false) = true) ∧
    (let d : Card := ⟨9, 0x200, 1, 0, false, true, 0, []⟩
     let p : Ctx := { waits := [.cond 3 condCard] }
     let k := fun (cycle : Nat) (ops : List (Nat × Nat × Nat)) => { onCore 3 (bound {}) with
       cores := [(0, bound {}), (1, { bound p with tlb := [] })], dev := { cycle := BitVec.ofNat 64 cycle, cards := [{ d with ops := ops }] } }
     (∀ n ∈ [2048, 2049], (k n []).dev.cards = [d] ∧ d.die = false ∧ d.core ≠ 1 ∧ coreDie 0 = coreDie 1 ∧ d.ready = true ∧
       ((k n []).core 1).popping ≠ 0 ∧ (k n []).idleFor 1 1 = true ∧ corePod 1 = corePod 0) ∧
     (((k 0 []).core 0).ageing.toNat < ((k 2049 []).dev.cycle - d.since).toNat ∧
       ((k 2048 []).dev.cycle - d.since).toNat ≤ ((k 0 []).core 0).ageing.toNat) ∧
     (let m := mapped 3 {}
      match moveOperands (m.cardAgent d) [(0x400000, 0x10000, 8)] m with
      | .ok _ => true
      | _ => false) = true) := by decide +kernel

theorem meets_PreemptionSavesAndRestores_marks :
    let c : Ctx := { life := .running, strand := some ⟨1, 0, []⟩, regs := { snapbase := 0x400 } }
    let s := fun c : Ctx => mapped 3 c
    ((s c).me.strand.isSome = true ∧ (s c).me.regs.snapbase ≠ 0 ∧ (s c).me.preempt = false) ∧
    ((s { c with regs := {} }).me.strand.isSome = true ∧ (s { c with regs := {} }).me.regs.snapbase = 0) ∧
    ((s {}).me.strand = none ∧ (s { c with preempt := true }).me.preempt = true) ∧
    ((s { c with preempt := true }).me.life ≠ .saving ∧ (s { c with preempt := true }).canSave ⟨0, 0⟩ = true) ∧
    ((s { c with preempt := true, life := .saving, acc := [⟨0, 0, 0, 8, .atHome 1⟩], seq := 1 }).me.allPerformed 2 = false ∧
      (s { c with preempt := true, life := .saving }).me.allPerformed 2 = true) := by decide +kernel

/-- Other devices have answered for every line of 128,000 bytes at physical address `pa`, the first with these bytes. -/
def answersAll (id : XferId) (pa : Nat) (bs : List Byte) : List (XferId × Nat × Nat × List Byte) :=
  (id, pa, 0, bs) :: (List.range 999).map fun i => (id, pa + 128 * (i + 1), 0, [])

/-- The addresses of the lines of 128,000 bytes at `va`. -/
def lines1000 (va : Nat) : List (Nat × Nat) := (List.range 1000).map fun i => (va + 128 * i, 128)

theorem natAnswer_rest {s : State} {g : Agent} {pa i : Nat} {bs : List Byte} (h : s.dev.natGot = answersAll g.id pa bs) (hi : i < 999) :
    s.natAnswer g (pa + 128 * (i + 1)) = some (0, []) := by
  have : (answersAll g.id pa bs).find? (fun x => decide (x.1 = g.id) && decide (x.2.1 = pa + 128 * (i + 1))) =
      some (g.id, pa + 128 * (i + 1), 0, []) := by
    rw [answersAll, List.find?_cons_of_neg (by simp), List.find?_map]
    have : (List.range 999).find? ((fun x : XferId × Nat × Nat × List Byte => decide (x.1 = g.id) && decide (x.2.1 = pa + 128 * (i + 1))) ∘
        fun i => (g.id, pa + 128 * (i + 1), 0, [])) = some i := by
      rw [List.find?_range_eq_some]
      refine ⟨by simp, by simpa using hi, fun j hj => by simp; omega⟩
    rw [this]; rfl
  rw [State.natAnswer, h, this]; rfl

theorem natAnswer_first {s : State} {g : Agent} {pa : Nat} {bs : List Byte} (h : s.dev.natGot = answersAll g.id pa bs) :
    s.natAnswer g pa = some (0, bs) := by
  simp [State.natAnswer, h, answersAll]

/-- Every line is another device's. -/
def linesAway (s : State) (g : Agent) (va pa : Nat) (a : Access) : Bool :=
  (List.range 1000).all fun i => match s.engPlace g (va + 128 * i) a with
    | .ok q => decide (q.pa = pa + 128 * i) && s.isRemote q.pa
    | _ => false

theorem linesAway_at {s : State} {g : Agent} {va pa i : Nat} {a : Access} (h : linesAway s g va pa a = true) (hi : i < 1000) :
    ∃ q, s.engPlace g (va + 128 * i) a = .ok q ∧ q.pa = pa + 128 * i ∧ s.isRemote q.pa = true := by
  have := List.all_eq_true.mp h i (List.mem_range.mpr hi)
  split at this
  · rename_i q hq
    simp at this
    exact ⟨q, hq, this.1, this.2⟩
  · exact absurd this (by simp)

theorem engAll_empty {α : Type} {f : α → EngRes (List Byte)} {l : List α} (h : ∀ x ∈ l, f x = .ok []) :
    ∃ r, engAll f l = .ok r ∧ r.flatten = [] := by
  induction l with
  | nil => exact ⟨[], rfl, rfl⟩
  | cons x l ih =>
    obtain ⟨r, e, hr⟩ := ih fun y hy => h y (List.mem_cons_of_mem _ hy)
    exact ⟨[] :: r, by simp [engAll, h x, e, EngRes.bind], by simpa using hr⟩

theorem engAll_first {α : Type} {f : α → EngRes (List Byte)} {x : α} {l : List α} {bs : List Byte} (hx : f x = .ok bs)
    (h : ∀ y ∈ l, f y = .ok []) : ((engAll f (x :: l)).bind fun l => .ok l.flatten) = .ok bs := by
  obtain ⟨r, e, hr⟩ := engAll_empty h
  simp [engAll, hx, e, EngRes.bind, hr]

theorem engReadVa_answered {s : State} {g : Agent} {va pa : Nat} {bs : List Byte} (h : s.dev.natGot = answersAll g.id pa bs)
    (hp : linesAway s g va pa .read = true) (hl : linesOf va 0x1F400 = lines1000 va) : s.engReadVa g va 0x1F400 = .ok bs := by
  have hc : lines1000 va = (va, 128) :: (List.range 999).map fun i => (va + 128 * (i + 1), 128) := by
    have (n : Nat) : (List.range (n + 1)).map (fun i => (va + 128 * i, 128)) =
        (va, 128) :: (List.range n).map fun i => (va + 128 * (i + 1), 128) := by
      rw [List.range_succ_eq_map, List.map_cons, List.map_map]; rfl
    exact this 999
  rw [State.engReadVa, hl, hc]
  apply engAll_first
  · obtain ⟨q, e, hq, hr⟩ := linesAway_at hp (i := 0) (by omega)
    rw [Nat.mul_zero, Nat.add_zero] at e hq
    simp only [e, EngRes.bind, hr, if_true]
    rw [hq, natAnswer_first h]; rfl
  · intro x hx
    obtain ⟨i, hi, rfl⟩ := List.mem_map.mp hx
    have hi := List.mem_range.mp hi
    obtain ⟨q, e, hq, hr⟩ := linesAway_at hp (i := i + 1) (by omega)
    simp only [e, EngRes.bind, hr, if_true]
    rw [hq, natAnswer_rest h hi]; rfl

theorem engWriteLines_answered {s : State} {g : Agent} {va pa : Nat} {bs : List Byte} (h : s.dev.natGot = answersAll g.id pa bs)
    (hp : linesAway s g va pa .write = true) (l : List (Nat × List Byte)) (hl : ∀ p ∈ l, ∃ i < 1000, p.1 = va + 128 * i) :
    engWriteLines g l s = .ok s := by
  induction l with
  | nil => rfl
  | cons p l ih =>
    obtain ⟨i, hi, hv⟩ := hl p (List.mem_cons_self ..)
    obtain ⟨q, e, hq, hr⟩ := linesAway_at hp hi
    have ih := ih fun y hy => hl y (List.mem_cons_of_mem _ hy)
    obtain ⟨v, b⟩ := p
    simp only at hv
    subst hv
    rw [engWriteLines, e]
    simp only [EngRes.bind, hr, if_true]
    rcases Nat.eq_zero_or_pos i with rfl | hpos
    · rw [hq, Nat.mul_zero, Nat.add_zero, natAnswer_first h]; exact ih
    · obtain ⟨j, rfl⟩ : ∃ j, i = j + 1 := ⟨i - 1, by omega⟩
      rw [hq, natAnswer_rest h (by omega)]; exact ih

theorem engWriteVa_answered {s : State} {g : Agent} {va pa : Nat} {bs b : List Byte} (h : s.dev.natGot = answersAll g.id pa bs)
    (hp : linesAway s g va pa .write = true) (hl : linesOf va 0x1F400 = lines1000 va) (hb : b.length = 0x1F400) :
    s.engWriteVa g va b = .ok s := by
  refine engWriteLines_answered h hp _ fun p hp => ?_
  rw [hb, hl] at hp
  obtain ⟨x, hx, rfl⟩ := List.mem_map.mp hp
  obtain ⟨i, hi, rfl⟩ := List.mem_map.mp hx
  exact ⟨i, List.mem_range.mp hi, rfl⟩

theorem length_flatMap_const {α : Type} {f : α → List Byte} {l : List α} {n : Nat} (h : ∀ x, (f x).length = n) :
    (l.flatMap f).length = n * l.length := by
  induction l with
  | nil => rfl
  | cons x l ih => rw [List.flatMap_cons, List.length_append, h, ih, List.length_cons, Nat.mul_succ, Nat.add_comm]

theorem length_saveImage (s : State) (w : Who) : (s.saveImage w).length = 0x1F400 := by
  have z (m : Map Dword) : (scalarBytes m).length = 8 * 512 :=
    (length_flatMap_const fun _ => leBytes_length ..).trans (by rw [List.length_range])
  have v (f : Nat → VReg) (n : Nat) : ((List.range n).flatMap fun i => vbytes (f i)).length = 1024 * n :=
    (length_flatMap_const fun _ => leBytes_length ..).trans (by rw [List.length_range])
  simp only [State.saveImage, vectorBytes, List.length_append, z, v, List.length_replicate, leBytes_length]
  rw [length_flatMap_const (n := 16), length_flatMap_const (n := 1024), List.length_range]
  · intro x; split
    · exact leBytes_length ..
    · exact leBytes_length ..
  · intro x; split
    · simp only [List.length_append, leBytes_length]
    · exact leBytes_length ..

/-- Core 0 with a remote page at 6 MiB, every line of which has been answered for the engine `id`. -/
def away (c : Ctx) (id : XferId) (bs : List Byte) (saved : Map (Option Saved) := []) : State :=
  onCore 3 { bound c with tlb := pages } { openDev with natGot := answersAll id (2 ^ 44 + 0x1000000) bs, saved := saved }

theorem meets_PreemptionSavesAndRestores_save :
    let c : Ctx := { life := .saving, preempt := true, strand := some ⟨1, 0, []⟩, regs := { snapbase := 0x600 } }
    let s := away c ⟨0, 21, 0⟩ []
    s.ctx ⟨0, 0⟩ = c ∧ c.allPerformed 2 = true ∧
    s.engWriteVa (s.agent ⟨0, 0⟩ 21 0) (c.regs.snapbase.toNat * 4096) (s.saveImage ⟨0, 0⟩) = .ok s := by
  refine ⟨by decide +kernel, by decide +kernel, ?_⟩
  exact engWriteVa_answered (pa := 2 ^ 44 + 0x1000000) (bs := []) rfl (by decide +kernel) (by decide +kernel) (length_saveImage ..)

/-- A packet none of whose words starts a bundle. -/
def nothing : List Byte := List.replicate 64 0

theorem meets_PreemptionSavesAndRestores_restore :
    let v : Saved := ⟨0x600000, 7, ⟨1, 0, []⟩, ⟨0, 0⟩, 2, 0, {}⟩
    ∀ n ∈ [0, 1], let bs := leBytes 8 (7 + 2 ^ 17) ++ List.replicate 56 0 ++ leBytes 4 n
    let s := { away {} ⟨0, 21, 1⟩ bs [(4, some v)] with cores := [(0, { bound {} with tlb := pages, pkts := [(0, nothing)] })] }
    let m := imageOfBytes (bs.take 4096)
    (Map.get none s.dev.saved 4 = some v ∧ s.canRestore ⟨0, 0⟩ v = true ∧ s.restoreFits ⟨0, 0⟩ v m = true ∧
      (match s.restoredSlots ⟨0, 0, v.asid, ⟨0, 21, 1⟩⟩ m with
       | .ok p => decide (p = 0)
       | _ => false) = true ∧ ({ snap := m } : Ctx).imageBad 0 = decide (n = 1) ∧
      imgWord m 8 % 2 ^ 11 = n ∧ imgWord m 0 / 2 ^ 17 % 4 = 1) ∧
    s.engReadVa ⟨0, 0, v.asid, ⟨0, 21, 1⟩⟩ v.base 0x1F400 = .ok bs := by
  intro v n hn bs s m
  refine ⟨by revert n; decide +kernel, ?_⟩
  exact engReadVa_answered (pa := 2 ^ 44 + 0x1000000) rfl (by revert n; decide +kernel) (by decide +kernel)

/-! ## Time, stops, other devices, hosts, the mailbox -/

theorem meets_TimeRuns :
    let k : Core := { port := some 0, runStart := 1, ctxs := [(0, { life := .running }), (1, { life := .running })] }
    let run := fun n : Nat => { State.reset with cores := [(0, k)], dev := { cycle := BitVec.ofNat 64 n } }
    let p : Part := ⟨BitVec.allOnes 36, 4, 2, false, 0, 0⟩
    let t : TtGroup := ⟨0, 0, 2, 3, false, false⟩
    let time := fun (p : Part) (t : TtGroup) (stall : Option Dword) => State.reset.setDev
      { parts := [p], stall := stall,
        launches := [(2, { rc := { levels := [2 ^ 22 + 2 ^ 21 + 2 ^ 16 + 1] }, bound := [0], at_ := [(0, some ⟨0, 0⟩)], tt := [t] })] }
    (∀ n ∈ [1024, 1025], ((run n).core 0).port = some 0 ∧ (run n).quantumRivals 0 0 = [1]) ∧
    (1024 ≤ ((run 1025).dev.cycle - 1).toNat ∧ ((run 1024).dev.cycle - 1).toNat < 1024) ∧
    ((time p t none).dev.parts[0]? = some p ∧ (time p t none).dev.stall = none ∧ (time p t (some 0)).dev.stall.isSome = true ∧
      p.slip = false ∧ p.tick + 1 < p.length ∧ p.length ≤ ({ p with tick := 3 } : Part).tick + 1) ∧
    (((time p t none).launch 2).tt[0]? = some t ∧ (time p t none).groupPart ((time p t none).launch 2) t = some 0 ∧
      p.tick = t.release ∧ t.tripped = false ∧ ({ p with tick := 1 } : Part).tick ≠ t.release) ∧
    (let r := { t with released := true }
     let q := { p with tick := 3 }
     (time q r none).groupPart ((time q r none).launch 2) r = some 0 ∧ r.released = true ∧ q.tick = r.deadline ∧ q.slip = false ∧
     p.tick ≠ r.deadline) := by decide +kernel

theorem meets_TimeRuns_slips :
    let p : Part := ⟨BitVec.allOnes 36, 4, 2, false, 0, 0⟩
    let t : TtGroup := ⟨0, 0, 2, 3, false, false⟩
    let time := fun (p : Part) (t : TtGroup) => State.reset.setDev
      { parts := [p],
        launches := [(2, { rc := { levels := [2 ^ 22 + 2 ^ 21 + 2 ^ 16 + 1] }, bound := [0], at_ := [(0, some ⟨0, 0⟩)], tt := [t] })] }
    (let late := time { p with tick := 3, slip := true } { t with released := true }
     let done := time { p with slip := true } t
     late.anyLate 0 = true ∧ done.anyLate 0 = false ∧ (late.part 0).slip = true ∧ (done.part 0).slip = true) ∧
    (let hot : Sample := ⟨3000 * 1024 + 1, 0⟩
     ({ samples := [hot] } : Device).overPower = true ∧ ({ samples := [⟨3000 * 1024, 0⟩] } : Device).overPower = false ∧
     ({ samples := [⟨3000 * 1024, 0⟩] } : Device).underPower = false ∧ ({ samples := [⟨3000 * 1024 - 1, 5374⟩] } : Device).underPower = true ∧
     ({ samples := [⟨0, 5375⟩] } : Device).underPower = false ∧
     State.reset.dev.stall = none ∧ (State.reset.dev.samples ++ [hot]).drop (0 + 1 - ampWindow) = [hot]) := by decide +kernel

theorem meets_StopsAndPower :
    (State.reset.neighbour 0 1 = some 1 ∧ (0 : Nat) < 576 ∧ (575 : Nat) < 576 ∧ (State.reset.core 575).dead = false ∧
      coreDie 0 = 0 ∧ coreDie 575 = 3 ∧ coreRow 575 < State.reset.gridSize ∧ coreCol 575 < State.reset.gridSize) ∧
    (let s := State.reset.setDev { asids := [(7, { bound := true })] }
     (Map.get {} s.dev.asids 7).bound = true) ∧
    (State.reset.dev.power = true ∧ (State.reset.setDev { power := false }).dev.power = false) ∧
    ((State.reset.setDev { form := 2 }).dev.form = 2 ∧ (750 : Nat) ≤ 750 ∧ State.reset.dev.form ≠ 2 ∧ (750 : Nat) < 751) := by
  decide +kernel

/-- A message of node 1, for ASID 7 with tag 9. -/
def native (kind : Byte) (pa : Nat) (aux : BitVec 12) (data : List Byte) : NatMsg :=
  ⟨kind, 1, 0, 7, 9, 0, BitVec.ofNat 52 pa, aux, data⟩

/-- The device with every table of the first stack and die open to ASID 7 of node 1. -/
def openTo1 (l : List Recipe := []) : State :=
  let t : Table := { regions := [(0, (0, 2 ^ 52))], groups := [(65536 + 7, 1)], rights := [(1, 15)] }
  State.reset.setDev { tables := (0, t) :: (List.range 144).map (fun i => (65536 + i, t)), recipes := l }

theorem meets_NativeFlows :
    let s := openTo1
    (∀ r ∈ [[0], [1], [0, 1]], s.natCheck (native 1 0x1000000 7 []) 8 false r = 0 ∧ s.natCheck (native 1 0x1000000 7 []) 8 true r = 3 ∧
      State.reset.natCheck (native 1 0x1000000 7 []) 8 false r = 1) ∧
    (rightsOf .write 0x1000000 = [1] ∧ isAgent 0x1000000 = false ∧ s.natAbsent 0x1000000 = false) ∧
    (match s.engBytes (native 1 0x1000000 7 []).agent 0x1000000 8 with
     | .ok _ => true
     | _ => false) = true ∧
    (match s.engPut (native 3 0x1000000 7 []).agent 0x1000000 (List.replicate 8 0) with
     | .ok u => decide (u.dev.node = s.dev.node)
     | _ => false) = true ∧
    (natAtom 64 = none ∧ natAtom 0x20 = some .add ∧ natAtom 0x28 = some .swap ∧ natAtom 0x30 = some .cas ∧
      s.tileAt 0x1000000 = none ∧ ∀ a ∈ opWords 0x1000000 true, s.ownerOf a = none) ∧
    (∀ st ∈ [TileState.declared, .sealed], (openTo1 [recipe0 st 0]).tileAt 0x3000000 = some (recipe0 st 0) ∧
      (openTo1 [recipe0 st 0]).natCheck (native 5 0x3000000 0x20 (List.replicate 16 0)) 8 false [0, 1] = 0 ∧
      ∀ a ∈ opWords 0x3000000 true, (openTo1 [recipe0 st 0]).ownerOf a = none) ∧
    (s.hostBias 0x1000000 = false ∧ (s.setDev { s.dev with snooped := [(0x1000000 / 64, true)] }).dev.answered (0x1000000 / 64) true = true) ∧
    (∀ kind ∈ [1, 3, 5], let x : Wait := .native 3 kind (2 ^ 44) 128 0 []
     let r : NatReq := ⟨9, ⟨0, 0⟩, kind, 1, 0x600000, 2 ^ 44, 0, 0, 0, some x, none, 128, 0⟩
     let t := { State.reset with cores := [(0, { ctxs := [(0, { asked := [x] })] })], dev := { natReqs := [r], cycle := 125000 } }
     let m := native 2 (2 ^ 44) 0 (List.replicate 128 0)
     t.dev.natReqs = [r] ∧ r.kind = kind ∧ r.tag = m.tag.toNat ∧ r.dst = m.src.toNat ∧ x ∈ (t.ctx r.who).asked ∧
     m.rsv = 0 ∧ m.aux.toNat < 5 ∧ r.len ≤ m.data.length ∧ 125000 ≤ (t.dev.cycle - r.sent).toNat) := by
  decide +kernel

theorem meets_NativeFlows_tlbs :
    let m := native 0x0C 7 0 []
    let u := fun s : State => s.startDrop ⟨1022, 1⟩ 9 7 [] fun _ => true
    let busy := mapped 3 { acc := [⟨4, 0, 0x400000, 0x400008, .atHome 1⟩] }
    (m.rsv = 0 ∧ m.aux = 0 ∧ m.pa.toNat < 2 ^ 16 ∧ m.data = [] ∧ m.src.toNat = 1 ∧ m.tag.toNat = 9 ∧ ({ m with aux := 1 }).aux ≠ 0) ∧
    (∀ s ∈ [mapped 3 {}, busy], s.dev.tlbWaits = [] ∧ (u s).dropDone ((u s).dropWait ⟨1022, 1⟩ 9) = decide (s = mapped 3 {})) ∧
    (∀ accs ∈ [[], [((⟨0, 0⟩ : Who), 4)]], let d : TlbWait := ⟨⟨1022, 1⟩, 9, [], accs, []⟩
     let s := busy.setDev { busy.dev with tlbWaits := [d] }
     (s.dev.tlbWaits.find? fun t => decide (t.who = ⟨1022, m.src.toNat⟩) && decide (t.slot = m.tag.toNat)) = some d ∧
     s.dropDone d = accs.isEmpty) ∧
    (∀ who ∈ [⟨0, 0⟩, ⟨1023, 0⟩], ∀ accs ∈ [[], [((⟨0, 0⟩ : Who), 4)]], let w : TlbWait := ⟨who, 3, [(1, 9)], accs, []⟩
     let s := mapped 3 { asked := [.tlbinv 3 0 0], acc := [⟨4, 0, 0x400000, 0x400008, .atHome 1⟩] }
     let t := s.setDev { s.dev with tlbWaits := [w] }
     let a := native 0x0D 0 0 []
     t.dev.tlbWaits = [w] ∧ w.acks = [(a.src.toNat, a.tag.toNat)] ∧ (1, 8) ∉ w.acks ∧ a.rsv = 0 ∧ a.aux = 0 ∧ a.data = [] ∧
     t.dropDone { w with acks := [] } = accs.isEmpty ∧ .tlbinv 3 0 0 ∈ (t.ctx ⟨0, 0⟩).asked) := by
  decide +kernel

/-- A host range of host 5 at 1 GiB, with this bias and a flip of its first page or none. -/
def hosted (bias : Bool) (d : Device := {}) : State :=
  State.reset.setDev { d with ranges := [(0, some ⟨5, 2 ^ 30, 2 ^ 30⟩)], bias := if bias then [(2 ^ 30 / 4096, true)] else [] }

/-- The tables of the first stack and die, open to host 5. -/
def hostTables : Map Table :=
  let t : Table := { regions := [(0, (0, 2 ^ 52))], groups := [(5 * 65536, 1)], rights := [(1, 15)] }
  (0, t) :: (List.range 144).map fun i => (65536 + i, t)

/-- A table that grants host 5 every right everywhere. -/
def agentTable : Table := { regions := [(0, (0, 2 ^ 52))], groups := [(5 * 65536, 1)], rights := [(1, 15)] }

theorem meets_HostFlows_apertures :
    let m := (⟨5, 2 ^ 24, List.replicate 64 1, false⟩ : HostReq)
    ((hosted true).hostDown m = false ∧ (hosted true { pbr := [(0, 5)], portsDown := [0] }).hostDown m = true) ∧
    (∀ half ∈ [2 ^ 33, 2 ^ 37], ∀ cache ∈ [true, false], let w : HostReq := ⟨5, half, [1], cache⟩
     let s := hosted true { tables := [(3 * 65536, agentTable), (3 * 65536 + 1, agentTable)] }
     isAgent (half * 64) = true ∧ s.hostDown w = false ∧ s.hostRefused w 0 = none) := by
  decide +kernel

theorem meets_HostFlows :
    let m := fun host : BitVec 12 => (⟨host, 2 ^ 24, List.replicate 64 1, false⟩ : HostReq)
    let flip : Flip := ⟨2 ^ 30, true, ⟨0, []⟩, true, []⟩
    (∀ b ∈ [true, false], (hosted b).ofHost (m 6) = false ∧ (hosted b).ofHost (m 5) = true ∧ (hosted b).flipping (2 ^ 30) = false ∧
      (hosted b { flips := [flip] }).flipping (2 ^ 30) = true ∧ (hosted b { flips := [flip] }).ofHost (m 5) = true ∧
      (hosted b).hostBias (2 ^ 30) = b ∧ (hosted b).privAt (2 ^ 30) = none) ∧
    ((m 5).half * 64 = 2 ^ 30 ∧ 2 ^ 30 + 64 ≤ 2 ^ 52 ∧ isAgent (2 ^ 30) = false) ∧
    (∀ r ∈ [0, 1], ((hosted true).hostRefused (m 5) r).isSome = true ∧ (hosted true { tables := hostTables }).hostRefused (m 5) r = none ∧
      (hosted false { flips := [flip], tables := hostTables }).hostRefused (m 5) r = none) ∧
    (∀ a ∈ halfWords (2 ^ 24), (hosted false).inTransit a = false ∧ (hosted false).ownerOf a = none) ∧
    (∀ a ∈ halfWords (2 ^ 24), (hosted true).ownerOf a = none ∧ a ∉ (hosted true).dev.badMem) ∧
    (let l : HostLine := ⟨true, List.replicate 128 0⟩
     Map.get none ({ hostLines := [(hostKey 4 / 128, some l)] } : Device).hostLines (hostKey 4 / 128) = some l) ∧
    (let a : BiSnp := ⟨2 ^ 24, true, none, 1⟩
     let s := fun n : Nat => hosted true { bisnp := [a], cycle := BitVec.ofNat 64 n,
                                           owner := (halfWords (2 ^ 24)).map fun k => (k, some ⟨ownBridge, 0⟩) }
     (s 125001).dev.bisnp = [a] ∧ a.half = 2 ^ 24 ∧ a.serve = none ∧
     (∀ k ∈ halfWords (2 ^ 24), ((s 125001).ownerOf k).map (·.agent) = some ownBridge) ∧
     125000 ≤ ((s 125001).dev.cycle - a.sent).toNat ∧ ((s 125000).dev.cycle - a.sent).toNat < 125000) ∧
    (let d : Device := { hostAsk := [(77, true)] }
     (77, true) ∈ d.hostAsk ∧ Map.get none d.hostLines 77 = none ∧ (78, false) ∉ d.hostAsk ∧ (78, true) ∉ d.hostAsk) := by
  decide +kernel

/-- Bytes from `pos` to 256 with these fields: offset, bytes, value. -/
def fields : Nat → List (Nat × Nat × Nat) → List Byte
  | pos, [] => List.replicate (256 - pos) 0
  | pos, (o, n, x) :: l => List.replicate (o - pos) 0 ++ leBytes n x ++ fields (o + n) l

/-- A command in slot 0 with these fields. -/
def cmd (l : List (Nat × Nat × Nat)) : Cmd := ⟨0, fields 0 l⟩

/-- Its arguments are listed, and read as given. -/
def cmdSays (l : List (Nat × Nat × Nat)) : Bool :=
  (cmd l).plain (l.map fun p => (p.1, p.2.1)) && l.all fun p => decide ((cmd l).arg p.1 p.2.1 = p.2.2)

theorem meets_MailboxCommands :
    let s := State.reset
    (s.dev.verified = true ∧ (s.setDev { verified := false }).dev.verified = false ∧ (cmd [(8, 8, 1)]).plain [(8, 2)] = true ∧
      (cmd [(8, 8, 2 ^ 16)]).plain [(8, 2)] = false) ∧
    (cmdSays [(8, 2, 7), (16, 8, 0x10000)] = true ∧ (Map.get {} s.dev.asids 7).bound = false ∧
      (Map.get {} s.dev.asids 7).frozen = false) ∧
    (let t := s.setDev { asids := [(7, { bound := true })] }
     cmdSays [(8, 2, 3), (10, 2, 7), (12, 1, 15)] = true ∧ (Map.get {} t.dev.asids 7).bound = true ∧
     (Map.get {} t.dev.queues 3).bound = false) ∧
    (cmdSays [(8, 1, 0), (10, 2, 7), (12, 1, 0), (14, 2, 7), (16, 1, 1)] = true ∧ s.targetOk 0 7 = true ∧ s.targetOk 9 0 = false ∧ s.dev.node = 0 ∧
      s.tableBusy 7 (fun _ _ => true) = false) ∧
    (cmdSays [(8, 1, 1), (10, 2, 575), (16, 1, 63), (24, 8, 0), (32, 8, 2 ^ 44)] = true ∧ s.targetOk 1 575 = true ∧ s.tableBusy (65536 + 575) (fun _ _ => true) = false) ∧
    cmdSays [(8, 1, 4), (10, 2, 0), (12, 1, 1), (16, 32, 15)] = true ∧
    (cmdSays [(8, 5, 3), (16, 2, 9)] = true ∧ s.podMaskOk 3 = true ∧ s.podMaskOk 0 = false ∧ s.dev.launches = []) ∧
    (cmdSays [(8, 5, 3), (16, 1, 1)] = true ∧ ∀ p ∈ s.boundPods fun _ => true, False) ∧
    (cmdSays [(8, 2, 1), (10, 2, 3), (16, 8, 37748736), (24, 8, 0), (32, 8, 0), (40, 8, 0)] = true ∧
      s.rateFits 1 (·.hbm) 37748736 41943040 41943040 = true ∧ s.rateFits 1 (·.mesh) 0 1048576 512 = true ∧
      s.rateFits 1 (·.ngufer) 0 2936012 64 = true ∧ s.rateFits 1 (·.eth) 0 1310720 64 = true) ∧
    (cmdSays [(8, 1, 15), (10, 2, 5), (16, 8, 2 ^ 30), (24, 4, 1)] = true ∧ s.dev.ranges = []) ∧
    (cmdSays [(8, 8, 0x10000)] = true ∧ s.isLocal 0x10000 = true ∧ s.key 0x10000 = 0x10000 ∧ s.populated 0x10000 = true) ∧
    (cmdSays [(8, 1, 0), (10, 2, 0), (12, 1, 1)] = true ∧ (s.neighbour 0 1).isSome = true ∧ s.targetOk 2 0 = true ∧
      ∀ d : Dir, (s.core 0).waitsLink d = false ∧ (s.core 1).waitsLink d = false) ∧
    (let f : Fill := ⟨0, 0, 0⟩
     let t := { s with pending := [.packetFill f], cores := [(0, { asid := 7 })] }
     t.tableBusy 0 (fun node asid => decide (node = 0 ∧ asid = 7)) = true ∧ t.tableBusy 0 (fun _ _ => true) = true ∧
     t.tableBusy 0 (fun node _ => decide (node = 1)) = false) ∧
    (cmdSays [(8, 1, 1), (10, 2, 35), (12, 1, 0)] = true ∧ cmdSays [(8, 1, 2), (10, 2, 31), (12, 1, 0)] = true) ∧
    (cmdSays [(8, 1, 4), (10, 2, 0)] = true ∧ s.dev.natReqs = [] ∧ s.dev.natHeld = [] ∧ s.landingsOut = false) ∧
    cmdSays [(8, 1, 1), (9, 1, 1), (10, 4, 0xFFFFFF23), (16, 24, 0)] = true ∧ (cmdSays [(8, 8, 0x400000), (16, 4, 256)] = true ∧ (match s.engBytes (dispAgent 0 0) 0x400000 256 with
      | .ok _ => true
      | _ => false) = true) := by
  decide +kernel

theorem meets_MailboxCommands_waits :
    let c := cmd [(8, 2, 3)]
    let q := fun (closing : Option Cmd) (n : Nat) => State.reset.setDev
      { queues := [(3, { bound := true, closing := closing })], launches := [(4, { queue := 3, strands := n })] }
    (c.plain [(8, 2)] = true ∧ c.arg 8 2 = 3 ∧ (q none 0).queueLive 3 = false ∧ (q none 1).queueLive 3 = true ∧
      (q (some c) 0).queueLive 3 = false ∧ (Map.get {} (q (some c) 0).dev.queues 3).closing = some c ∧
      (Map.get {} (q none 0).dev.queues 3).closing ≠ some c ∧ (Map.get {} (q none 0).dev.queues 3).bound = true) ∧
    (let f := cmd [(8, 8, 2 ^ 30), (16, 1, 1)]
     f.plain [(8, 8), (16, 1)] = true ∧ f.arg 8 8 = 2 ^ 30 ∧ f.arg 16 1 = 1 ∧ ((hosted true).hostRangeAt (2 ^ 30)).isSome = true ∧
     (let d : Flip := ⟨2 ^ 30, false, f, true, []⟩
      (hosted false { flips := [d] }).dev.flips = [d] ∧ Map.get false (hosted false { flips := [d] }).dev.bias (2 ^ 30 / 4096) = false) ∧
     (∀ acked ∈ [[], (List.range 64).map fun i => 2 ^ 24 + i], let e : Flip := ⟨2 ^ 30, false, f, true, acked⟩
      let s := hosted true { flips := [e] }
      s.dev.flips = [e] ∧ Map.get false s.dev.bias (e.page / 4096) = true ∧ (s.toDevice e).2 = !acked.isEmpty) ∧
     (let h : Flip := ⟨2 ^ 30, true, f, true, []⟩
      (hosted false { flips := [h] }).dev.flips = [h] ∧ h.toHost = true)) ∧
    ((cmd [(8, 2, 7)]).plain [(8, 2)] = true ∧ (cmd [(8, 2, 7)]).arg 8 2 = 7) := by decide +kernel

theorem quarantineOnce_done {s : State} {a : Nat} (h : (Map.get {} s.dev.asids a).quarantined = true) :
    s.quarantineOnce a = (s, none) := by rw [State.quarantineOnce, if_pos h]

/-- The ASID 7 with its tables quarantined. -/
def spaced (l : List TlbWait := []) : State :=
  State.reset.setDev { asids := [(7, { bound := true, quarantined := true })], tlbWaits := l }

theorem meets_MailboxCommands_teardown :
    let away : TlbWait := ⟨⟨1023, 0⟩, 7, [(1, 9)], [], []⟩
    (Map.get {} (spaced).dev.asids 7).bound = true ∧ (Map.get {} (spaced [away]).dev.asids 7).bound = true ∧
    (∃ v, ((spaced [away]).beginTear 7).quarantineOnce 7 = (v, none) ∧ v.tlbDropped 7 = false) ∧
    ∃ v, (spaced.beginTear 7).quarantineOnce 7 = (v, none) ∧
      (match v.finishTear 7 with
       | .ok _ => true
       | _ => false) = true :=
  ⟨by decide +kernel, by decide +kernel, ⟨_, quarantineOnce_done (by decide +kernel), by decide +kernel⟩,
    _, quarantineOnce_done (by decide +kernel), by decide +kernel⟩

theorem leavesOf_need {s : State} {g : Agent} {table l : Nat} {n : Need}
    (h : s.readEntry g (table + 8 * 0) = .error (.need n)) : s.leavesOf g (l + 1) table = .need n := by
  have c (k : Nat) : ∃ r, List.range (k + 1) = 0 :: r := ⟨_, List.range_succ_eq_map⟩
  have : ∃ r, List.range (tableCount (l + 1)) = 0 :: r := by unfold tableCount; split <;> exact c _
  obtain ⟨r, e⟩ := this
  rw [State.leavesOf, e, engAll, State.validEntry, h]
  rfl

/-- The root of ASID 7 on node 1. -/
def rootAway : State :=
  State.reset.setDev { asids := [(7, { bound := true, root := 2 ^ 44 })], nodeSet := true, routes := [(1, { valid := true, ports := [0] })] }

theorem meets_MailboxCommands_teardown_needs :
    (Map.get {} rootAway.dev.asids 7).bound = true ∧ ∃ v n, (rootAway.beginTear 7).quarantineOnce 7 = (v, some n) := by
  refine ⟨by decide +kernel, rootAway.beginTear 7, .native 1 (2 ^ 44) 8 [], ?_⟩
  have r : (rootAway.beginTear 7).root 7 = 2 ^ 44 := by decide +kernel
  have h : (rootAway.beginTear 7).leaves 7 = .need (.native 1 (2 ^ 44) 8 []) := by
    rw [State.leaves, r]
    exact leavesOf_need (by rfl)
  rw [State.quarantineOnce, if_neg (by decide +kernel), State.quarantineSpace, h]
  rfl

set_option maxRecDepth 20000 in
theorem meets_MailboxCommands_host : ((hosted false).toHost (2 ^ 30)).isSome = true := by decide +kernel

/-- R369: a core's read under host bias needs BISnpData, its store BISnpInv; the answer to the first does not serve the
second. -/
theorem test_bias_snoops :
    let k := 2 ^ 30
    let d (inv : Bool) := hosted true { snooped := [(k / 64, inv)] }
    (hosted true).homeNeed 0 k false = some (.snoop (k / 64) false) ∧ (hosted true).homeNeed 0 k true = some (.snoop (k / 64) true) ∧
    (d false).homeNeed 0 k false = none ∧ (d false).homeNeed 0 k true = some (.snoop (k / 64) true) ∧
    (d true).homeNeed 0 k false = none ∧ (d true).homeNeed 0 k true = none := by
  decide +kernel

/-! ## The hypotheses of the statements are met: the machine as a whole -/

theorem meets_EncodeDecode :
    ∀ i ∈ [Instr.tret g0, .movi g 5 77, .ld g 63 62 15 3 7, .vcvt g 71 75 1 0x1B, .fdiv g 71 0 75, .qadd g 3 75 2,
      .pstep g 31 30 7 6 10 1], slotKind i < 11 ∧ i.wf = true := by decide

theorem meets_DecodeThenEncode :
    decodeSlot 1 0x5002804D = some (.movi g0 5 77) ∧ slotKind (.movi g0 5 77) < 11 ∧ (Instr.movi g0 5 77).wf = true := by
  decide

theorem meets_GuardsThatAreFalse :
    (one 1 {}).guardPoison (slotInstr 1 0x00400000) = false ∧
    (one 1 {}).guardOk (guardOfInstr (slotInstr 1 0x00400000)) = false := by decide +kernel

/-- MOVI s5, 77 in its own literal bundle, at the program counter of a context of core 0. -/
def placed : State := State.reset.withFetchWord 32 (encode (.movi g0 5 77)).toNat

theorem meets_StepRunsDecoded_choice :
    placed.dev.power = true ∧ placed.dueTimer = none ∧ placed.chooseMove placed.moves = some (.issue 0) ∧
    (placed.served 0).choose 0 (((placed.served 0).ready 0).map (·.1)) = some 0 := by decide +kernel

theorem meets_StepRunsDecoded_bundle :
    let b := (placed.served 0).beginIssue ⟨0, 0⟩
    let v := b.setRegs { b.regs with pc := 0x400044 }
    let v := v.setCur { v.cur with ops := [(1, 0x5002804D, .movi g0 5 77)], stop := true, succ := 0x400080 }
    b.me.slice = none ∧ b.me.branch = none ∧
    b.myCore.fetch b.isRegrow b.regs.pc = .bundle 0x400044 [(1, 0x5002804D, slotInstr 1 0x5002804D)] true 0x400080 ∧
    decodeSlot 1 0x5002804D = some (.movi g0 5 77) ∧
    v.bundleFault [(1, 0x5002804D, .movi g0 5 77)] = none ∧ v.runs 1 = true ∧ v.twinMismatch = false ∧
    (match exec (.movi g0 5 77) (v.atSlot (1, 0x5002804D, .movi g0 5 77) false) with | .next _ => true | _ => false) = true := by
  decide +kernel

theorem meets_StepRunsDecoded_literal :
    let p := handPacket 0x5002804D
    let h := pktWord p 3 + pktWord p 4 * 2 ^ 16
    headerOk h = true ∧ maskSlots h = [1] ∧ 2 + 4 < 32 ∧
    (∀ i ∈ List.range 4, pktStart p (2 + 1 + i) = false) := by decide +kernel

theorem meets_StepRunsDecoded_event :
    let s := { State.reset with pending := [.coreHardwareStop 0] }
    s.dev.power = true ∧ s.dueTimer = none ∧ s.chooseMove s.moves = some (.event (.coreHardwareStop 0)) ∧
    ({ s with pending := s.pending.erase (.coreHardwareStop 0) } : State).messageDropped (.coreHardwareStop 0) = false ∧
    (match exec (.coreHardwareStop 0) { s with pending := s.pending.erase (.coreHardwareStop 0) } with | .next _ => true | _ => false) = true ∧
    (let m : NatMsg := ⟨1, 1, 0, 7, 9, 0, 0x1000000, 7, []⟩
     let t := { State.reset with pending := [.rd m] }
     t.dev.power = true ∧ t.dueTimer = none ∧ t.chooseMove t.moves = some (.event (.rd m)) ∧
     ({ t with pending := t.pending.erase (.rd m) } : State).messageDropped (.rd m) = true) := by
  decide +kernel

theorem meets_ResultsTakeTheirLatency :
    let r : Regs := { queue := [⟨BitVec.ofNat 8 (5 : BitVec 6).toNat, 3, 77, 0⟩] }
    let p : Regs := { queue := [⟨BitVec.ofNat 8 (0x80 + (2 : BitVec 3).toNat), 1, (if true = true then 1 else 0), 0⟩] }
    let v : Regs := { vqueue := [⟨9, 4, 0, 1, none⟩] }
    (5 : BitVec 6) ≠ 0 ∧ r.vqueue = [] ∧ 2 < 3 ∧ 3 ≤ 3 ∧ (2 : BitVec 3) ≠ 0 ∧ p.vqueue = [] ∧ 1 ≤ 1 ∧
    (9 : BitVec 7).toNat < 72 ∧ (8 : BitVec 7).toNat < 72 ∧ 1 ≤ 4 ∧ v.queue = [] ∧ 3 < 4 ∧
    r.queue.length = 1 ∧ p.queue.length = 1 ∧ v.vqueue.length = 1 := by decide +kernel

theorem meets_BlockedBundlesLeaveNoTrace :
    let s := (one 1 {}).setCur { (one 1 {}).cur with waits := [.fill 0x200] }
    s.cur.poison = none ∧ s.cur.waits ≠ [] ∧ s.m0First = false := by decide +kernel

theorem meets_TrapsAndReturns_entry :
    let s := onCore 1 (bound {})
    let m := onCore 1 (bound { mask := true })
    let z := onCore 1 { bound {} with bind := some { launch1 with trapVec := 0 } }
    (0 : Nat) ≠ 4 ∧ (s.ctx ⟨0, 0⟩).slice = none ∧ cILLENC ≠ cSEGERR ∧ (s.ctx ⟨0, 0⟩).mask = false ∧
    (s.core 0).binding.trapVec ≠ 0 ∧ (m.ctx ⟨0, 0⟩).mask = true ∧ cILLENC ≠ cTRETF ∧
    (m.ctx ⟨0, 0⟩).slice = none ∧ (z.core 0).binding.trapVec = 0 ∧ (z.ctx ⟨0, 0⟩).slice = none := by decide +kernel

theorem meets_TrapsAndReturns_slot :
    let s := (onCore 1 (bound {})).setCur { (onCore 1 (bound {})).cur with
      faults := [(1, cILLENC, 0)], outs := [⟨BitVec.ofNat 8 (5 : BitVec 6).toNat, 1, 77, 0⟩] }
    s.cur.faults = [(1, cILLENC, 0)] ∧ 1 < 11 ∧ cILLENC ≠ cSEGERR ∧ cILLENC ≠ cSWTRAP ∧ s.cur.ctx ≠ 4 ∧
    s.me.slice = none ∧ s.me.mask = false ∧ s.myCore.binding.trapVec ≠ 0 ∧ s.cur.fin = 0 ∧ s.cur.replay = false ∧
    s.cur.late = [] ∧ s.cur.feeds = [] ∧ s.cur.vouts = [] ∧ s.regs.queue = [] ∧ (5 : BitVec 6) ≠ 0 := by decide +kernel

theorem meets_TrapsAndReturns_return :
    let r : Resume := ⟨0, 0x400044, 0, []⟩
    let q : Regs := { shape := 0x0010080A, region := [(3, 0x80)] }
    r.mask = 0 ∧ r.addr = (0x400044 : BitVec 52).toNat ∧ cILLENC ≠ cSWTRAP ∧ q.shape &&& 0xC0 = 0 ∧
    (∀ n ∈ List.range 16, Map.get 0 q.region n &&& 0x7F = 0) := by decide +kernel

theorem meets_ResetAndPower :
    let s := State.reset.setDev { State.reset.dev with power := false }
    s.dev.power = false ∧ s.pending = [] := by decide +kernel

theorem meets_MemoryStaysCanonical :
    Memory.wf placed.mem = true ∧
    (match step placed with | .next _ => true | _ => false) = true ∧
    (match exec (.add g0 4 2 3) (one 1 {}) with | .next _ => true | _ => false) = true := by decide +kernel

theorem meets_MemoryReadsAndWrites :
    2 ^ 52 - 4 + 4 ≤ 2 ^ 52 ∧ Memory.wf (State.reset.putWord (2 ^ 52 - 4) 0x80000001).mem = true ∧
    Map.wf 0 ((bound {}).poolWrite 5 [1, 0, 3]).pool = true ∧ inTile 0x4000 0x4001 = true ∧ inTile 0x4000 0x8000 = false := by
  decide +kernel

theorem meets_RegisterOpsFrame :
    let s := (one 1 {}).setCur { (one 1 {}).cur with lfsr := 0x9E3779B9 }
    (s.cur.more = false ∧ s.cur.waits = [] ∧ s.cur.faults = [] ∧ s.cur.poison = none ∧ s.cur.outs = [] ∧
      s.cur.vouts = [] ∧ s.cur.late = [] ∧ s.cur.feeds = [] ∧ s.cur.jump = none ∧ s.cur.fin = 0 ∧
      s.cur.replay = false ∧ s.cur.lfsr = s.regs.lfsr ∧ s.me.slice = none ∧ s.regs.queue = [] ∧ s.regs.vqueue = []) ∧
    s.opRuns (.mad g0 4 2 3) = true ∧ s.opRuns (.cmp g0 1 0 2 3) = true ∧ s.opRuns (.plog g0 1 5 2 0) = true ∧
    (s.isS = true → cregNotS 0x1C0 = false) ∧ (71 : BitVec 7).toNat < 72 := by decide +kernel

/-! ## Single steps, with results worked out by hand from the rules -/

/-- The registers when the results in flight have arrived. -/
def land (s : State) : Regs := Nat.repeat (tickRegs false) 20 s.regs

/-- The scalar `d` that an A-slot op leaves, from these scalars, p1 true. -/
def scalar (i : Instr) (d : BitVec 6) (l : Map Dword) : Dword :=
  readS (land (after (exec i (one 1 { s := l, p := 2 })))) d

/-- The predicate `d` that an A-slot op leaves. -/
def pred (i : Instr) (d : BitVec 3) (l : Map Dword) : Bool :=
  readP (land (after (exec i (one 1 { s := l, p := 2 })))) d

/-- -n as a scalar. -/
def minus (n : Nat) : Dword := BitVec.ofNat 64 (2 ^ 64 - n)

theorem test_add_wraps : scalar (.add g0 4 2 3) 4 [(2, 5), (3, minus 2)] = 3 := by decide +kernel

theorem test_sub_borrows : scalar (.sub g0 4 2 3) 4 [(2, 3), (3, 5)] = minus 2 := by decide +kernel

theorem test_logic :
    scalar (.and g0 4 2 3) 4 [(2, 12), (3, 10)] = 8 ∧ scalar (.or g0 4 2 3) 4 [(2, 12), (3, 10)] = 14 ∧
    scalar (.xor g0 4 2 3) 4 [(2, 12), (3, 10)] = 6 ∧ scalar (.andn g0 4 2 3) 4 [(2, 12), (3, 10)] = 4 := by
  decide +kernel

/-- The count is bits [5:0] of B alone (R105). -/
theorem test_shift_counts :
    scalar (.shl g0 4 2 3) 4 [(2, 3), (3, 65)] = 6 ∧ scalar (.shr g0 4 2 3) 4 [(2, minus 8), (3, 1)] = 0x7FFFFFFFFFFFFFFC ∧
    scalar (.sra g0 4 2 3) 4 [(2, minus 8), (3, 1)] = minus 4 := by decide +kernel

theorem test_min_max_signs :
    scalar (.min g0 4 2 3) 4 [(2, minus 1), (3, 1)] = minus 1 ∧ scalar (.minu g0 4 2 3) 4 [(2, minus 1), (3, 1)] = 1 ∧
    scalar (.max g0 4 2 3) 4 [(2, minus 1), (3, 1)] = 1 ∧ scalar (.maxu g0 4 2 3) 4 [(2, minus 1), (3, 1)] = minus 1 := by
  decide +kernel

theorem test_multiply_halves :
    scalar (.mulh g0 4 2 3) 4 [(2, minus 1), (3, minus 1)] = 0 ∧
    scalar (.mulhu g0 4 2 3) 4 [(2, minus 1), (3, minus 1)] = minus 2 ∧
    scalar (.mul g0 4 2 3) 4 [(2, minus 1), (3, minus 1)] = 1 ∧
    scalar (.mad g0 4 2 3) 4 [(2, 3), (3, 4), (4, 10)] = 22 := by decide +kernel

theorem test_divide_corners :
    scalar (.div g0 4 2 3) 4 [(2, 9)] = minus 1 ∧ scalar (.divu g0 4 2 3) 4 [(2, 9)] = minus 1 ∧
    scalar (.rem g0 4 2 3) 4 [(2, 9)] = 9 ∧ scalar (.remu g0 4 2 3) 4 [(2, 9)] = 9 ∧
    scalar (.div g0 4 2 3) 4 [(2, minus (2 ^ 63)), (3, minus 1)] = minus (2 ^ 63) ∧
    scalar (.rem g0 4 2 3) 4 [(2, minus (2 ^ 63)), (3, minus 1)] = 0 := by decide +kernel

theorem test_divide_truncates :
    scalar (.div g0 4 2 3) 4 [(2, minus 7), (3, 2)] = minus 3 ∧ scalar (.rem g0 4 2 3) 4 [(2, minus 7), (3, 2)] = minus 1 := by
  decide +kernel

theorem test_counts :
    scalar (.clz g0 4 2) 4 [(2, 1)] = 63 ∧ scalar (.clz g0 4 2) 4 [] = 64 ∧ scalar (.popc g0 4 2) 4 [(2, 0xF0F)] = 8 := by
  decide +kernel

/-- Bits 4 to 7 signed and not; a field of 8 bits from bit 60 is cut to 4 (R107). -/
theorem test_bit_fields :
    scalar (.bfx g0 4 2 3) 4 [(2, 0xF0), (3, 0x10304)] = minus 1 ∧ scalar (.bfx g0 4 2 3) 4 [(2, 0xF0), (3, 0x00304)] = 15 ∧
    scalar (.bfx g0 4 2 3) 4 [(2, minus 1), (3, 0x0073C)] = 15 ∧
    scalar (.bfi g0 4 2 3) 4 [(2, 0x1AB), (3, 0x00708), (4, minus 1)] = 0xFFFFFFFFFFFFABFF := by decide +kernel

theorem test_select_and_carry :
    scalar (.sel g0 4 2 3 1) 4 [(2, 7), (3, 8)] = 7 ∧ scalar (.sel g0 4 2 3 2) 4 [(2, 7), (3, 8)] = 8 ∧
    scalar (.addx g0 4 2 3 1) 4 [(2, minus 1), (3, 0)] = 0 ∧ scalar (.addx g0 4 2 3 2) 4 [(2, minus 1), (3, 0)] = minus 1 := by
  decide +kernel

theorem test_extends :
    scalar (.sext g0 4 2 1) 4 [(2, 0x18000)] = minus 0x8000 ∧ scalar (.zext g0 4 2 0) 4 [(2, 0x1FF)] = 255 := by decide +kernel

theorem test_immediates :
    scalar (.addi g0 4 2 0x1FF) 4 [(2, 5)] = 4 ∧ scalar (.andi g0 4 2 0x1F0) 4 [(2, minus 1)] = minus 16 ∧
    scalar (.ori g0 4 2 1) 4 [(2, 6)] = 7 ∧ scalar (.xori g0 4 2 0x1FF) 4 [(2, 0)] = minus 1 ∧
    scalar (.srai g0 4 2 63) 4 [(2, minus 2)] = minus 1 ∧ scalar (.shri g0 4 2 63) 4 [(2, minus 2)] = 1 ∧
    scalar (.movi g0 4 0x4000) 4 [] = minus 0x4000 := by decide +kernel

/-- `cmpi p1, ltu, s3, -1` is true for every s3 but 2^64 - 1 (R110). -/
theorem test_compares :
    pred (.cmpi g0 2 3 3 0x1FF) 2 [(3, minus 2)] = true ∧ pred (.cmpi g0 2 3 3 0x1FF) 2 [(3, minus 1)] = false ∧
    pred (.cmp g0 2 2 3 4) 2 [(3, minus 1), (4, 0)] = true ∧ pred (.cmp g0 2 3 3 4) 2 [(3, minus 1), (4, 0)] = false := by
  decide +kernel

theorem test_scalar_zero_discards : scalar (.add g0 0 2 3) 0 [(2, 5), (3, 6)] = 0 := by decide +kernel

/-- A multiply is not seen for two context-cycles more (R101). -/
theorem test_multiply_latency :
    readS (after (exec (.mul g0 4 2 3) (one 1 { s := [(2, 5), (3, 6), (4, 1)] }))).regs 4 = 1 := by decide +kernel

/-! ### Vectors -/

/-- Elements of a width. -/
def elems (w : Nat) (xs : List Nat) : VReg := BitVec.ofNat 8192 (packBits w xs)

/-- A vector op's registers, from v1 and v2, under a shape of these rows, columns and format. -/
def vrun (n : Nat) (i : Instr) (rows cols code : Nat) (a b : VReg) (r : Regs := {}) : Regs :=
  let s := onCore n (bound { regs := { r with
    shape := BitVec.ofNat 32 (rows * 2 ^ 20 + cols * 2 ^ 8 + code), v := [(1, a), (2, b)] } })
  land (after (exec i (s.setCur { s.cur with lfsr := r.lfsr })))

theorem test_vector_add_wraps :
    readV (vrun 5 (.vadd g0 3 1 2) 1 4 0 (elems 8 [127, 255, 1, 200]) (elems 8 [1, 1, 2, 100, 9])) 3 =
      elems 8 [128, 0, 3, 44] := by decide +kernel

/-- INT8 clamps 127 + 1 and -128 - 1, and says so (R132). -/
theorem test_vector_saturates :
    let r := vrun 5 (.vqadd g0 3 1 2) 1 2 0 (elems 8 [127, 128]) (elems 8 [1, 255])
    readV r 3 = elems 8 [127, 128] ∧ r.fflags = flagSAT := by decide +kernel

theorem test_vector_shift_past_width :
    readV (vrun 5 (.vsra g0 3 1 2) 1 2 0 (elems 8 [0x80, 0x40]) (elems 8 [8, 1])) 3 = elems 8 [0xFF, 0x20] ∧
    readV (vrun 5 (.vshr g0 3 1 2) 1 2 0 (elems 8 [0x80, 0x80]) (elems 8 [8, 1])) 3 = elems 8 [0, 0x40] := by decide +kernel

theorem test_vector_high_product :
    readV (vrun 5 (.vmulh g0 3 1 2) 1 2 0 (elems 8 [0x80, 0xFF]) (elems 8 [0x80, 1])) 3 = elems 8 [0x40, 0xFF] ∧
    readV (vrun 5 (.vmulh g0 3 1 2) 1 2 1 (elems 8 [0x80, 0xFF]) (elems 8 [0x80, 1])) 3 = elems 8 [0x40, 0] := by
  decide +kernel

theorem test_vector_abs_of_least :
    readV (vrun 5 (.vabs g0 3 1) 1 3 0 (elems 8 [0x80, 0xFF, 5]) 0) 3 = elems 8 [0x80, 1, 5] := by decide +kernel

/-- FP32: 1 + 2 = 3; NaN is unequal to itself, +0 = -0 (R132, R133). -/
theorem test_vector_floats :
    readV (vrun 5 (.vadd g0 3 1 2) 1 1 0x0A (elems 32 [0x3F800000]) (elems 32 [0x40000000])) 3 = elems 32 [0x40400000] ∧
    readV (vrun 5 (.vceq g0 3 1 2) 1 2 0x0A (elems 32 [0x7FC00000, 0]) (elems 32 [0x7FC00000, 0x80000000])) 3 =
      elems 32 [0, 0xFFFFFFFF] := by decide +kernel

/-- 3 · 0x3EAAAAAB, which is 1 + 2^-25, rounds once to 1; -0 is below +0 (R132). -/
theorem test_vector_fused :
    readV (vrun 5 (.vfma g0 0 1 2) 1 1 0x0A (elems 32 [0x40400000]) (elems 32 [0x3EAAAAAB])) 0 = elems 32 [0x3F800000] ∧
    readV (vrun 5 (.vmin g0 3 1 2) 1 1 0x0A 0 (elems 32 [0x80000000])) 3 = elems 32 [0x80000000] := by decide +kernel

/-- A 2 × 3 shape: a(0, 2) goes to element 4 and a(1, 0) to element 1 (R136). -/
theorem test_transpose :
    readV (vrun 5 (.vtrn g0 3 1) 2 3 0 (elems 8 [10, 11, 12, 20, 21, 22]) 0) 3 = elems 8 [10, 20, 11, 21, 12, 22] := by
  decide +kernel

/-- Rotating two rows by one; a shift by columns brings zeros in (R135). -/
theorem test_rotate_and_shift :
    readV (vrun 5 (.vrot g0 3 1 1) 3 1 0 (elems 8 [1, 2, 3]) 0) 3 = elems 8 [3, 1, 2] ∧
    readV (vrun 5 (.vcolsh g0 3 1 0x7F) 1 3 0 (elems 8 [1, 2, 3]) 0) 3 = elems 8 [2, 3] := by decide +kernel

/-- The compression of R139. -/
theorem test_compress :
    readV (vrun 5 (.vcmpr g0 3 1) 1 8 0x0A
      (elems 32 [0x3F800000, 0xC0800000, 0x40000000, 0x40400000, 0, 0, 0x80000000, 0x40E00000]) 0) 3 =
      elems 32 [0xC0800000, 0x40400000, 0, 0x40E00000, 0xCD] := by decide +kernel

/-- The conversion of R82: b8p4i of 0x3DCCCCCD under SR with LFSR 0xF0000000 is 0x24, under RNE 0x25. -/
theorem test_stochastic_rounding :
    readV (vrun 5 (.vcvt g0 3 1 0 0x1B) 1 1 0x0A (elems 32 [0x3DCCCCCD]) 0 { rmode := modeSR, lfsr := 0xF0000000 }) 3 = 0x24 ∧
    readV (vrun 5 (.vcvt g0 3 1 0 0x1B) 1 1 0x0A (elems 32 [0x3DCCCCCD]) 0) 3 = 0x25 := by decide +kernel

/-- Five trits +1, -1, 0, 0, +1 pack as 0x58 (R69), and a value above +1 clamps (R138). -/
theorem test_ternary :
    let r := vrun 5 (.vpack3 g0 3 1) 1 5 0 (elems 8 [1, 255, 0, 0, 5]) 0
    readV r 3 = 0x58 ∧ r.fflags = flagSAT := by decide +kernel

/-- 1 / 0 is infinite with DZ; 2^0 and √4 are exact; 0 / 0 is NaN with NV (R143). -/
theorem test_elementary :
    (let r := vrun 8 (.fdiv g0 3 1 2) 1 1 0x0A (elems 32 [0x3F800000]) 0
     readV r 3 = elems 32 [0x7F800000] ∧ r.fflags = flagDZ) ∧
    (let r := vrun 8 (.fdiv g0 3 1 2) 1 1 0x0A 0 0
     readV r 3 = elems 32 [0x7FC00000] ∧ r.fflags = flagNV) ∧
    readV (vrun 8 (.fexp2 g0 3 1) 1 1 0x0A (elems 32 [0x80000000]) 0) 3 = elems 32 [0x3F800000] ∧
    readV (vrun 8 (.fsqrt g0 3 1) 1 1 0x0A (elems 32 [0x40800000]) 0) 3 = elems 32 [0x40000000] := by decide +kernel

/-- The latch after the group (2^24, 1, 1, 1): by the tree 16,777,218, in sequence 2^24 throughout (R146). -/
theorem test_reductions :
    let v := elems 32 [0x4B800000, 0x3F800000, 0x3F800000, 0x3F800000]
    let a := vrun 9 (.qadd g0 1 1 2) 1 4 0x0A v 0
    let b := vrun 9 (.qscan g0 1 1 2) 1 4 0x0A v 0
    Map.get 0 a.q 1 = elems 32 [0x4B800001] ∧ Map.get 0 a.qcount 1 = 1 ∧
    Map.get 0 b.q 1 = elems 32 [0x4B800000, 0x4B800000, 0x4B800000, 0x4B800000] ∧ Map.get 0 b.qcount 1 = 4 := by
  decide +kernel

/-- A vector element is sign-extended for a signed format and not for an unsigned one (R141). -/
theorem test_element_moves :
    readS (vrun 5 (.vget g0 7 1 1) 1 2 0 (elems 8 [1, 0x80]) 0) 7 = minus 128 ∧
    readS (vrun 5 (.vget g0 7 1 1) 1 2 1 (elems 8 [1, 0x80]) 0) 7 = 128 := by decide +kernel

/-! ### Memory, control and traps -/

/-- Loads and stores of the pool, little-endian, sign-extended or not (R265). -/
theorem test_pool_loads :
    let s := onCore 3 { bound { regs := { s := [(1, 0x11000)] } } with pool := [(0x11000, 0x80), (0x11001, 0x01)] }
    readS (land (after (exec (.ld g0 5 1 0 1 0) s))) 5 = 0x180 ∧
    readS (land (after (exec (.lds g0 5 1 0 0 0) s))) 5 = minus 128 := by decide +kernel

theorem test_pool_store :
    let s := onCore 3 (bound { regs := { s := [(1, 0x11000), (5, 0x1234)] } })
    ((after (exec (.st g0 5 1 0 1 1) s)).myCore.pool) = [(0x11002, 0x34), (0x11003, 0x12)] := by decide +kernel

/-- A load of two bytes at an odd address (R265). -/
theorem test_misaligned_load_traps :
    let s := onCore 3 (bound { regs := { s := [(1, 0x11001)] } })
    (after (exec (.ld g0 5 1 0 1 0) s)).me.trapcause = cALIGN ∧ (after (exec (.ld g0 5 1 0 1 0) s)).me.h = true := by
  decide +kernel

/-- The step and the retirement worked under R86. -/
theorem test_plane_step_and_retirement :
    let f := fmtOf 0x1B
    let p := fun (a b : Nat) => scaledProduct (f.read a, 128) ⟨0, f.read b, 125⟩
    addFp32 0x4B800000 (exactSum [p 0x44 0x48, p 0xC8 0x38, p 0x30 0x50, p 0 0x7E]) = 0x4B800001 ∧
    (retireElem true (some (Val.mul (fp32.read 0x35800000) (fp32.read 0x3F000000)).1) f 0x1B false modeRNE 0 0x4B800001).1 =
      0x58 := by decide +kernel

/-- An integer step saturates at the largest INT32 (R85). -/
theorem test_plane_saturates : addSat 0x7FFFFFFE 5 = (0x7FFFFFFF, true) ∧ addSat 1 (-3) = (0xFFFFFFFE, false) := by
  decide +kernel

/-- The step on a placed MOVI s5, 77. -/
theorem test_step_runs_placed_word :
    readS ((after (step placed)).ctx ⟨0, 0⟩).regs 5 = 77 ∧ ((after (step placed)).ctx ⟨0, 0⟩).life = .running := by
  decide +kernel

/-- A trap with a code, TRAP 5, enters the trap vector at the image plus 2 · 0x100 (R337, R348). -/
theorem test_trap_enters :
    let t := after (exec (.trap g0 5) (onCore 0 (bound { regs := { pc := 0x400044 } })))
    t.me.trapcause = cSWTRAP ∧ t.me.trappc = 0x400044 ∧ t.me.regs.pc = 0x400200 ∧ t.me.h = true ∧ t.me.sv = true := by
  decide +kernel

end Sys2Proof.Tests
end

section
/-! SUPPORT. Vector ops that are accepted (R128, R131): what the forms that the X-slot arithmetic shares deliver in a
floating format (R132), and with them the statement on vector arithmetic in floating formats. -/

namespace Sys2Proof.Machine

/-! ## Accepted vector ops -/

/-- An accepted vector op does what its body does. -/
theorem State.vecOp_of_vecReady {s : State} {vs : List (BitVec 7)} {ok : Fmt → Bool} {f : State → OpRes}
    (h : vecReady vs ok s) : s.vecOp vs ok f = f s := by
  obtain ⟨notS, notHandler, inWindow, admitted⟩ := h
  have hall : vs.all s.inVectors = true := List.all_eq_true.2 inWindow
  simp [State.vecOp, notS, notHandler, hall, admitted]

/-- An op that is accepted with one set of formats is accepted with any other that has the format in SHAPE. -/
theorem vecReady.with_formats {s : State} {vs : List (BitVec 7)} {ok ok' : Fmt → Bool} (h : vecReady vs ok s)
    (h' : ok' (shapeFmt s.shape) = true) : vecReady vs ok' s := by
  obtain ⟨notS, notHandler, inWindow, -⟩ := h
  exact ⟨notS, notHandler, inWindow, h'⟩

/-- An op whose body delivers elements under `pre` gives them. -/
theorem GivesElems.of_body {i : Instr} {g : Guard} {body : State → OpRes} {d : BitVec 7} {lat : Nat}
    {pre : State → Prop} {fmt : State → Fmt} {n : State → Nat} {elem : State → Nat → Word → Nat × Flags}
    (he : ∀ s, exec i s = s.slotOp g i body) (hg : guardOfInstr i = g)
    (hb : ∀ s, pre s → body s = s.giveElems d lat (fmt s) (n s) (elem s)) : GivesElems i d lat pre fmt n elem :=
  Completes.of_body he hg hb

/-! ## The shared forms in a floating format (R132) -/

section
variable {s : State} {d a b : BitVec 7} {f : FltFmt}

/-- In a floating format an element-wise op forms its elements by its floating form. -/
theorem State.elementWise_flt {lat : Nat} {int : Nat → Bool → Nat → Nat × Flags}
    {flt : FltFmt → Word → Nat → Nat × Flags} (hf : shapeFmt s.shape = .flt f) :
    s.elementWise d lat int flt = s.giveElems d lat (.flt f) (shapeN s.shape) fun j u => flt f u j := by
  simp only [State.elementWise, hf]

/-- VADD, VSUB and VMUL round the exact value of each pair of elements. -/
theorem State.arith2_flt {lat : Nat} {int : Int → Int → Int} {flt : Val → Val → Val × Flags}
    (h : vecReady [d, a, b] isIF s) (hf : shapeFmt s.shape = .flt f) :
    s.arith2 d a b lat int flt = s.giveElems d lat (.flt f) (shapeN s.shape) fun j u =>
      s.roundV f u (flt (f.read (s.elem (readV s.regs a) j)) (f.read (s.elem (readV s.regs b) j))) :=
  (State.vecOp_of_vecReady h).trans (State.elementWise_flt hf)

/-- VMIN and VMAX choose a source's value, and what its rounding would flag is dropped. -/
theorem State.select2_flt {int : Int → Int → Int} {flt : Val → Val → Val}
    (h : vecReady [d, a, b] isIF s) (hf : shapeFmt s.shape = .flt f) :
    s.select2 d a b int flt = s.giveElems d 2 (.flt f) (shapeN s.shape) fun j u =>
      ((s.roundV f u (flt (f.read (s.elem (readV s.regs a) j)) (f.read (s.elem (readV s.regs b) j)), 0)).1, 0) :=
  (State.vecOp_of_vecReady h).trans (State.elementWise_flt hf)

/-- VABS and VNEG drop the flags as well; the formats that the op admits are its own. -/
theorem State.signOp_flt {ok : Fmt → Bool} {int : Int → Int} {flt : Val → Val}
    (h : vecReady [d, a] ok s) (hf : shapeFmt s.shape = .flt f) :
    s.signOp d a ok int flt = s.giveElems d 2 (.flt f) (shapeN s.shape) fun j u =>
      ((s.roundV f u (flt (f.read (s.elem (readV s.regs a) j)), 0)).1, 0) :=
  (State.vecOp_of_vecReady h).trans (State.elementWise_flt hf)

/-- VFMA and VFMS: a NaN destination element stays NaN, whatever the product; else the sum with the product, both
exact, is rounded once, with the flags of product, sum and rounding (R75, R132). -/
theorem State.fused_flt {minus : Bool} (h : vecReady [d, a, b] isIF s) (hf : shapeFmt s.shape = .flt f) :
    s.fused d a b minus = s.giveElems d 4 (.flt f) (shapeN s.shape) fun j u =>
      let z := f.read (s.elem (readV s.regs d) j)
      let p := Val.mul (f.read (s.elem (readV s.regs a) j)) (f.read (s.elem (readV s.regs b) j))
      let r := Val.add s.rdn z (if minus then p.1.neg else p.1)
      if z = .nan then (f.nanBits, 0) else s.roundV f u (r.1, p.2 ||| r.2) := by
  refine ((State.vecOp_of_vecReady h).trans (State.elementWise_flt hf)).trans ?_
  congr 1
  funext j u
  cases hz : f.read (s.elem (readV s.regs d) j) with
  | nan => simp
  | inf neg => simp
  | fin neg m e => simp

end

/-! ## The statement -/

/-- Settles O30: every op is one of the shared forms, and each of them rounds the exact value of an element once. -/
theorem vectorFloats : Obligations.VectorFloats := by
  intro g d a b f
  have signed (s : State) (hs : f.signed = true) (hf : shapeFmt s.shape = .flt f) :
      (isIF (shapeFmt s.shape) && signedFmt (shapeFmt s.shape)) = true := by
    simp [hf, isIF, isF, signedFmt, hs]
  have floating (s : State) (hf : shapeFmt s.shape = .flt f) : isF (shapeFmt s.shape) = true := by
    simp [hf, isF]
  refine ⟨?vadd, ?vsub, ?vmul, ?vfma, ?vfms, ?vmin, ?vmax, ?vabs, fun hs => ?vneg, ?viota, ?vscl⟩
  case vadd => exact .of_body (fun _ => rfl) rfl fun s ⟨h, hf⟩ => State.arith2_flt h hf
  case vsub => exact .of_body (fun _ => rfl) rfl fun s ⟨h, hf⟩ => State.arith2_flt h hf
  case vmul => exact .of_body (fun _ => rfl) rfl fun s ⟨h, hf⟩ => State.arith2_flt h hf
  case vfma => exact .of_body (fun _ => rfl) rfl fun s ⟨h, hf⟩ => State.fused_flt h hf
  case vfms => exact .of_body (fun _ => rfl) rfl fun s ⟨h, hf⟩ => State.fused_flt h hf
  case vmin => exact .of_body (fun _ => rfl) rfl fun s ⟨h, hf⟩ => State.select2_flt h hf
  case vmax => exact .of_body (fun _ => rfl) rfl fun s ⟨h, hf⟩ => State.select2_flt h hf
  case vabs => exact .of_body (fun _ => rfl) rfl fun s ⟨h, hf⟩ => State.signOp_flt h hf
  case vneg =>
    exact .of_body (fun _ => rfl) rfl fun s ⟨h, hf⟩ => State.signOp_flt (h.with_formats (signed s hs hf)) hf
  case viota =>
    exact .of_body (fun _ => rfl) rfl fun s ⟨h, hf⟩ => (State.vecOp_of_vecReady h).trans (State.elementWise_flt hf)
  case vscl =>
    exact .of_body (fun _ => rfl) rfl fun s ⟨h, hf⟩ =>
      (State.vecOp_of_vecReady (h.with_formats (floating s hf))).trans (State.elementWise_flt hf)

end Sys2Proof.Machine
end

section
/-! SUPPORT. Vector ops that are refused (R124, R128, R353) and what the shared forms deliver in an integer format
(R132), with the statement on vector arithmetic in integer formats. -/

namespace Sys2Proof.Machine

/-! ## Vector ops that are refused (R124, R128, R131, R353) -/

section
variable {s : State} {vs : List (BitVec 7)} {ok : Fmt → Bool} {f : State → OpRes}

/-- In ctxS, and with a register outside the window, a vector op raises ILLENC whatever its format. -/
theorem State.vecOp_of_outside (h : s.isS = true ∨ ∃ v ∈ vs, s.inVectors v = false) : s.vecOp vs ok f = s.illenc := by
  rcases h with inS | outside
  · simp [State.vecOp, inS]
  · have hall : vs.all s.inVectors = false := List.all_eq_false.2 (by simpa using outside)
    simp [State.vecOp, hall]

/-- In a format outside those of its row, a vector op raises ILLENC. -/
theorem State.vecOp_of_format (h : ok (shapeFmt s.shape) = false) : s.vecOp vs ok f = s.illenc := by
  simp [State.vecOp, h]

/-- In handler mode a vector op that is otherwise accepted raises PRIV. -/
theorem State.vecOp_of_handler (notS : s.isS = false) (inWindow : ∀ v ∈ vs, s.inVectors v = true)
    (admitted : ok (shapeFmt s.shape) = true) (handler : s.me.h = true) : s.vecOp vs ok f = s.priv := by
  have hall : vs.all s.inVectors = true := List.all_eq_true.2 inWindow
  simp [State.vecOp, notS, hall, admitted, handler]

end

/-! ## The shared forms in an integer format (R132) -/

section
variable {s : State} {d a b : BitVec 7} {w : Nat} {sg : Bool}

/-- In an integer format an element-wise op forms its elements by its integer form. -/
theorem State.elementWise_int {lat : Nat} {int : Nat → Bool → Nat → Nat × Flags}
    {flt : FltFmt → Word → Nat → Nat × Flags} (hf : shapeFmt s.shape = .int w sg) :
    s.elementWise d lat int flt = s.giveElems d lat (.int w sg) (shapeN s.shape) fun j _ => int w sg j := by
  simp only [State.elementWise, hf]

/-- An op that admits class I is accepted in an integer format. -/
theorem vecReady.of_isI {vs : List (BitVec 7)} (h : vecReady vs isIF s) (hf : shapeFmt s.shape = .int w sg) :
    vecReady vs isI s :=
  h.with_formats (by simp [hf, isI])

/-- VADD, VSUB and VMUL compute exactly and cut to the format's width. -/
theorem State.arith2_int {lat : Nat} {int : Int → Int → Int} {flt : Val → Val → Val × Flags}
    (h : vecReady [d, a, b] isIF s) (hf : shapeFmt s.shape = .int w sg) :
    s.arith2 d a b lat int flt = s.giveElems d lat (.int w sg) (shapeN s.shape) fun j _ =>
      (intBits w (int (readInt w sg (s.elem (readV s.regs a) j)) (readInt w sg (s.elem (readV s.regs b) j))), 0) :=
  (State.vecOp_of_vecReady h).trans (State.elementWise_int hf)

/-- VFMA and VFMS cut the exact sum of the destination with the product, or with its negative. -/
theorem State.fused_int {minus : Bool} (h : vecReady [d, a, b] isIF s) (hf : shapeFmt s.shape = .int w sg) :
    s.fused d a b minus = s.giveElems d 4 (.int w sg) (shapeN s.shape) fun j _ =>
      let p := readInt w sg (s.elem (readV s.regs a) j) * readInt w sg (s.elem (readV s.regs b) j)
      (intBits w (readInt w sg (s.elem (readV s.regs d) j) + if minus then -p else p), 0) :=
  (State.vecOp_of_vecReady h).trans (State.elementWise_int hf)

/-- VMIN and VMAX choose one of the two integers. -/
theorem State.select2_int {int : Int → Int → Int} {flt : Val → Val → Val}
    (h : vecReady [d, a, b] isIF s) (hf : shapeFmt s.shape = .int w sg) :
    s.select2 d a b int flt = s.giveElems d 2 (.int w sg) (shapeN s.shape) fun j _ =>
      (intBits w (int (readInt w sg (s.elem (readV s.regs a) j)) (readInt w sg (s.elem (readV s.regs b) j))), 0) :=
  (State.vecOp_of_vecReady h).trans (State.elementWise_int hf)

/-- VABS and VNEG cut as well; the formats that the op admits are its own. -/
theorem State.signOp_int {ok : Fmt → Bool} {int : Int → Int} {flt : Val → Val}
    (h : vecReady [d, a] ok s) (hf : shapeFmt s.shape = .int w sg) :
    s.signOp d a ok int flt = s.giveElems d 2 (.int w sg) (shapeN s.shape) fun j _ =>
      (intBits w (int (readInt w sg (s.elem (readV s.regs a) j))), 0) :=
  (State.vecOp_of_vecReady h).trans (State.elementWise_int hf)

/-- The shifts take the low eight bits of the second source's element as their count. -/
theorem State.shiftV_int {f : Nat → Nat → Nat → Nat}
    (h : vecReady [d, a, b] isIF s) (hf : shapeFmt s.shape = .int w sg) :
    s.shiftV d a b f = s.giveElems d 2 (.int w sg) (shapeN s.shape) fun j _ =>
      (f w (s.elem (readV s.regs a) j) (s.elem (readV s.regs b) j % 256), 0) :=
  (State.vecOp_of_vecReady (h.of_isI hf)).trans (State.elementWise_int hf)

/-- VQADD and VQSUB clamp the exact integer, and an element that changes sets SAT. -/
theorem State.satOp_int {op : Int → Int → Int}
    (h : vecReady [d, a, b] isIF s) (hf : shapeFmt s.shape = .int w sg) :
    s.satOp d a b op = s.giveElems d 2 (.int w sg) (shapeN s.shape) fun j _ =>
      let r := clampInt w sg (op (readInt w sg (s.elem (readV s.regs a) j)) (readInt w sg (s.elem (readV s.regs b) j)))
      (intBits w r.1, if r.2 = true then flagSAT else 0) :=
  (State.vecOp_of_vecReady (h.of_isI hf)).trans (State.elementWise_int hf)

end

/-! ## The statement -/

/-- Settles O29: every op is one of the shared forms, and its integer form is the arithmetic that the statement
names. -/
theorem vectorIntegers : Obligations.VectorIntegers := by
  intro g d a b w sg
  refine ⟨?vadd, ?vsub, ?vmul, ?vfma, ?vfms, ?vmin, ?vmax, ?vmulh, ?vqadd, ?vqsub, ?vabs, fun hs => ?vneg,
    fun hs => ?vnegUnsigned, ?vshl, ?vshr, ?vsra, ?viota⟩
  case vadd => exact .of_body (fun _ => rfl) rfl fun _ ⟨h, hf⟩ => State.arith2_int h hf
  case vsub => exact .of_body (fun _ => rfl) rfl fun _ ⟨h, hf⟩ => State.arith2_int h hf
  case vmul => exact .of_body (fun _ => rfl) rfl fun _ ⟨h, hf⟩ => State.arith2_int h hf
  case vfma => exact .of_body (fun _ => rfl) rfl fun _ ⟨h, hf⟩ => State.fused_int h hf
  case vfms => exact .of_body (fun _ => rfl) rfl fun _ ⟨h, hf⟩ => State.fused_int h hf
  case vmin => exact .of_body (fun _ => rfl) rfl fun _ ⟨h, hf⟩ => State.select2_int h hf
  case vmax => exact .of_body (fun _ => rfl) rfl fun _ ⟨h, hf⟩ => State.select2_int h hf
  case vmulh =>
    exact .of_body (fun _ => rfl) rfl fun _ ⟨h, hf⟩ =>
      (State.vecOp_of_vecReady (h.of_isI hf)).trans (State.elementWise_int hf)
  case vqadd => exact .of_body (fun _ => rfl) rfl fun _ ⟨h, hf⟩ => State.satOp_int h hf
  case vqsub => exact .of_body (fun _ => rfl) rfl fun _ ⟨h, hf⟩ => State.satOp_int h hf
  case vabs => exact .of_body (fun _ => rfl) rfl fun _ ⟨h, hf⟩ => State.signOp_int h hf
  case vneg =>
    have admitted (s : State) (hf : shapeFmt s.shape = .int w sg) :
        (isIF (shapeFmt s.shape) && signedFmt (shapeFmt s.shape)) = true := by
      simp [hf, isIF, isI, signedFmt, hs]
    exact .of_body (fun _ => rfl) rfl fun s ⟨h, hf⟩ => State.signOp_int (h.with_formats (admitted s hf)) hf
  case vnegUnsigned =>
    exact .of_body (fun _ => rfl) rfl fun s hf => State.vecOp_of_format (by simp [hf, signedFmt, hs])
  case vshl => exact .of_body (fun _ => rfl) rfl fun _ ⟨h, hf⟩ => State.shiftV_int h hf
  case vshr => exact .of_body (fun _ => rfl) rfl fun _ ⟨h, hf⟩ => State.shiftV_int h hf
  case vsra => exact .of_body (fun _ => rfl) rfl fun _ ⟨h, hf⟩ => State.shiftV_int h hf
  case viota =>
    exact .of_body (fun _ => rfl) rfl fun _ ⟨h, hf⟩ => (State.vecOp_of_vecReady h).trans (State.elementWise_int hf)

end Sys2Proof.Machine
end

section
/-! SUPPORT. Which element of the source an op moves to each place of its result (R135, R136), and the statement on bit
ops, compares, fills and moves of elements. -/

namespace Sys2Proof.Machine

/-! ## Elements that are delivered in order (R131) -/

/-- Only the elements in the range that is delivered matter. -/
theorem eachElem_congr {f f' : Nat → Word → Nat × Flags} {n i : Nat} (h : ∀ j, i ≤ j → j < i + n → f j = f' j)
    (l : Word) : eachElem f n i l = eachElem f' n i l := by
  induction n generalizing i l with
  | zero => rfl
  | succ n ih =>
    have first : f i = f' i := h i (Nat.le_refl i) (by omega)
    have rest (l : Word) : eachElem f n (i + 1) l = eachElem f' n (i + 1) l :=
      ih (fun j hij hj => h j (by omega) (by omega)) l
    simp only [eachElem, first, rest]

theorem State.giveElems_congr {s : State} {d : BitVec 7} {lat n : Nat} {fmt : Fmt}
    {f f' : Nat → Word → Nat × Flags} (h : ∀ j < n, f j = f' j) :
    s.giveElems d lat fmt n f = s.giveElems d lat fmt n f' := by
  have same : eachElem f n 0 s.cur.lfsr = eachElem f' n 0 s.cur.lfsr :=
    eachElem_congr (fun j _ hj => h j (by omega)) _
  simp only [State.giveElems, same]

/-! ## Elements of a source by row and column (R130) -/

/-- The element in a row and a column of a register under SHAPE, and zero outside it: what R135 moves in. -/
def State.gridElem (s : State) (v : VReg) (r c : Int) : Nat :=
  if 0 ≤ r ∧ r < shapeRows s.shape ∧ 0 ≤ c ∧ c < shapeCols s.shape
  then s.elem v (r.toNat * shapeCols s.shape + c.toNat) else 0

section
variable {s : State} {v : VReg} {k : Nat}

/-- The element that a move finds for a place of its result, zero where it finds none. -/
theorem elim_indexIn {n : Nat} {i : Int} {f : Nat → Nat} :
    (indexIn n i).elim 0 f = if 0 ≤ i ∧ i < n then f i.toNat else 0 := by
  unfold indexIn
  split <;> rfl

/-- In a column of SHAPE a row's index decides. -/
theorem State.gridElem_col {r : Int} {c : Nat} (hc : c < shapeCols s.shape) :
    s.gridElem v r c = ((indexIn (shapeRows s.shape) r).map (· * shapeCols s.shape + c)).elim 0 (s.elem v) := by
  rw [Option.elim_map, elim_indexIn]
  simp [State.gridElem, hc]

/-- In a row of SHAPE a column's index decides. -/
theorem State.gridElem_row {r : Nat} {c : Int} (hr : r < shapeRows s.shape) :
    s.gridElem v r c = ((indexIn (shapeCols s.shape) c).map (r * shapeCols s.shape + ·)).elim 0 (s.elem v) := by
  rw [Option.elim_map, elim_indexIn]
  simp [State.gridElem, hr]

/-- Within SHAPE the element is there. -/
theorem State.gridElem_mem {r c : Nat} (hr : r < shapeRows s.shape) (hc : c < shapeCols s.shape) :
    s.gridElem v r c = s.elem v (r * shapeCols s.shape + c) := by
  simp [State.gridElem, hr, hc]

/-- A shape with an element has a row and a column. -/
theorem shape_pos (hk : k < shapeN s.shape) : 0 < shapeRows s.shape ∧ 0 < shapeCols s.shape := by
  have product : shapeRows s.shape * shapeCols s.shape ≠ 0 := Nat.ne_of_gt (Nat.zero_lt_of_lt hk)
  obtain ⟨rows, cols⟩ := Nat.mul_ne_zero_iff.1 product
  exact ⟨Nat.pos_of_ne_zero rows, Nat.pos_of_ne_zero cols⟩

theorem div_shapeCols_lt (hk : k < shapeN s.shape) : k / shapeCols s.shape < shapeRows s.shape :=
  Nat.div_lt_of_lt_mul (Nat.mul_comm _ _ ▸ hk)

theorem div_shapeRows_lt (hk : k < shapeN s.shape) : k / shapeRows s.shape < shapeCols s.shape :=
  Nat.div_lt_of_lt_mul hk

end

/-! ## Ops that move elements (R135, R136) -/

/-- An op that moves elements gives, at each place of its result, the element that it finds for the place. -/
theorem GivesElems.of_moveElems {i : Instr} {g : Guard} {d a : BitVec 7} {lat : Nat} {src : State → Nat → Option Nat}
    {e : State → Nat → Nat} (he : ∀ s, exec i s = s.slotOp g i fun s => s.moveElems d a lat (src s))
    (hg : guardOfInstr i = g)
    (hsrc : ∀ s k, k < shapeN s.shape → (src s k).elim 0 (s.elem (readV s.regs a)) = e s k) :
    GivesElems i d lat (vecReady [d, a] isIF) (fun s => shapeFmt s.shape) (fun s => shapeN s.shape)
      fun s k _ => (e s k, 0) := by
  refine .of_body he hg fun s h => (State.vecOp_of_vecReady h).trans (State.giveElems_congr fun k hk => ?_)
  funext u
  rw [← hsrc s k hk]
  cases src s k <;> rfl

/-! ## The statement -/

/-- Settles O31: the bit ops cut to Sz, compares and fills act on each element, and each move finds its source's
element by row and column. -/
theorem vectorBitsAndMoves : Obligations.VectorBitsAndMoves := by
  refine ⟨fun g d a b c => ?elementwise, fun g d a i => ?moves⟩
  case elementwise =>
    and_intros <;> exact .of_body (fun _ => rfl) rfl fun _ h => State.vecOp_of_vecReady h
  case moves =>
    refine ⟨?vrowsh, ?vcolsh, ?vesh, ?vrot, ?vtrn⟩
    case vrowsh =>
      refine .of_moveElems (fun _ => rfl) rfl fun s k hk => ?_
      have hC := (shape_pos hk).2
      rw [if_neg (Nat.ne_of_gt hC)]
      exact (State.gridElem_col (Nat.mod_lt k hC)).symm
    case vcolsh =>
      refine .of_moveElems (fun _ => rfl) rfl fun s k hk => ?_
      rw [if_neg (Nat.ne_of_gt (shape_pos hk).2)]
      exact (State.gridElem_row (div_shapeCols_lt hk)).symm
    case vesh => exact .of_moveElems (fun _ => rfl) rfl fun s k _ => elim_indexIn
    case vrot =>
      refine .of_moveElems (fun _ => rfl) rfl fun s k hk => ?_
      obtain ⟨hR, hC⟩ := shape_pos hk
      rw [if_neg (Nat.ne_of_gt hC)]
      have rows : (shapeRows s.shape : Int) ≠ 0 := by omega
      obtain ⟨r, hr⟩ := Int.eq_ofNat_of_zero_le (Int.emod_nonneg ((k / shapeCols s.shape : Nat) - i.toInt) rows)
      have hrR : r < shapeRows s.shape := by
        have := Int.emod_lt_of_pos ((k / shapeCols s.shape : Nat) - i.toInt) (Int.natCast_pos.2 hR)
        omega
      rw [hr]
      exact (State.gridElem_mem hrR (Nat.mod_lt k hC)).symm
    case vtrn =>
      refine .of_moveElems (fun _ => rfl) rfl fun s k hk => ?_
      have hR := (shape_pos hk).1
      rw [if_neg (Nat.ne_of_gt hR)]
      exact (State.gridElem_mem (Nat.mod_lt k hR) (div_shapeRows_lt hk)).symm

end Sys2Proof.Machine
end

section
/-! SUPPORT. The statement on conversion, ternary packing, 2:4 compression and single elements (R137 to R141). -/

namespace Sys2Proof.Machine

/-- VCVT's targets are the assigned formats of classes I and F. -/
theorem fmtConv_eq (f : BitVec 6) : fmtConv f = (fmtAssigned f && isIF (fmtOf f)) := by
  decide +revert

/-- Class F is the floating formats. -/
theorem isF_iff {f : Fmt} : isF f = true ↔ ∃ h : FltFmt, f = .flt h := by
  cases f <;> simp [isF]

/-- VPACK3 and VUNP3 are accepted in INT8 and TERN with at most 1,024 elements (R138). -/
theorem vecReady.with_ternShape {s : State} {vs : List (BitVec 7)} (h : vecReady vs anyFmt s)
    (hf : shapeFmt s.shape = .int 8 true ∨ shapeFmt s.shape = .tern) (hn : shapeN s.shape ≤ 1024) :
    vecReady vs s.ternShape s :=
  h.with_formats (by simp [State.ternShape, hf, hn])

/-- Settles O32: with its own condition met each op is an accepted vector op whose body is the statement's, and without
it the op raises ILLENC. -/
theorem vectorConversions : Obligations.VectorConversions := by
  intro g d a e c o f
  refine ⟨fun assigned admitted => ?vcvt, fun notTarget => ?vcvtTarget, ?vpack3, ?vunp3, ?vcmpr, ?vcmprColumns,
    fun w sg => ?vgetInt, ?vgetFlt, ?vput, ?elementNumber⟩
  case vcvt =>
    refine .of_body (fun _ => rfl) rfl fun s h => ?_
    rw [if_neg (by simp [assigned, admitted])]
    exact State.vecOp_of_vecReady h
  case vcvtTarget =>
    rw [fmtConv_eq, Bool.and_eq_false_iff] at notTarget
    exact .of_body (fun _ => rfl) rfl fun s _ => if_pos (by simpa using notTarget)
  case vpack3 =>
    refine .of_body (fun _ => rfl) rfl fun s ⟨h, hf, hn⟩ =>
      (State.vecOp_of_vecReady (h.with_ternShape hf hn)).trans ?_
    simp only [flagIf, decide_eq_true_eq]
  case vunp3 =>
    refine .of_body (fun _ => rfl) rfl fun s ⟨h, hf, hn⟩ =>
      (State.vecOp_of_vecReady (h.with_ternShape hf hn)).trans ?_
    simp only [flagIf, decide_eq_true_eq]
  case vcmpr =>
    refine .of_body (fun _ => rfl) rfl fun s ⟨h, fours⟩ => ?_
    rw [if_neg (Classical.not_not.2 fours)]
    refine (State.vecOp_of_vecReady h).trans ?_
    simp only [List.flatMap_map, List.map_map, Function.comp_def]
  case vcmprColumns => exact .of_body (fun _ => rfl) rfl fun s other => if_pos other
  case vgetInt =>
    refine .of_body (fun _ => rfl) rfl fun s ⟨h, he, hf⟩ => ?_
    rw [if_neg (Nat.not_le.2 he)]
    refine (State.vecOp_of_vecReady h).trans ?_
    simp only [hf]
  case vgetFlt =>
    refine .of_body (fun _ => rfl) rfl fun s ⟨h, he⟩ => ?_
    obtain ⟨-, -, -, admitted⟩ := id h
    obtain ⟨f, hf⟩ := isF_iff.1 admitted
    rw [if_neg (Nat.not_le.2 he)]
    refine (State.vecOp_of_vecReady (h.with_formats (by simp [isIF, admitted]))).trans ?_
    simp only [hf]
  case vput =>
    refine .of_body (fun _ => rfl) rfl fun s ⟨h, he⟩ => ?_
    rw [if_neg (Nat.not_le.2 he)]
    exact State.vecOp_of_vecReady h
  case elementNumber =>
    refine List.forall_mem_cons.2 ⟨?_, List.forall_mem_singleton.2 ?_⟩ <;>
      exact .of_body (fun _ => rfl) rfl fun s beyond => if_pos beyond

end Sys2Proof.Machine
end

section
/-! SUPPORT. What the shared forms of the F slot and of the Q slot can do (R142 to R147), and the statement on both. -/

namespace Sys2Proof.Machine

/-! ## The F slot (R102, R142) -/

/-- An op of the F slot delivers the function of each element and occupies the slot, raises STRUCT 1 while the slot is
occupied, and raises ILLENC in a format outside class F. -/
theorem fnOp_delivers_or_raises {i : Instr} {g : Guard} {d : BitVec 7} {vs : List (BitVec 7)}
    {h : FltFmt → State → Nat → Nat × Flags}
    (he : ∀ s, exec i s = s.slotOp g i fun s => s.fnOp d vs fun f j => h f s j) (hg : guardOfInstr i = g) :
    (∀ f : FltFmt, Completes i
      (fun s => vecReady (d :: vs) isF s ∧ shapeFmt s.shape = .flt f ∧ s.regs.occF = 0) fun s =>
      let r := eachElem (fun j _ => h f s j) (shapeN s.shape) 0 0
      (s.setRegs { s.regs with occF := 4 }).deliverV d (packed (.flt f) r.1) 12 r.2 none) ∧
    Raises i (fun s => vecReady (d :: vs) isF s ∧ s.regs.occF ≠ 0) cSTRUCT (fun s => s.opInfo 1) ∧
    Raises i (fun s => isF (shapeFmt s.shape) = false) cILLENC opWord := by
  refine ⟨fun f => ?free, ?occupied, ?format⟩
  case free =>
    refine .of_body he hg fun s ⟨ready, hf, free⟩ => (State.vecOp_of_vecReady ready).trans ?_
    simp only [free, ne_eq, not_true_eq_false, if_false, hf]
  case occupied =>
    exact .of_body he hg fun s ⟨ready, occupied⟩ => (State.vecOp_of_vecReady ready).trans (if_pos occupied)
  case format => exact .of_body he hg fun s other => State.vecOp_of_format other

/-! ## Reductions into a latch (R144, R145) -/

/-- A latch takes `m` results of a kind: it is empty, or it holds as many of that kind (R144). -/
def State.latchTakes (s : State) (n m : Nat) (fp : Bool) : Prop :=
  Map.get 0 s.regs.qcount n ≠ 0 → Map.get 0 s.regs.qcount n = m ∧ s.regs.qkind.getLsbD n = fp

/-- QADD, QMAX and QMIN refuse a latch exactly when it does not take the results. -/
theorem State.not_latchTakes_iff {s : State} {n m : Nat} {fp : Bool} :
    ¬ s.latchTakes n m fp ↔
      Map.get 0 s.regs.qcount n ≠ 0 ∧ (Map.get 0 s.regs.qcount n ≠ m ∨ s.regs.qkind.getLsbD n ≠ fp) := by
  rw [State.latchTakes, Classical.not_imp, Classical.not_and_iff_not_or_not]

/-- A reduction combines the tree of each group with what the latch held, raises STRUCT 6 on a latch that does not take
its results, and raises ILLENC on axis 3 and on too many groups. -/
theorem accumulate_delivers_or_raises {i : Instr} {g : Guard} {q x : BitVec 2} {a : BitVec 7}
    {op : QVal → QVal → QVal × Flags}
    (he : ∀ s, exec i s = s.slotOp g i fun s => s.accumulate q a x op) (hg : guardOfInstr i = g) :
    let fits := fun s : State => x ≠ 3 ∧ (qGroups s.shape x).length ≤ 256 ∧ vecReady [a] isIF s
    let takes := fun s : State => s.latchTakes q.toNat (qGroups s.shape x).length (isF (shapeFmt s.shape))
    Completes i (fun s => fits s ∧ takes s) (fun s =>
      let rs := (s.qInputs a x).1.mapIdx fun j l =>
        let t := qTree op 16 l
        let r := op (QVal.read (isF (shapeFmt s.shape)) (elemAt (.int 32 true) (s.latch q.toNat).toNat j)) t.1
        if Map.get 0 s.regs.qcount q.toNat = 0 then (t.1.bits, t.2) else (r.1.bits, t.2 ||| r.2)
      (s.setLatch q.toNat (qGroups s.shape x).length (isF (shapeFmt s.shape))).writeLatch q.toNat
        (BitVec.ofNat 8192 (packBits 32 (rs.map (·.1)))) 6 ((s.qInputs a x).2 ||| orFlags (rs.map (·.2)))) ∧
    Raises i (fun s => fits s ∧ ¬ takes s) cSTRUCT (fun s => s.opInfo 6) ∧
    Raises i (fun s => x = 3 ∨ 256 < (qGroups s.shape x).length) cILLENC opWord := by
  have accepted {s : State} (hx : x ≠ 3) (hm : (qGroups s.shape x).length ≤ 256) :
      ¬ (x = 3 ∨ 256 < (qGroups s.shape x).length) := not_or.2 ⟨hx, Nat.not_lt.2 hm⟩
  refine ⟨?completes, ?latch, ?axis⟩
  case completes =>
    refine .of_body he hg fun s ⟨⟨hx, hm, ready⟩, takes⟩ => ?_
    rw [State.accumulate, if_neg (accepted hx hm)]
    refine (State.vecOp_of_vecReady ready).trans ((if_neg ?_).trans rfl)
    exact fun refused => State.not_latchTakes_iff.2 refused takes
  case latch =>
    refine .of_body he hg fun s ⟨⟨hx, hm, ready⟩, other⟩ => ?_
    rw [State.accumulate, if_neg (accepted hx hm)]
    exact (State.vecOp_of_vecReady ready).trans (if_pos (State.not_latchTakes_iff.1 other))
  case axis => exact .of_body he hg fun s refused => if_pos refused

/-! ## Running sums (R146) -/

/-- The `j`-th running value of a group is the sum of its first elements, in order. -/
theorem fst_qPrefixes (y : QVal) (t : List QVal) :
    (qPrefixes y t).1 = t.mapIdx fun j _ => (t.take (j + 1)).foldl (fun acc z => (qSum acc z).1) y := by
  induction t generalizing y with
  | nil => rfl
  | cons x t ih => simp [qPrefixes, ih]

/-- What QSCAN makes of a group, with the flags of its sums. -/
def scanGroup : List QVal → List QVal × Flags
  | [] => ([], 0)
  | y :: t => (y :: (qPrefixes y t).1, (qPrefixes y t).2)

theorem fst_scanGroup (l : List QVal) :
    (scanGroup l).1 = l.mapIdx fun j _ =>
      (l.take (j + 1)).tail.foldl (fun acc z => (qSum acc z).1) (l.headD (.int 0)) := by
  cases l with
  | nil => rfl
  | cons y t => simp [scanGroup, fst_qPrefixes]

/-- An accepted scan delivers the running sums of every group. -/
theorem qscan_completes {g : Guard} {q x : BitVec 2} {a : BitVec 7} :
    Completes (.qscan g q a x) (fun s => x ≠ 3 ∧ shapeN s.shape ≤ 256 ∧ vecReady [a] isIF s) fun s =>
      let rs := (s.qInputs a x).1.map scanGroup
      (s.setLatch q.toNat (shapeN s.shape) (isF (shapeFmt s.shape))).writeLatch q.toNat
        (BitVec.ofNat 8192 (packBits 32 ((rs.flatMap (·.1)).map QVal.bits))) 6
        ((s.qInputs a x).2 ||| orFlags (rs.map (·.2))) :=
  .of_body (fun _ => rfl) rfl fun _ ⟨hx, hn, ready⟩ =>
    (if_neg (not_or.2 ⟨hx, Nat.not_lt.2 hn⟩)).trans (State.vecOp_of_vecReady ready)

/-! ## The statement -/

/-- Settles O33: the F ops are one form, the reductions another, and a scan of a group is its running sums. -/
theorem functionsAndLatches : Obligations.FunctionsAndLatches := by
  refine ⟨fun g d a b => ?functions, fun g q d a x => ?latches⟩
  case functions =>
    refine ⟨?_, ?_, ?_, ?_, ?_, ?_, ?_, ?_, ?_, ?_⟩ <;> exact fnOp_delivers_or_raises (fun _ => rfl) rfl
  case latches =>
    refine ⟨?qadd, ?qmax, ?qmin, ?qscan, ?qscanAxis, ?qmov, ?qclr⟩
    case qadd => exact accumulate_delivers_or_raises (fun _ => rfl) rfl
    case qmax => exact accumulate_delivers_or_raises (fun _ => rfl) rfl
    case qmin => exact accumulate_delivers_or_raises (fun _ => rfl) rfl
    case qscan =>
      intro s runs hx hn ready
      refine ⟨_, _, qscan_completes s runs ⟨hx, hn, ready⟩, ?_⟩
      simp only [List.flatMap_map, fst_scanGroup]
    case qscanAxis => exact .of_body (fun _ => rfl) rfl fun s refused => if_pos refused
    case qmov => exact .of_body (fun _ => rfl) rfl fun s h => State.vecOp_of_vecReady h
    case qclr => exact .of_body (fun _ => rfl) rfl fun s h => State.vecOp_of_vecReady h

end Sys2Proof.Machine
end

section
/-! SUPPORT. The statement that vector ops are refused in ctxS, in handler mode and beyond the window (R93, R124, R128,
R339, R353). -/

namespace Sys2Proof.Machine

/-- The op raises ILLENC in ctxS and with a register outside the window, and PRIV in handler mode where its registers,
its format and what more it asks for are admitted. -/
def Refused (i : Instr) (vs : List (BitVec 7)) (ok : Fmt → Bool) (more : State → Prop) : Prop :=
  Raises i (fun s => s.isS = true ∨ ∃ v ∈ vs, s.inVectors v = false) cILLENC opWord ∧
  Raises i (fun s => s.isS = false ∧ (∀ v ∈ vs, s.inVectors v = true) ∧ ok (shapeFmt s.shape) = true ∧ more s ∧
    s.me.h = true) cPRIV opWord

section
variable {i : Instr} {g : Guard} {vs : List (BitVec 7)} {ok : Fmt → Bool} {more : State → Prop}

/-- An op whose body is a vector op is refused as one; what more it asks for may stand in the formats that it admits. -/
theorem Refused.of_vecOp {ok' : State → Fmt → Bool} {f : State → State → OpRes}
    (he : ∀ s, exec i s = s.slotOp g i fun s => s.vecOp vs (ok' s) (f s)) (hg : guardOfInstr i = g)
    (hok : ∀ s, ok (shapeFmt s.shape) = true → more s → ok' s (shapeFmt s.shape) = true) : Refused i vs ok more :=
  ⟨.of_body he hg fun _ outside => State.vecOp_of_outside outside,
    .of_body he hg fun s ⟨notS, inWindow, admitted, asked, handler⟩ =>
      State.vecOp_of_handler notS inWindow (hok s admitted asked) handler⟩

/-- A vector op that asks for nothing more. -/
theorem Refused.of_plain {f : State → State → OpRes} (he : ∀ s, exec i s = s.slotOp g i fun s => s.vecOp vs ok (f s))
    (hg : guardOfInstr i = g) : Refused i vs ok always :=
  .of_vecOp he hg fun _ admitted _ => admitted

/-- An op of the F slot: STRUCT comes after PRIV. -/
theorem Refused.of_fnOp {d : BitVec 7} {h : State → FltFmt → Nat → Nat × Flags}
    (he : ∀ s, exec i s = s.slotOp g i fun s => s.fnOp d vs (h s)) (hg : guardOfInstr i = g) :
    Refused i (d :: vs) isF always :=
  .of_plain he hg

/-- VPACK3 and VUNP3: INT8 or TERN, and at most 1,024 elements. -/
theorem Refused.of_ternShape {f : State → State → OpRes}
    (he : ∀ s, exec i s = s.slotOp g i fun s => s.vecOp vs s.ternShape (f s)) (hg : guardOfInstr i = g) :
    Refused i vs (fun f => decide (f = .int 8 true) || decide (f = .tern)) fun s => shapeN s.shape ≤ 1024 :=
  .of_vecOp he hg fun _ admitted small => Bool.and_eq_true_iff.2 ⟨admitted, decide_eq_true small⟩

/-- An op that raises ILLENC where what more it asks for does not hold, and is a vector op where it does, is refused as
a vector op: either way ILLENC comes first. -/
theorem Refused.of_checked {bad : State → Prop} [∀ s, Decidable (bad s)] {f : State → State → OpRes}
    (he : ∀ s, exec i s = s.slotOp g i fun s => if bad s then s.illenc else s.vecOp vs ok (f s))
    (hg : guardOfInstr i = g) (hmore : ∀ s, more s → ¬ bad s) : Refused i vs ok more := by
  refine ⟨.of_body he hg fun s outside => ?_,
    .of_body he hg fun s ⟨notS, inWindow, admitted, asked, handler⟩ =>
      (if_neg (hmore s asked)).trans (State.vecOp_of_handler notS inWindow admitted handler)⟩
  rw [State.vecOp_of_outside outside, ite_self]
  rfl

end

/-- Settles O34: each op is a vector op, after its own condition where it has one. -/
theorem vectorOpsRefused : Obligations.VectorOpsRefused := by
  intro g d a b c i e o t q x
  refine ⟨?arithmetic, ?integers, ?bits, ?vmov, ?moves, ?vneg, ?vcvt, ?ternary, ?vcmpr, ?vscl, ?vget, ?vput, ?functions,
    ?fdiv, ?fills, ?reductions, ?qscan, ?qmov, ?qclr⟩
  case arithmetic =>
    intro j hj
    simp only [List.mem_cons, List.not_mem_nil, or_false] at hj
    rcases hj with rfl | rfl | rfl | rfl | rfl | rfl | rfl | rfl | rfl | rfl <;>
      exact Refused.of_plain (fun _ => rfl) rfl
  case integers =>
    intro j hj
    simp only [List.mem_cons, List.not_mem_nil, or_false] at hj
    rcases hj with rfl | rfl | rfl | rfl | rfl | rfl | rfl <;> exact Refused.of_plain (fun _ => rfl) rfl
  case bits =>
    intro j hj
    simp only [List.mem_cons, List.not_mem_nil, or_false] at hj
    rcases hj with rfl | rfl | rfl | rfl <;> exact Refused.of_plain (fun _ => rfl) rfl
  case moves =>
    intro j hj
    simp only [List.mem_cons, List.not_mem_nil, or_false] at hj
    rcases hj with rfl | rfl | rfl | rfl | rfl | rfl <;> exact Refused.of_plain (fun _ => rfl) rfl
  case functions =>
    intro j hj
    simp only [List.mem_cons, List.not_mem_nil, or_false] at hj
    rcases hj with rfl | rfl | rfl | rfl | rfl | rfl | rfl | rfl | rfl <;> exact Refused.of_fnOp (fun _ => rfl) rfl
  case fills =>
    intro j hj
    simp only [List.mem_cons, List.not_mem_nil, or_false] at hj
    rcases hj with rfl | rfl <;> exact Refused.of_plain (fun _ => rfl) rfl
  case vmov => exact Refused.of_plain (fun _ => rfl) rfl
  case vneg =>
    exact Refused.of_vecOp (fun _ => rfl) rfl fun s admitted signed => by simp [admitted, signed]
  case ternary =>
    intro j hj
    simp only [List.mem_cons, List.not_mem_nil, or_false] at hj
    rcases hj with rfl | rfl <;> exact Refused.of_ternShape (fun _ => rfl) rfl
  case vcvt =>
    exact Refused.of_checked (fun _ => rfl) rfl fun s ⟨assigned, target⟩ => by simp [assigned, target]
  case vcmpr => exact Refused.of_checked (fun _ => rfl) rfl fun s fours => Classical.not_not.2 fours
  case vscl => exact Refused.of_plain (fun _ => rfl) rfl
  case vget => exact Refused.of_checked (fun _ => rfl) rfl fun s => Nat.not_le.2
  case vput => exact Refused.of_checked (fun _ => rfl) rfl fun s => Nat.not_le.2
  case fdiv => exact Refused.of_fnOp (fun _ => rfl) rfl
  case reductions =>
    intro j hj
    simp only [List.mem_cons, List.not_mem_nil, or_false] at hj
    rcases hj with rfl | rfl | rfl <;>
      exact Refused.of_checked (fun _ => rfl) rfl fun s ⟨hx, hm⟩ => not_or.2 ⟨hx, Nat.not_lt.2 hm⟩
  case qscan =>
    exact Refused.of_checked (fun _ => rfl) rfl fun s ⟨hx, hn⟩ => not_or.2 ⟨hx, Nat.not_lt.2 hn⟩
  case qmov => exact Refused.of_plain (fun _ => rfl) rfl
  case qclr => exact Refused.of_plain (fun _ => rfl) rfl

end Sys2Proof.Machine
end

section
/-! SUPPORT. The forms that the ops of the P slot share: ops of the plane's holder and ops that acquire the plane (R163 to
R166), what replacing a core's plane leaves alone, and the moves of a plane (R153, R154, R174). -/

namespace Sys2Proof.Machine

/-- An op that runs goes on as its body answers in that state. -/
theorem exec_of_answer {i : Instr} {g : Guard} {body : State → OpRes} {s : State} {r : OpRes}
    (he : ∀ s, exec i s = s.slotOp g i body) (hg : guardOfInstr i = g) (runs : s.opRuns i = true) (answer : body s = r) :
    exec i s = .next (s.afterOp i r) := by
  rw [he, State.slotOp_of_runs hg runs, answer]

/-! ## Ops of the holder (R163) -/

section
variable {s : State} {f : State → OpRes}

theorem State.planeOp_of_inS (h : s.isS = true) : s.planeOp f = s.illenc := if_pos h

theorem State.planeOp_of_notS (h : s.isS = false) : s.planeOp f = f s := if_neg (by simp [h])

theorem State.heldPlane_of_holder (notS : s.isS = false) (holds : s.holdsPlane = true) : s.heldPlane f = f s :=
  (State.planeOp_of_notS notS).trans (if_pos holds)

theorem State.heldPlane_of_other (notS : s.isS = false) (other : s.holdsPlane = false) : s.heldPlane f = s.planef 1 :=
  (State.planeOp_of_notS notS).trans (if_neg (by simp [other]))

end

/-! ## Acquiring the plane (R163, R164, R166) -/

/-- The context may acquire the plane: it is no service context, it does not hold the plane, and it is a regrow context
where slices run (R164). -/
def State.mayAcquire (s : State) : Prop :=
  s.isS = false ∧ s.holdsPlane = false ∧ (s.myCore.depth = 0 ∨ s.isRegrow = true)

section
variable {s : State} {fp : Bool} {check : State → Option OpRes} {f : State → OpRes}

theorem State.acquirePlane_of_holder (notS : s.isS = false) (holds : s.holdsPlane = true) :
    s.acquirePlane fp check f = s.planef 2 :=
  (State.planeOp_of_notS notS).trans (if_pos holds)

theorem State.acquirePlane_of_depth (notS : s.isS = false) (other : s.holdsPlane = false)
    (deep : s.myCore.depth ≠ 0) (noRegrow : s.isRegrow = false) : s.acquirePlane fp check f = s.planef 10 := by
  refine (State.planeOp_of_notS notS).trans ?_
  rw [if_neg (by simp [other]), if_pos (by simpa [noRegrow] using deep)]

/-- Where the context may acquire the plane, the op's own check comes first. -/
theorem State.acquirePlane_of_refused {r : OpRes} (may : s.mayAcquire) (refused : check s = some r) :
    s.acquirePlane fp check f = r := by
  obtain ⟨notS, other, depth⟩ := may
  refine (State.planeOp_of_notS notS).trans ?_
  rcases depth with shallow | regrow
  · simp [other, shallow, refused]
  · simp [other, regrow, refused]

/-- Past its check the op blocks while the plane is taken, and goes on with the fresh plane where it is free. -/
theorem State.acquirePlane_of_checked (may : s.mayAcquire) (passed : check s = none) :
    s.acquirePlane fp check f =
      if s.planeTaken then s.blockOn condPlane else f (s.setPlane { fp := fp, holder := some s.cur.ctx }) := by
  obtain ⟨notS, other, depth⟩ := may
  refine (State.planeOp_of_notS notS).trans ?_
  rcases depth with shallow | regrow
  · simp [other, shallow, passed]
  · simp [other, regrow, passed]

end

/-! ## Replacing the plane -/

/-- A value inserted at a key is lost when another is inserted there. -/
theorem Map.ins_ins {α : Type} (m : Map α) (k : Nat) (v w : α) : Map.ins (Map.ins m k v) k w = Map.ins m k w := by
  induction m with
  | nil => simp [Map.ins]
  | cons p t ih =>
    obtain ⟨j, x⟩ := p
    rcases Nat.lt_trichotomy j k with below | rfl | above
    · simp [Map.ins, below, ih]
    · simp [Map.ins]
    · simp [Map.ins, Nat.not_lt_of_gt above, Nat.ne_of_gt above]

/-- Of two writes to a key, neither of the value that unlisted keys read as, the second stands. -/
theorem Map.put_put {α : Type} [DecidableEq α] {d v w : α} (m : Map α) (k : Nat) (hv : v ≠ d) (hw : w ≠ d) :
    Map.put d (Map.put d m k v) k w = Map.put d m k w := by
  simp [Map.put, hv, hw, Map.ins_ins]

/-- A core whose plane is held is not as at reset. -/
theorem Core.ne_default_of_holder {k : Core} (h : k.plane.holder ≠ none) : k ≠ {} := by
  rintro rfl
  exact h rfl

@[simp] theorem State.myCore_setPlane (s : State) (p : Plane) : (s.setPlane p).myCore = { s.myCore with plane := p } :=
  State.myCore_setMyCore ..

/-- Of two held planes set one after the other, the second stands. -/
theorem State.setPlane_setPlane (s : State) {p q : Plane} (hp : p.holder ≠ none) (hq : q.holder ≠ none) :
    (s.setPlane p).setPlane q = s.setPlane q := by
  rw [State.setPlane, State.myCore_setPlane]
  simp only [State.setPlane, State.setMyCore, State.setCore]
  rw [Map.put_put _ _ (Core.ne_default_of_holder hp) (Core.ne_default_of_holder hq)]

/-- The pools, and so what a tile holds, are not the plane's. -/
theorem State.viewTile_setPlane (s : State) (p : Plane) (d : Dword) : (s.setPlane p).viewTile d = s.viewTile d := by
  have spans (n lo len : Nat) : ((s.setPlane p).core n).poolSpan lo len = (s.core n).poolSpan lo len := by
    rw [State.setPlane, State.setMyCore, State.core_setCore]
    split
    · next own => rw [own]; rfl
    · rfl
  have owner : (s.setPlane p).tileCore d = s.tileCore d := rfl
  simp only [State.viewTile, owner, spans]

/-! ## Moves (R153, R154, R174) -/

section
variable {p : Plane} {my mx : Int} {w : Nat}

/-- Every lane that is not zero stays in the extent. -/
def Plane.stays (p : Plane) (my mx : Int) : Prop :=
  ∀ c ∈ p.cells, p.nonZero c.2 = true → ¬ inExtent (keyRow c.1 + my) (keyCol c.1 + mx) = false

/-- The displacement stays in its range. -/
def Plane.inRange (p : Plane) (my mx : Int) : Prop :=
  -128 ≤ p.dy + my ∧ p.dy + my ≤ 127 ∧ -128 ≤ p.dx + mx ∧ p.dx + mx ≤ 127

/-- A move finds no lane that leaves. -/
theorem Plane.stays.find?_eq_none (h : p.stays my mx) :
    (p.cells.find? fun c => p.nonZero c.2 && !inExtent (keyRow c.1 + my) (keyCol c.1 + mx)) = none :=
  List.find?_eq_none.2 fun c hc => by simpa using h c hc

theorem Plane.move_of_stays (stay : p.stays my mx) (range : p.inRange my mx) :
    p.move my mx w = .ok { p with
      cells := (p.cells.filter fun c => inExtent (keyRow c.1 + my) (keyCol c.1 + mx)).map fun c =>
        (cellKey (keyRow c.1 + my) (keyCol c.1 + mx) (keyLane c.1), c.2),
      dy := p.dy + my, dx := p.dx + mx, walk := w } := by
  obtain ⟨hy, hy', hx, hx'⟩ := range
  simp only [Plane.move, stay.find?_eq_none, Bool.not_not]
  exact if_neg (by omega)

theorem Plane.move_of_outOfRange (stay : p.stays my mx) (out : ¬ p.inRange my mx) : p.move my mx w = .error (4, 0) := by
  simp only [Plane.move, stay.find?_eq_none]
  exact if_pos (by rw [Plane.inRange] at out; omega)

theorem Plane.move_of_leaves (h : ∃ c ∈ p.cells, p.nonZero c.2 = true ∧
    inExtent (keyRow c.1 + my) (keyCol c.1 + mx) = false) : ∃ lane, p.move my mx w = .error (3, lane) := by
  obtain ⟨c, hc, live, out⟩ := h
  have found : (p.cells.find? fun c =>
      p.nonZero c.2 && !inExtent (keyRow c.1 + my) (keyCol c.1 + mx)).isSome = true :=
    List.find?_isSome.2 ⟨c, hc, by simp [live, out]⟩
  obtain ⟨first, hfirst⟩ := Option.isSome_iff_exists.1 found
  exact ⟨first.1, by simp only [Plane.move, hfirst]⟩

end

/-- PLANEF of a displacement out of range names no lane. -/
theorem State.moveFault_range (s : State) : s.moveFault (4, 0) = s.planef 4 := by
  simp [State.moveFault, State.planef]

/-- A number put in above the sub-reason of TRAPINFO leaves the sub-reason. -/
theorem subReason_of_above {low above n : Nat} (hl : low < 2 ^ 36) (hn : n < 16) :
    ((low + n * 2 ^ 36) % 2 ^ 64 + above * 2 ^ 40 % 2 ^ 64) % 2 ^ 64 / 2 ^ 36 % 16 = n := by
  omega

/-- PLANEF of a lane that would leave has sub-reason 3: the lane's place stands above the sub-reason. -/
theorem State.moveFault_leaves (s : State) (lane : Nat) (slot : s.cur.slot < 11) :
    ∃ info, s.moveFault (3, lane) = .trap cPLANEF info ∧ info.toNat / 2 ^ 36 % 16 = 3 := by
  refine ⟨_, rfl, ?_⟩
  have word := s.cur.word.isLt
  have place : lane / 512 * 2 ^ 40 + lane / 16 % 32 * 2 ^ 45 + lane % 16 * 2 ^ 50 =
      (lane / 512 + lane / 16 % 32 * 2 ^ 5 + lane % 16 * 2 ^ 10) * 2 ^ 40 := by omega
  rw [if_pos rfl, place, State.opInfo, BitVec.toNat_add, BitVec.toNat_ofNat, BitVec.toNat_ofNat]
  exact subReason_of_above (by omega) (by omega)

end Sys2Proof.Machine
end

section
/-! SUPPORT. The statement on PACQ, PREL, PWIN, PFSET, PLOAD and PRET (R163 to R169, R172, R173). -/

namespace Sys2Proof.Machine

/-! ## Feed programs (R169) -/

/-- A feed program's position and its first increments are the low 36 and the next 24 bits of the source. -/
theorem feed_fields (x b : Dword) :
    (⟨(x.extractLsb' 0 36).setWidth 52, x.extractLsb' 36 24, b⟩ : Feed) =
      ⟨BitVec.ofNat 52 (x.toNat % 2 ^ 36), BitVec.ofNat 24 (x.toNat / 2 ^ 36), b⟩ := by
  congr 1 <;> apply BitVec.eq_of_toNat_eq <;>
    simp only [BitVec.toNat_setWidth, BitVec.extractLsb'_toNat, BitVec.toNat_ofNat, Nat.shiftRight_eq_div_pow,
      Nat.pow_zero, Nat.div_one]

/-! ## PLOAD (R167) -/

/-- PLOAD refuses a tile exactly when it does not fit the plane or its format is not the accumulator's. -/
theorem loadRefused_iff {d : Dword} {husk : Bool} {want : Fmt} :
    (!planeTileOk d husk || decide (descFmt d ≠ want)) = true ↔ ¬ (planeTileOk d husk = true ∧ descFmt d = want) := by
  cases planeTileOk d husk <;> simp

/-! ## PRET (R172) -/

/-- The contexts of its core and the issuing context alone decide the registers. -/
theorem State.regs_congr {s u : State} (hcur : u.cur = s.cur) (hctxs : u.myCore.ctxs = s.myCore.ctxs) :
    u.regs = s.regs := by
  change ((Map.get {} u.myCore.ctxs u.cur.ctx).regs) = (Map.get {} s.myCore.ctxs s.cur.ctx).regs
  rw [hcur, hctxs]

/-- A tile that fits the plane is local. -/
theorem planeTileOk.near {d : Dword} {husk : Bool} (fits : planeTileOk d husk = true) : descRemote d = false := by
  simp only [planeTileOk, Bool.and_eq_true, Bool.not_eq_true'] at fits
  exact fits.1.2

theorem State.pendTile_of_near {s : State} {key reg : Nat} {d : Dword} {write : Bool} (near : descRemote d = false) :
    s.pendTile key reg d write = s.addScore ⟨key, (footprint d).1, (footprint d).2, write, s.cur.ctx, reg⟩ :=
  if_neg (by simp [near])

/-- The scale of PRET: the product of the two FP32 halves of the source, rounded, with its flags; none for s0. -/
def State.retireScale (s : State) (a : BitVec 6) : Option (Nat × Flags) :=
  if a = 0 then none
  else
    let v := Val.mul (fp32.read ((s.srcA a).toNat % 2 ^ 32)) (fp32.read ((s.srcA a).toNat / 2 ^ 32))
    some ((rneFp32 v.1).1, v.2 ||| (rneFp32 v.1).2)

theorem State.map_retireScale (s : State) (a : BitVec 6) (f : Nat → Val) :
    (s.retireScale a).map (fun y => f y.1) =
      (if a = 0 then none
        else some (rneFp32 (Val.mul (fp32.read ((s.srcA a).toNat % 2 ^ 32))
          (fp32.read ((s.srcA a).toNat / 2 ^ 32))).1).1).map f := by
  unfold State.retireScale
  split <;> rfl

/-- The elements that PRET forms for a tile whose first cell is (off, off), with their flags. -/
def State.retired (s : State) (d : Dword) (off : Int) (a : BitVec 6) (ovf : Bool) : List Nat × Flags :=
  let p := s.myCore.plane
  eachElem (fun i u =>
      retireElem p.fp ((s.retireScale a).map fun y => fp32.read y.1) (descFmt d) (descCode d) ovf s.rmodeNow u
        (p.acc ((i / descD0 d / descD1 d : Nat) + off + p.dy) ((i / descD0 d % descD1 d : Nat) + off + p.dx)
          (i % descD0 d)))
    (descD2 d * descD1 d * descD0 d) 0 s.cur.lfsr

/-- The retirement that PRET begins: the bytes of the elements wait to be written, and the flags of the elements and of
the scale, with SAT where a step has clamped, are to join FFLAGS. -/
def State.retirement (s : State) (t : BitVec 5) (h : BitVec 1) (a : BitVec 6) (o : BitVec 1) : Retire :=
  let d := (s.tile t.toNat).desc
  let xs := s.retired d (if h = 1 then -8 else 0) a (decide (o = 1))
  let scaleFlags := match s.retireScale a with
    | some y => y.2
    | none => 0
  { key := s.myCore.nextKey, ctx := s.cur.ctx, reg := t.toNat, off := descOff d,
    bytes := leBytes (descData d) (packElems (descFmt d) xs.1),
    flags := xs.2 ||| scaleFlags ||| flagIf s.myCore.plane.sat flagSAT,
    todo := [(0, descData d)].filter fun r => decide (r.2 ≠ 0) }

/-- A retirement begins: its tile is pending, the plane is released, and its bytes wait to be written. -/
def State.startRetire (s : State) (reg : Nat) (d : Dword) (q : Retire) : State :=
  let u := (s.newKey.1.addScore ⟨s.newKey.2, (footprint d).1, (footprint d).2, true, s.cur.ctx, reg⟩).releasePlane
  (u.setMyCore { u.myCore with retires := u.myCore.retires ++ [q] }).post (.tileWriteComplete s.cur.core q.key)

section
variable {s : State} {reg : Nat} {d : Dword} {q : Retire}

theorem State.startRetire_myCore :
    (s.startRetire reg d q).myCore = { s.myCore.freePlane with
      nextKey := s.myCore.nextKey + 1
      score := s.myCore.score ++ [⟨s.myCore.nextKey, (footprint d).1, (footprint d).2, true, s.cur.ctx, reg⟩]
      retires := s.myCore.retires ++ [q] } := by
  refine (State.myCore_setMyCore ..).trans ?_
  simp [State.newKey, State.addScore, State.releasePlane, Core.freePlane, Core.planeWaiters]

theorem State.startRetire_regs : (s.startRetire reg d q).regs = s.regs :=
  State.regs_congr rfl (by rw [State.startRetire_myCore]; rfl)

end

/-- PRET by the holder into a free local tile that fits the plane begins the retirement of the elements that it
forms. -/
theorem pret_completes {g : Guard} {t : BitVec 5} {h o : BitVec 1} {a : BitVec 6} :
    Completes (.pret g t h a o)
      (fun s => s.isS = false ∧ s.holdsPlane = true ∧ planeTileOk (s.tile t.toNat).desc (decide (h = 1)) = true ∧
        descFmt (s.tile t.toNat).desc ≠ .tern ∧ s.tileWaits t.toNat true = false)
      (fun s => s.startRetire t.toNat (s.tile t.toNat).desc (s.retirement t h a o)) := by
  refine .of_body (fun _ => rfl) rfl fun s ⟨notS, holds, fits, notTern, idle⟩ =>
    (State.heldPlane_of_holder notS holds).trans ((if_neg ?_).trans ((if_neg ?_).trans ?_))
  · rw [fits]; simp [notTern]
  · simp [idle]
  · simp only [State.pendTile_of_near (planeTileOk.near fits), decide_eq_true_eq]
    rfl

/-- Settles O26: PACQ and PLOAD acquire the plane, the other ops are the holder's or the context's own, and what PRET
leaves is one retirement that has begun. -/
theorem planeInAndOut : Obligations.PlaneInAndOut := by
  refine ⟨fun g c a b f => ?ops, fun g t h c o a => ?tiles⟩
  case ops =>
    refine ⟨?pacq, ?pacqTaken, ?pacqHolder, ?pacqDepth, ?prel, ?prelOther, ?pwin, ?pwinWide, ?pfset, ?pfsetWide, ?service⟩
    case pacq =>
      exact .of_body (fun _ => rfl) rfl fun s ⟨may, free⟩ =>
        (State.acquirePlane_of_checked may rfl).trans (if_neg (by simp [free]))
    case pacqTaken =>
      exact .of_body (fun _ => rfl) rfl fun s ⟨may, taken⟩ =>
        (State.acquirePlane_of_checked may rfl).trans (if_pos taken)
    case pacqHolder => exact .of_body (fun _ => rfl) rfl fun s ⟨notS, holds⟩ => State.acquirePlane_of_holder notS holds
    case pacqDepth =>
      exact .of_body (fun _ => rfl) rfl fun s ⟨notS, other, deep, noRegrow⟩ =>
        State.acquirePlane_of_depth notS other deep noRegrow
    case prel => exact .of_body (fun _ => rfl) rfl fun s ⟨notS, holds⟩ => State.heldPlane_of_holder notS holds
    case prelOther => exact .of_body (fun _ => rfl) rfl fun s ⟨notS, other⟩ => State.heldPlane_of_other notS other
    case pwin =>
      exact .of_body (fun _ => rfl) rfl fun s ⟨notS, narrow⟩ =>
        (State.planeOp_of_notS notS).trans (if_neg (Nat.not_le.2 narrow))
    case pwinWide =>
      exact .of_body (fun _ => rfl) rfl fun s ⟨notS, wide⟩ => (State.planeOp_of_notS notS).trans (if_pos wide)
    case pfset =>
      refine .of_body (fun _ => rfl) rfl fun s ⟨notS, narrow⟩ =>
        ((State.planeOp_of_notS notS).trans (if_neg (Nat.not_le.2 narrow))).trans ?_
      rw [feed_fields]
    case pfsetWide =>
      exact .of_body (fun _ => rfl) rfl fun s ⟨notS, wide⟩ => (State.planeOp_of_notS notS).trans (if_pos wide)
    case service =>
      intro i hi
      simp only [List.mem_cons, List.not_mem_nil, or_false] at hi
      rcases hi with rfl | rfl | rfl | rfl <;>
        exact .of_body (fun _ => rfl) rfl fun s inS => State.planeOp_of_inS inS
  case tiles =>
    refine ⟨?pload, ?ploadTaken, ?ploadUnfit, ?pret, ?pretUnfit⟩
    case pload =>
      refine .of_body (fun _ => rfl) rfl fun s ⟨⟨may, fits, fmt⟩, free, idle, sound, clean⟩ =>
        ((State.acquirePlane_of_checked may ?_).trans (if_neg (by simp [free]))).trans ?_
      · simp only [decide_eq_true_eq]
        rw [if_neg (fun refused => loadRefused_iff.1 refused ⟨fits, fmt⟩), if_neg (by simp [free]), if_neg (by simp [idle]),
          if_neg (Classical.not_not.2 sound), clean]
      · simp only [State.myCore_setPlane, State.viewTile_setPlane, decide_eq_true_eq]
        rw [State.setPlane_setPlane s (by simp) (by simp)]
    case ploadTaken =>
      refine .of_body (fun _ => rfl) rfl fun s ⟨⟨may, fits, fmt⟩, taken⟩ =>
        (State.acquirePlane_of_checked may ?_).trans (if_pos taken)
      simp only [decide_eq_true_eq]
      rw [if_neg (fun refused => loadRefused_iff.1 refused ⟨fits, fmt⟩), if_pos taken]
    case ploadUnfit =>
      refine .of_body (fun _ => rfl) rfl fun s ⟨may, unfit⟩ => State.acquirePlane_of_refused may (if_pos ?_)
      simp only [decide_eq_true_eq]
      exact loadRefused_iff.2 fun fits => unfit ⟨may, fits⟩
    case pret =>
      intro s runs ⟨notS, holds, fits, notTern, idle⟩
      refine ⟨_, s.retirement t h a o, pret_completes s runs ⟨notS, holds, fits, notTern, idle⟩, ?plane, ?queued,
        rfl, rfl, rfl, rfl, ?bytes, ?pending, rfl, State.startRetire_regs⟩
      case plane => exact congrArg Core.plane State.startRetire_myCore
      case queued =>
        rw [State.startRetire_myCore]
        exact List.mem_append_right _ (List.mem_singleton_self _)
      case bytes => simp only [State.retirement, State.retired, State.map_retireScale]
      case pending => exact List.mem_append_right _ (List.mem_singleton_self _)
    case pretUnfit =>
      refine .of_body (fun _ => rfl) rfl fun s ⟨notS, holds, unfit⟩ =>
        (State.heldPlane_of_holder notS holds).trans (if_pos ?_)
      simpa using unfit

end Sys2Proof.Machine
end

section
/-! SUPPORT. The statement on PSHIFT, PSTEP and PSTEPS (R153 to R161, R170, R171, R174). -/

namespace Sys2Proof.Machine

/-! ## Who may step (R163, R165, R347) -/

section
variable {s : State} {f : State → OpRes}

/-- Outside the handler of a trap that the holder took, the holder steps. -/
theorem State.stepping_of_holder (notS : s.isS = false) (holds : s.holdsPlane = true)
    (notHalted : ¬ (s.me.h = true ∧ s.myCore.plane.halted = true)) : s.stepping f = f s :=
  (State.heldPlane_of_holder notS holds).trans (if_neg (by simpa using notHalted))

/-- In that handler a step blocks (R165, R347; log entry 83). -/
theorem State.stepping_of_halted (notS : s.isS = false) (holds : s.holdsPlane = true) (handler : s.me.h = true)
    (halted : s.myCore.plane.halted = true) : s.stepping f = s.blockOn condPlane :=
  (State.heldPlane_of_holder notS holds).trans (if_pos (by simp [handler, halted]))

theorem State.stepping_of_other (notS : s.isS = false) (other : s.holdsPlane = false) : s.stepping f = s.planef 1 :=
  State.heldPlane_of_other notS other

end

/-! ## Steps (R170) -/

/-- The holder may step, and the tiles of the step are free and not poisoned. -/
def State.stepFree (s : State) (a b : BitVec 5) (sh : BitVec 4) : Prop :=
  sh.toNat ≤ 10 ∧ s.isS = false ∧ s.holdsPlane = true ∧ ¬ (s.me.h = true ∧ s.myCore.plane.halted = true) ∧
    s.tileWaits a.toNat false = false ∧ s.tileWaits b.toNat false = false ∧
    (s.tile a.toNat).poison = 0 ∧ (s.tile b.toNat).poison = 0

/-- The formats and scales of the tiles are those of the plane's kind, and give `n` products for each lane (R155,
R156). -/
def State.stepPair (s : State) (a b : BitVec 5) (fp : Bool) (n : Nat) : Prop :=
  let A := (s.tile a.toNat).desc
  let B := (s.tile b.toNat).desc
  pairOf (descFmt A) (descFmt B) = some (fp, n) ∧ fp = s.myCore.plane.fp ∧
    (descScales A = true → descAxis A = false) ∧ (descScales B = true → descAxis B = true)

/-- A sparse step finds its metadata (R157). -/
def State.stepSound (s : State) (b : BitVec 5) (y : BitVec 3) (sp : Bool) (n : Nat) : Prop :=
  sp = true → descMeta (s.tile b.toNat).desc = true ∧ (Map.get {} s.regs.feed y.toNat).c % 4 = 0 ∧ n ≠ 8

/-- A remote tile is of a core bound to the launch (R160). -/
def State.stepNear (s : State) (d : Dword) : Prop :=
  descRemote d = true → (s.core (s.tileCore d)).boundTo s.myCore.binding.launch = true

/-- What a step counts for: 8 with a remote first tile. -/
def State.stepWeight (s : State) (a : BitVec 5) : Nat := if descRemote (s.tile a.toNat).desc = true then 8 else 1

/-- A step reads no poison of its tiles' bytes (R160, R354). -/
def State.stepClean (s : State) (a b : BitVec 5) (x y : BitVec 3) (sp : Bool) (n : Nat) : Prop :=
  let fa := Map.get {} s.regs.feed x.toNat
  let fb := Map.get {} s.regs.feed y.toNat
  s.tileConsumes a.toNat
    (fun _ => sheetBytes s.regs.pg (s.viewTile (s.tile a.toNat).desc) fa (if sp then 2 * n else n)) = none ∧
  s.tileConsumes b.toNat
    (fun _ => (List.range 16).flatMap (weightBytes (s.viewTile (s.tile b.toNat).desc) fb sp n)) = none

/-- What a step leaves whose move has given the plane `q`. -/
def State.stepped (s : State) (a b : BitVec 5) (x y : BitVec 3) (last sp fp : Bool) (n : Nat) (q : Plane) : State :=
  let A := (s.tile a.toNat).desc
  let B := (s.tile b.toNat).desc
  let fa := Map.get {} s.regs.feed x.toNat
  let fb := Map.get {} s.regs.feed y.toNat
  let ask (d : Dword) := if descRemote d = true then
    [Instr.remoteOperandRequest (s.tileCore d) (descOff d) (descOff d + descSize d) q.blocks.toNat] else []
  let r := multiply q s.regs.pg fa fb (s.viewTile A) (s.viewTile B) fp sp n
  let f := Map.put {} s.regs.feed x.toNat fa.advance
  let f := if x = y then f else Map.put {} f y.toNat fb.advance
  let u := (s.setMyCore (s.myCore.countStep (s.stepWeight a))).setPlane { q with
    cells := r.1, sat := q.sat || r.2, stepc := q.stepc + s.stepWeight a,
    blocks := if last then q.blocks + 1 else q.blocks }
  (u.setRegs { u.regs with feed := f }).postAll (ask A ++ ask B)

section
variable {s : State} {a b : BitVec 5} {x y : BitVec 3} {sh : BitVec 4} {last sp fp : Bool} {n : Nat}

/-- The kind or the scales of the tiles do not fit. -/
theorem pairRefused_iff {A B : Dword} {kind : Bool} :
    (decide (fp ≠ kind) || (descScales A && descAxis A) || (descScales B && !descAxis B)) = true ↔
      ¬ (fp = kind ∧ (descScales A = true → descAxis A = false) ∧ (descScales B = true → descAxis B = true)) := by
  simp only [Bool.or_eq_true, Bool.and_eq_true, decide_eq_true_eq, Bool.not_eq_true', Classical.not_and_iff_not_or_not,
    Classical.not_imp, Bool.not_eq_false, Bool.not_eq_true, or_assoc, ne_eq]

theorem State.stepSound_refused_iff :
    (sp && (!descMeta (s.tile b.toNat).desc || decide ((Map.get {} s.regs.feed y.toNat).c % 4 ≠ 0) || decide (n = 8))) =
      true ↔ ¬ s.stepSound b y sp n := by
  cases sp <;> simp [State.stepSound, or_assoc, Decidable.imp_iff_not_or]

theorem State.stepNear_refused_iff {d e : Dword} :
    ((descRemote d && !(s.core (s.tileCore d)).boundTo s.myCore.binding.launch) ||
      (descRemote e && !(s.core (s.tileCore e)).boundTo s.myCore.binding.launch)) = true ↔
      ¬ (s.stepNear d ∧ s.stepNear e) := by
  simp only [State.stepNear, Bool.or_eq_true, Bool.and_eq_true, Bool.not_eq_true', Classical.not_and_iff_not_or_not,
    Classical.not_imp, Bool.not_eq_true]

theorem State.step_of_code (h : 10 < sh.toNat) : s.step_ a b x y sh last sp = s.illenc := if_pos h

/-- The checks of a step with free tiles, in order (R170): formats and scales, metadata, the cores of remote tiles, and
the step limit; past them, and with a move and bytes that raise nothing, the step completes. -/
theorem State.step_of_free (free : s.stepFree a b sh) :
    ((∀ fp n, ¬ s.stepPair a b fp n) → s.step_ a b x y sh last sp = s.planef 6) ∧
    ∀ fp n, s.stepPair a b fp n →
      let near := s.stepNear (s.tile a.toNat).desc ∧ s.stepNear (s.tile b.toNat).desc
      (¬ s.stepSound b y sp n → s.step_ a b x y sh last sp = s.planef 12) ∧
      (s.stepSound b y sp n → ¬ near → s.step_ a b x y sh last sp = s.planef 8) ∧
      (s.stepSound b y sp n → near → s.myCore.binding.pmax < s.myCore.plane.stepc + s.stepWeight a →
        s.step_ a b x y sh last sp = s.planef 5) ∧
      ∀ my mx w q, s.stepSound b y sp n → near → s.myCore.plane.stepc + s.stepWeight a ≤ s.myCore.binding.pmax →
        shiftMove s.regs.pg s.myCore.plane sh = some (my, mx, w) → s.myCore.plane.move my mx w = .ok q →
        s.stepClean a b x y sp n → s.step_ a b x y sh last sp = .done (s.stepped a b x y last sp fp n q) := by
  obtain ⟨code, notS, holds, notHalted, idleA, idleB, soundA, soundB⟩ := free
  have tiles : s.step_ a b x y sh last sp = _ := (if_neg (Nat.not_lt.2 code)).trans
    ((State.stepping_of_holder notS holds notHalted).trans ((if_neg (by simp [idleA, idleB])).trans
    ((if_neg (Classical.not_not.2 soundA)).trans (if_neg (Classical.not_not.2 soundB)))))
  refine ⟨fun unfit => ?formats, fun fp n ⟨formats, fits⟩ => ?paired⟩
  case formats =>
    cases hp : pairOf (descFmt (s.tile a.toNat).desc) (descFmt (s.tile b.toNat).desc) with
    | none => rw [tiles, hp]
    | some p =>
      rw [tiles, hp]
      exact if_pos (pairRefused_iff.2 fun fits => unfit p.1 p.2 ⟨hp, fits⟩)
  case paired =>
    rw [formats] at tiles
    have paired := tiles.trans (if_neg (fun refused => pairRefused_iff.1 refused fits))
    refine ⟨fun unsound => ?_, fun sound far => ?_, fun sound near beyond => ?_,
      fun my mx w q sound near within shift moves ⟨cleanA, cleanB⟩ => ?_⟩
    · exact paired.trans (if_pos (State.stepSound_refused_iff.2 unsound))
    · exact paired.trans ((if_neg (fun refused => State.stepSound_refused_iff.1 refused sound)).trans
        (if_pos (State.stepNear_refused_iff.2 far)))
    · exact paired.trans ((if_neg (fun refused => State.stepSound_refused_iff.1 refused sound)).trans
        ((if_neg (fun refused => State.stepNear_refused_iff.1 refused near)).trans (if_pos beyond)))
    · refine paired.trans ((if_neg (fun refused => State.stepSound_refused_iff.1 refused sound)).trans
        ((if_neg (fun refused => State.stepNear_refused_iff.1 refused near)).trans ((if_neg (Nat.not_lt.2 within)).trans ?_)))
      simp only [shift, moves, cleanA, cleanB]
      rfl

end
/-! ## The statement -/

/-- Settles O27: PSHIFT answers as the move does, and PSTEP and PSTEPS make the same checks in the same order. -/
theorem planeMoves : Obligations.PlaneMoves := by
  refine ⟨fun g sh => ?pshift, fun g a b x y sh l => ?steps⟩
  case pshift =>
    refine ⟨fun my mx w => ⟨?moves, ?range, ?leaves⟩, fun _ => rfl, fun _ => rfl, ?reserved, ?noHolder⟩
    case moves =>
      refine .of_body (fun _ => rfl) rfl fun s ⟨⟨⟨notS, holds, code⟩, shift⟩, stay, range⟩ =>
        (if_neg (Nat.not_lt.2 code)).trans ((State.heldPlane_of_holder notS holds).trans ?_)
      simp only [shift, Plane.move_of_stays stay range]
    case range =>
      refine .of_body (fun _ => rfl) rfl fun s ⟨⟨⟨notS, holds, code⟩, shift⟩, stay, out⟩ =>
        (if_neg (Nat.not_lt.2 code)).trans ((State.heldPlane_of_holder notS holds).trans ?_)
      simp only [shift, Plane.move_of_outOfRange stay out]
      exact s.moveFault_range
    case leaves =>
      intro s runs slot ⟨⟨notS, holds, code⟩, shift⟩ leaves
      obtain ⟨lane, moves⟩ := Plane.move_of_leaves (w := w) leaves
      obtain ⟨info, fault, reason⟩ := s.moveFault_leaves lane slot
      refine ⟨info, exec_of_answer (fun _ => rfl) rfl runs ((if_neg (Nat.not_lt.2 code)).trans
        ((State.heldPlane_of_holder notS holds).trans ?_)), reason⟩
      simp only [shift, moves]
      exact fault
    case reserved => exact .of_body (fun _ => rfl) rfl fun s code => if_pos code
    case noHolder =>
      exact .of_body (fun _ => rfl) rfl fun s ⟨code, notS, other⟩ =>
        (if_neg (Nat.not_lt.2 code)).trans (State.heldPlane_of_other notS other)
  case steps =>
    intro A B fa fb bound weight free pair sound near clean ask means
    have both (i : Instr) (sp : Bool)
        (he : ∀ s, exec i s = s.slotOp g i fun s => s.step_ a b x y sh (decide (l = 1)) sp)
        (hg : guardOfInstr i = g) : means i sp := by
      refine ⟨fun fp n my mx w q => ?completes, ?halted, fun fp n => ?limit, fun fp n => ?far, fun fp n => ?unsound,
        ?formats, ?code, ?other⟩
      case completes =>
        refine .of_body he hg fun s ⟨⟨free, pair⟩, sound, near, within, shift, moves, clean⟩ => ?_
        obtain ⟨-, checks⟩ := State.step_of_free free
        obtain ⟨-, -, -, completes⟩ := checks fp n pair
        refine (completes my mx w q sound near within shift moves clean).trans ?_
        simp only [State.stepped, decide_eq_true_eq]
        rfl
      case halted =>
        exact .of_body he hg fun s ⟨code, notS, holds, handler, halted⟩ =>
          (if_neg (Nat.not_lt.2 code)).trans (State.stepping_of_halted notS holds handler halted)
      case limit =>
        refine .of_body he hg fun s ⟨⟨free, pair⟩, sound, near, beyond⟩ => ?_
        obtain ⟨-, checks⟩ := State.step_of_free free
        obtain ⟨-, -, limit, -⟩ := checks fp n pair
        exact limit sound near beyond
      case far =>
        refine .of_body he hg fun s ⟨⟨free, pair⟩, sound, far⟩ => ?_
        obtain ⟨-, checks⟩ := State.step_of_free free
        obtain ⟨-, refused, -⟩ := checks fp n pair
        exact refused sound far
      case unsound =>
        refine .of_body he hg fun s ⟨⟨free, pair⟩, unsound⟩ => ?_
        obtain ⟨-, checks⟩ := State.step_of_free free
        obtain ⟨refused, -⟩ := checks fp n pair
        exact refused unsound
      case formats =>
        refine .of_body he hg fun s ⟨free, unfit⟩ => ?_
        obtain ⟨refused, -⟩ := State.step_of_free free
        exact refused fun fp n pair => unfit fp n ⟨free, pair⟩
      case code => exact .of_body he hg fun s code => State.step_of_code code
      case other =>
        exact .of_body he hg fun s ⟨code, notS, other⟩ =>
          (if_neg (Nat.not_lt.2 code)).trans (State.stepping_of_other notS other)
    exact ⟨both _ false (fun _ => rfl) rfl, both _ true (fun _ => rfl) rfl⟩

end Sys2Proof.Machine
end

section
/-! SUPPORT. The statement on the ops that wait: WAITID, WAITT, BAR and LZWAIT (R207, R229, R245, R319). -/

namespace Sys2Proof.Machine

/-! ## WAITID (R229) -/

/-- A transfer has completed exactly when its identifier is at most 2^31 behind CDONE. -/
theorem Core.completed_iff {k : Core} {ch : Nat} {x : Word} :
    k.completed ch x = true ↔ 1 ≤ (Map.get 0 k.cdone ch - x).toNat ∧ (Map.get 0 k.cdone ch - x).toNat ≤ 2 ^ 31 := by
  simp [Core.completed, Nat.succ_le_iff]

/-! ## BAR (R319) -/

section
variable {s : State} {sc : Nat} {f : State → OpRes}

/-- With nothing held and every earlier access performed, an op goes on. -/
theorem State.afterAll_of_settled (h : Settled sc s) : s.afterAll sc f = f s := by
  obtain ⟨released, performed⟩ := h
  simp [State.afterAll, State.unheld, State.afterEarlier, released, performed]

/-- An acquire goes on at core scope, and above it once its invalidation has been made. -/
theorem State.acquiring_of_acquired (h : sc ≠ 0 → ∃ bs, s.acquired = some bs) : s.acquiring sc f = f s := by
  by_cases core : sc = 0
  · exact if_pos core
  · obtain ⟨bs, acquired⟩ := h core
    refine (if_neg core).trans ?_
    rw [acquired]

end

/-- The strand may wait at a BAR of level `l`: it stands at a gang level of its launch whose scope is `sc`, its earlier
accesses are performed there with no failed store to report, and no member of its group is lost. -/
def State.atBarrier (s : State) (l : Nat) (st : Strand) (lc : Launch) (sc : Nat) : Prop :=
  ¬ notStrand s ∧ s.myStrand = some (st, lc) ∧ gangLevel lc.rc l = true ∧
    (lvScope ((levelsOf lc.rc).getD l 0)).toNat = sc ∧ Settled sc s ∧
    (sc = 3 → s.storeFailure 0xFFFF = none) ∧ lostInfo st lc l = none

/-- The strand has not passed its latest BAR of the level, at which every strand of its group has arrived. -/
def Launch.allArrived (lc : Launch) (st : Strand) (l : Nat) : Prop :=
  let count := Map.get 0 lc.arrived (st.num * 8 + l)
  Map.get 0 lc.passed (st.num * 8 + l) < count ∧ ∀ k ∈ groupMembers lc l st.num, lc.arrivedAt l count k = true

section
variable {s : State} {st : Strand} {lc : Launch} {l : Nat}

/-- Once all have arrived and the acquire is made, the strand passes. -/
theorem State.barrier_of_allArrived (noneLost : lostInfo st lc l = none) (all : lc.allArrived st l)
    (acquired : (lvScope ((levelsOf lc.rc).getD l 0)).toNat ≠ 0 → ∃ bs, s.acquired = some bs) :
    s.barrier st lc l = .done (s.setLaunch st.launch { s.launch st.launch with
      passed := Map.put 0 (s.launch st.launch).passed (st.num * 8 + l) (Map.get 0 lc.arrived (st.num * 8 + l)) }) := by
  obtain ⟨fresh, arrived⟩ := all
  rw [State.barrier, noneLost]
  exact (if_pos ⟨fresh, List.all_eq_true.2 arrived⟩).trans (State.acquiring_of_acquired acquired)

theorem State.barrier_of_missing (noneLost : lostInfo st lc l = none) (missing : ¬ lc.allArrived st l) :
    s.barrier st lc l = .block [.bar l] := by
  rw [State.barrier, noneLost]
  exact if_neg fun ⟨fresh, arrived⟩ => missing ⟨fresh, List.all_eq_true.1 arrived⟩

end

/-- A BAR at which the strand may wait goes on to the wait. -/
theorem exec_bar_of_atBarrier {s : State} {g : Guard} {l : BitVec 3} {st : Strand} {lc : Launch} {sc : Nat}
    (runs : s.opRuns (.bar g l) = true) (may : s.atBarrier l.toNat st lc sc) :
    exec (.bar g l) s = .next (s.afterOp (.bar g l) (s.barrier st lc l.toNat)) := by
  obtain ⟨isStrand, mine, gang, rfl, settled, noFailure, -⟩ := may
  refine exec_of_answer (fun _ => rfl) rfl runs ((if_neg (by simpa [notStrand] using isStrand)).trans ?_)
  rw [mine]
  refine (if_neg (by simp [gang])).trans ((State.afterAll_of_settled settled).trans ?_)
  rw [ite_eq_right_iff.2 noFailure]

/-! ## LZWAIT (R245, R249) -/

theorem abState_eq (w : Dword) : abState w = w.toNat / 2 ^ 62 := by
  have := w.isLt
  unfold abState bitsOf
  omega

/-- The word of a free barrier that keeps its zone and what it still awaits. -/
theorem abWord_freed (w : Dword) :
    abWord 0 (abZone w) (abPending w) = BitVec.ofNat 64 (w.toNat / 2 ^ 60 % 4 * 2 ^ 60 + w.toNat % 2 ^ 56) := by
  simp [abWord, abZone, abPending, bitsOf]

/-! ## The statement -/

/-- Settles O10: each op makes its checks in order, and a BAR at which the strand may wait is judged by its group. -/
theorem waitingOps : Obligations.WaitingOps := by
  refine ⟨fun g h a t => ?channels, fun g l => ?bar, fun g b d => ?lzwait⟩
  case channels =>
    have low (x : Dword) : x.extractLsb' 0 32 = x.setWidth 32 := BitVec.setWidth_eq_extractLsb' (by decide) |>.symm
    refine ⟨?completed, ?unknown, ?foreign, ?outstanding, ?idle, ?busy, ?service⟩
    case completed =>
      refine .of_body (fun _ => rfl) rfl fun s ⟨owns, behind⟩ => ?_
      have completed := Core.completed_iff.2 behind
      simp [low, owns, completed]
    case unknown =>
      refine .of_body (fun _ => rfl) rfl fun s ⟨owns, behind, given⟩ => ?_
      have pending := mt Core.completed_iff.1 behind
      rw [low]
      exact (if_neg (by simp [owns])).trans (if_pos (by simpa [pending] using given))
    case foreign => exact .of_body (fun _ => rfl) rfl fun s foreign => if_pos (by simp [foreign])
    case outstanding =>
      refine .of_body (fun _ => rfl) rfl fun s ⟨owns, behind, given, notHeld⟩ => ?_
      have pending := mt Core.completed_iff.1 behind
      rw [low]
      exact (if_neg (by simp [owns])).trans ((if_neg (by simpa [pending] using given)).trans
        ((if_neg pending).trans (if_neg (by simp [notHeld]))))
    case idle =>
      exact .of_body (fun _ => rfl) rfl fun s ⟨notS, idle⟩ => (if_neg notS).trans (if_neg (by simp [idle]))
    case busy => exact .of_body (fun _ => rfl) rfl fun s ⟨notS, busy⟩ => (if_neg notS).trans (if_pos busy)
    case service => exact .of_body (fun _ => rfl) rfl fun s inS => if_pos inS
  case bar =>
    refine ⟨fun st lc sc => ⟨?passes, ?waits⟩, ?noStrand, ?noGang⟩
    case passes =>
      intro s runs ⟨may, all, acquired⟩
      have ⟨_, _, _, scope, _, _, noneLost⟩ := may
      rw [exec_bar_of_atBarrier runs may, State.barrier_of_allArrived noneLost all (by rwa [scope])]
    case waits =>
      intro s runs ⟨may, missing⟩
      have ⟨_, _, _, _, _, _, noneLost⟩ := may
      rw [exec_bar_of_atBarrier runs may, State.barrier_of_missing noneLost missing]
    case noStrand =>
      exact .of_body (fun _ => rfl) rfl fun s outside => if_pos (by simpa [notStrand] using outside)
    case noGang =>
      refine .of_body (fun _ => rfl) rfl fun s noGang => ite_eq_left_iff.2 fun _ => ?_
      cases mine : s.myStrand with
      | none => rfl
      | some p => exact if_pos (by simp [noGang p.1 p.2 mine])
  case lzwait =>
    refine ⟨?free, ?waiting, ?met, ?failed, ?raised⟩
    case free => exact .of_body (fun _ => rfl) rfl fun s free => if_pos ((abState_eq _).trans free)
    case waiting =>
      refine .of_body (fun _ => rfl) rfl fun s waiting => ?_
      have state : abState (s.myCore.barrier b.toNat) = 1 := (abState_eq _).trans waiting
      exact (if_neg (by simp [state])).trans (if_pos state)
    case met =>
      refine .of_body (fun _ => rfl) rfl fun s met => ?_
      have state : abState (s.myCore.barrier b.toNat) = 2 := (abState_eq _).trans met
      simp [state, abWord_freed]
    case failed =>
      refine .of_body (fun _ => rfl) rfl fun s ⟨failed, delivered⟩ => ?_
      have state : abState (s.myCore.barrier b.toNat) = 3 := (abState_eq _).trans failed
      simp [state, show d ≠ 0#6 from delivered]
    case raised =>
      refine .of_body (fun _ => rfl) rfl fun s ⟨failed, discarded⟩ => ?_
      have state : abState (s.myCore.barrier b.toNat) = 3 := (abState_eq _).trans failed
      simp [state, discarded]

end Sys2Proof.Machine
end

section
/-! SUPPORT. What completing a transfer leaves of its core, and the refutation of the statement on identifiers (R214,
R226): it has every error set CERR, and those of a slice's transfers that end between slices are ignored (R291). -/

namespace Sys2Proof.Machine

/-- The core, but for its contexts, once its transfer `t`, named `x`, has completed with an error or 0 (R214, R226,
R291). -/
def Core.endXfer (k : Core) (x : XferId) (t : Xfer) (err : Nat) : Core :=
  let done := advanceDone 65 x.ch (Map.get 0 k.cdone x.ch) (k.xdone ++ [(x.ch, x.id)])
  { k with
    xfers := k.xfers.filter (· ≠ t)
    score := k.score.filter fun e => e.key ≠ t.key
    xdone := done.2
    cdone := Map.put 0 k.cdone x.ch done.1
    cerr := if (if k.afterSlice t.ctx then 0 else err) = 0 then k.cerr else k.cerr ||| (1#16 <<< x.ch) }

section
variable {s : State} {x : XferId} {t : Xfer}

/-- Setting a context leaves what stands in a core beside its contexts. -/
theorem State.setCtx_core_beside {k : Core} {n : Nat} (w : Who) (c : Ctx) (h : ∃ m, s.core n = { k with ctxs := m }) :
    ∃ m, (s.setCtx w c).core n = { k with ctxs := m } := by
  obtain ⟨m, hm⟩ := h
  rw [State.core_setCtx]
  split
  · next own => exact ⟨Map.put {} m w.ctx c, by rw [← own, hm]; rfl⟩
  · exact ⟨m, hm⟩

/-- Completing a transfer ends it in its core. -/
theorem State.completeXfer_core (err : Nat)
    (found : (s.core x.core).xfers.find? (fun t => decide (t.ch = x.ch) && decide (t.id = x.id)) = some t) :
    ∃ m, (s.completeXfer x err).core x.core = { (s.core x.core).endXfer x t err with ctxs := m } := by
  have logged (b c : Prop) [Decidable b] [Decidable c] (u : State) (w : Who) (m n i j : Nat) :
      (if b then u.logCtx w m i else if c then u.logCtx w n j else u).core x.core = u.core x.core := by
    split
    · rfl
    · split <;> rfl
  unfold State.completeXfer
  simp only [found]
  rw [logged]
  exact setCtx_core_beside _ _ (setCtx_core_beside _ _ ⟨_, (State.core_setCore ..).trans (if_pos rfl)⟩)

/-- Between slices an error of the regrow context's transfer leaves CERR (R291). -/
theorem State.completeXfer_cerr_of_afterSlice (err : Nat)
    (found : (s.core x.core).xfers.find? (fun t => decide (t.ch = x.ch) && decide (t.id = x.id)) = some t)
    (between : (s.core x.core).afterSlice t.ctx = true) :
    ((s.completeXfer x err).core x.core).cerr = (s.core x.core).cerr := by
  obtain ⟨m, ended⟩ := State.completeXfer_core err found
  rw [ended]
  simp [Core.endXfer, between]

end

/-- Refutes O20: a transfer of the regrow context that ends with error 5 between slices leaves CERR as it was (R291), where
the statement has it set the channel's bit. -/
theorem not_identifiersCountUp : ¬ Obligations.IdentifiersCountUp := by
  intro ⟨_, completes⟩
  let t : Xfer := ⟨1, 0, 3, 7, 0, 0, .scatter 0 [], 5, false, [], none, [], false, {}⟩
  let s : State := { State.reset with cores := [(0, { depth := 1, xfers := [t] })] }
  have found : ((s.core 0).xfers.find? fun t => decide (t.ch = 1) && decide (t.id = 0)) = some t := by decide
  have kept : ((s.completeXfer ⟨0, 1, 0⟩ 5).core 0).cerr = 0 :=
    State.completeXfer_cerr_of_afterSlice (x := ⟨0, 1, 0⟩) 5 found (by decide)
  obtain ⟨-, -, -, -, -, set⟩ := completes s ⟨0, 1, 0⟩ t 5 found
  exact absurd (kept.symm.trans set) (by decide)

end Sys2Proof.Machine
end

section
/-! SUPPORT. The statement on the gather queue: GPUSH, GPOP and SPUSH (R215, R227, R228). -/

namespace Sys2Proof.Machine

/-! ## Bytes of a row, and the fields of GQT (R215) -/

/-- The bytes of a number, lowest first, are its digits to base 256. -/
theorem leBytes_eq_map (n x : Nat) : leBytes n x = (List.range n).map fun j => BitVec.ofNat 8 (x / 256 ^ j) := by
  induction n generalizing x with
  | zero => rfl
  | succ n ih =>
    simp only [leBytes, ih, List.range_succ_eq_map, List.map_cons, List.map_map, Nat.pow_zero, Nat.div_one]
    congr 2
    funext j
    simp [Nat.pow_succ, Nat.mul_comm, Nat.div_div_eq_div_mul]

theorem gqRow_eq (t : Dword) : gqRow t = (t.toNat / 2 ^ 60 + 1) * 64 := by
  have := t.isLt
  unfold gqRow bitsOf
  omega

theorem gqChannel_eq (t : Dword) : gqChannel t = BitVec.ofNat 4 (t.toNat / 2 ^ 56) := by
  simp [gqChannel, BitVec.extractLsb', Nat.shiftRight_eq_div_pow]

theorem gqAddrOf_eq (t i : Dword) :
    gqAddrOf t i = t.toNat / 2 ^ 6 % 2 ^ 46 * 64 + i.toNat * ((t.toNat / 2 ^ 60 + 1) * 64) := by
  rw [gqAddrOf, gqRow_eq]
  rfl

/-! ## Who may use the queue (R228) -/

section
variable {s : State} {v : BitVec 7}

/-- The context is no service context, and its window has the register. -/
def State.mayQueue (s : State) (v : BitVec 7) : Prop := s.isS = false ∧ s.inVectors v = true

theorem State.mayQueue.accepted (h : s.mayQueue v) : ¬ (s.isS || !s.inVectors v) = true := by
  obtain ⟨notS, inWindow⟩ := h
  simp [notS, inWindow]

theorem State.refused_of_not_mayQueue (h : ¬ s.mayQueue v) : (s.isS || !s.inVectors v) = true := by
  cases service : s.isS <;> simp_all [State.mayQueue]

end

/-- Placing a context in program order leaves its gather queue. -/
theorem State.placed_gqAddr (s : State) : s.placed.me.gqAddr = s.me.gqAddr := by
  have own : s.placed.me = { s.me with seq := s.me.seq + 1 } := State.me_setMe ..
  rw [own]

/-! ## The statement -/

/-- Settles O21: each op makes its checks in order, and GQT gives the row, the class and the channel. -/
theorem gatherQueueOps : Obligations.GatherQueueOps := by
  intro g v a
  refine ⟨?gpush, ?gpushFull, fun r l whole => ?gpop, fun r l f faulted => ?gpopFault, ?gpopEmpty,
    fun j x n got => ?gpopWaits, ?spush, ?spushForeign, ?gpushService, ?gpopRefused, ?spushRefused⟩
  case gpush =>
    refine .of_body (fun _ => rfl) rfl fun s ⟨notS, room⟩ =>
      (if_neg (by simp [notS])).trans ((if_neg (Nat.not_le.2 room)).trans ?_)
    rw [← State.placed_gqAddr s]
    simp only [gqRow_eq, gqAddrOf_eq]
    rfl
  case gpushFull =>
    exact .of_body (fun _ => rfl) rfl fun s ⟨notS, full⟩ =>
      (if_neg (by simp [notS])).trans (if_pos (Nat.not_lt.1 full))
  case gpop =>
    refine .of_body (fun _ => rfl) rfl fun s ⟨may, notHandler, first⟩ =>
      (if_neg (State.mayQueue.accepted may)).trans ((if_neg (by simp [notHandler])).trans ?_)
    simp only [first, whole]
    rfl
  case gpopFault =>
    refine .of_body (fun _ => rfl) rfl fun s ⟨may, notHandler, first, fresh⟩ =>
      (if_neg (State.mayQueue.accepted may)).trans ((if_neg (by simp [notHandler])).trans ?_)
    simp only [first, faulted]
    exact if_pos (by simp [fresh])
  case gpopEmpty =>
    refine .of_body (fun _ => rfl) rfl fun s ⟨may, notHandler, noRow, noEntry⟩ =>
      (if_neg (State.mayQueue.accepted may)).trans ((if_neg (by simp [notHandler])).trans ?_)
    rw [noRow, noEntry]
    rfl
  case gpopWaits =>
    refine .of_body (fun _ => rfl) rfl fun s ⟨may, notHandler, noRow, gather⟩ =>
      (if_neg (State.mayQueue.accepted may)).trans ((if_neg (by simp [notHandler])).trans ?_)
    rw [noRow]
    exact if_pos (List.any_eq_true.2 ⟨_, gather, rfl⟩)
  case spush =>
    refine .of_body (fun _ => rfl) rfl fun s ⟨may, owns, room, notFull⟩ =>
      (if_neg (State.mayQueue.accepted may)).trans ?_
    have owned : s.ownsChannel (gqChannel s.me.gqt) = true := gqChannel_eq s.me.gqt ▸ owns
    have free : s.channelFull (gqChannel s.me.gqt) = false := gqChannel_eq s.me.gqt ▸ notFull
    refine (if_neg (by simp [owned])).trans ((if_neg (Nat.not_le.2 room)).trans ((if_neg (by simp [free])).trans ?_))
    simp only [vbytes, leBytes_eq_map, gqRow_eq, gqAddrOf_eq, gqChannel_eq]
    rfl
  case spushForeign =>
    refine .of_body (fun _ => rfl) rfl fun s ⟨may, foreign⟩ => (if_neg (State.mayQueue.accepted may)).trans ?_
    have notOwned : s.ownsChannel (gqChannel s.me.gqt) = false := gqChannel_eq s.me.gqt ▸ foreign
    exact if_pos (by simp [notOwned])
  case gpushService => exact .of_body (fun _ => rfl) rfl fun s inS => if_pos inS
  case gpopRefused => exact .of_body (fun _ => rfl) rfl fun s refused => if_pos (State.refused_of_not_mayQueue refused)
  case spushRefused => exact .of_body (fun _ => rfl) rfl fun s refused => if_pos (State.refused_of_not_mayQueue refused)

end Sys2Proof.Machine
end
